-- ==== Sys2Proof/Word.lean ====
section
/-! DEFINITION. The word types of the module and their plainest arithmetic (R21, R22). -/

namespace Sys2Proof

/-- A byte. -/
abbrev Byte := BitVec 8
/-- A 16-bit value: status codes (R26), slot numbers, envelope indices. -/
abbrev W16 := BitVec 16
/-- A 32-bit value: host-visible registers (R22), generations, versions, positions. -/
abbrev W32 := BitVec 32
/-- A 64-bit value: core scalar registers (R163), span and host addresses. -/
abbrev W64 := BitVec 64

/-- Bits `[lo + n - 1 : lo]` of `x`, as the manual writes bit ranges (R21). -/
def bits {w : Nat} (x : BitVec w) (lo n : Nat) : BitVec n := x.extractLsb' lo n

/-- Bit `i` of `x`. -/
def bit {w : Nat} (x : BitVec w) (i : Nat) : Bool := x.getLsbD i

/-- 1 for true, 0 for false, in `n` bits. -/
def ofFlag (n : Nat) (b : Bool) : BitVec n := if b then 1#n else 0#n

/-- `x` with bits `[lo + n - 1 : lo]` replaced by `y`. -/
def putBits {w n : Nat} (x : BitVec w) (lo : Nat) (y : BitVec n) : BitVec w :=
  let m := (BitVec.setWidth w (BitVec.allOnes n)) <<< lo
  (x &&& ~~~m) ||| ((BitVec.setWidth w y) <<< lo)

/-- `x` with bit `i` set. -/
def setBit {w : Nat} (x : BitVec w) (i : Nat) : BitVec w := x ||| (1#w <<< i)

/-- `x` with bit `i` cleared. -/
def clearBit {w : Nat} (x : BitVec w) (i : Nat) : BitVec w := x &&& ~~~(1#w <<< i)

/-- The number of bits set among bits `0 .. n-1` of `x`. -/
def popCountTo {w : Nat} (x : BitVec w) : Nat → Nat
  | 0 => 0
  | n + 1 => popCountTo x n + (if x.getLsbD n then 1 else 0)

/-- The number of bits set in `x`. -/
def popCount {w : Nat} (x : BitVec w) : Nat := popCountTo x w

/-- A counter that sticks at its largest value (R604). -/
def stick {w : Nat} (x : BitVec w) : BitVec w := if x = BitVec.allOnes w then x else x + 1

/-- `x + n`, sticking at the largest value (R604). -/
def stickAdd {w : Nat} (x : BitVec w) (n : Nat) : BitVec w :=
  if x.toNat + n ≥ 2 ^ w then BitVec.allOnes w else x + BitVec.ofNat w n

/-- `a` is newer than `b`: `(a - b) mod 2^32` lies in 1 to 2^30 (R92, R125, R366, R400). -/
def newer (a b : W32) : Bool := 1 ≤ (a - b).toNat && (a - b).toNat ≤ 2 ^ 30

/-- ⌈a / b⌉. -/
def ceilDiv (a b : Nat) : Nat := (a + b - 1) / b

end Sys2Proof
end

