-- ==== Sys2Proof/Machine/SparseMap.lean ====
section
/-! DEFINITION. Sparse tables and byte-addressed memories as plain data in one canonical form: keys strictly rising,
no entry equal to what an unlisted key reads as. Equal tables are equal lists. -/

namespace Sys2Proof.Machine

/-- A table from numbers to values: a list of (key, value) pairs, keys strictly rising, no default value listed. -/
abbrev SMap (α : Type) := List (Nat × α)

/-- What a table holds at a key; an unlisted key reads as `d`. -/
def SMap.get {α : Type} (d : α) : SMap α → Nat → α
  | [], _ => d
  | (k, v) :: r, i => if k = i then v else SMap.get d r i

/-- Write one key, keeping the canonical form: writing the default removes the entry. -/
def SMap.set {α : Type} [DecidableEq α] (d : α) : SMap α → Nat → α → SMap α
  | [], i, x => if x = d then [] else [(i, x)]
  | (k, v) :: r, i, x =>
    if i < k then (if x = d then (k, v) :: r else (i, x) :: (k, v) :: r)
    else if i = k then (if x = d then r else (i, x) :: r)
    else (k, v) :: SMap.set d r i x

/-- Every key of `m` lies above `b`. -/
def SMap.above {α : Type} (b : Nat) : SMap α → Bool
  | [] => true
  | (k, _) :: r => decide (b < k) && SMap.above k r

/-- The canonical form: keys strictly rising and no entry equal to the default. -/
def SMap.wf {α : Type} [DecidableEq α] (d : α) : SMap α → Bool
  | [] => true
  | (k, v) :: r => decide (v ≠ d) && SMap.above k r && SMap.wf d r

/-- Keep the entries a test accepts (keeps the canonical form). -/
def SMap.keep {α : Type} (p : Nat → α → Bool) (m : SMap α) : SMap α := m.filter fun e => p e.1 e.2

/-- Apply `f` to every listed value, dropping what becomes the default. -/
def SMap.mapVals {α : Type} [DecidableEq α] (d : α) (f : Nat → α → α) (m : SMap α) : SMap α :=
  (m.map fun e => (e.1, f e.1 e.2)).filter fun e => e.2 ≠ d

/-- A byte-addressed memory: (address, byte) pairs in the canonical form; an unlisted address reads 0. -/
abbrev Mem := List Host.Cell

/-- The canonical form of a memory. -/
def Mem.wf (m : Mem) : Bool := SMap.wf (0#8) m

/-- The byte at an address. -/
def Mem.byte (m : Mem) (a : Nat) : Byte := SMap.get (0#8) m a

/-- Write one byte. -/
def Mem.setByte (m : Mem) (a : Nat) (b : Byte) : Mem := SMap.set (0#8) m a b

/-- The bytes of `[a, a + n)`, moved to start at 0. -/
def Mem.slice (m : Mem) (a n : Nat) : Mem :=
  (m.filter fun e => decide (a ≤ e.1) && decide (e.1 < a + n)).map fun e => (e.1 - a, e.2)

/-- `m` with the bytes of `[a, a + n)` replaced by the bytes `[0, n)` of `x`. -/
def Mem.splice (m : Mem) (a n : Nat) (x : Mem) : Mem :=
  (m.filter fun e => decide (e.1 < a)) ++
  ((x.filter fun e => decide (e.1 < n)).map fun e => (e.1 + a, e.2)) ++
  (m.filter fun e => decide (a + n ≤ e.1))

/-- The `n` bytes at `a`, lowest address first. -/
def Mem.toList (m : Mem) (a : Nat) : Nat → List Byte
  | 0 => []
  | n + 1 => m.byte a :: Mem.toList m (a + 1) n

/-- A memory holding the listed bytes from address `a` on. -/
def Mem.ofListAt (a : Nat) : List Byte → Mem
  | [] => []
  | b :: r => if b = 0#8 then Mem.ofListAt (a + 1) r else (a, b) :: Mem.ofListAt (a + 1) r

/-- A memory holding the listed bytes from address 0 on. -/
def Mem.ofList (l : List Byte) : Mem := Mem.ofListAt 0 l

/-- The `n` bytes at `a` as one little-endian number (R22, R83, R117). -/
def Mem.readNat (m : Mem) (a : Nat) : Nat → Nat
  | 0 => 0
  | n + 1 => (m.byte a).toNat + 256 * Mem.readNat m (a + 1) n

/-- The `w / 8` bytes at `a` as one little-endian word. -/
def Mem.read (m : Mem) (w a : Nat) : BitVec w := BitVec.ofNat w (m.readNat a (w / 8))

/-- The `n` low bytes of a number, lowest first. -/
def bytesLE (x : Nat) : Nat → List Byte
  | 0 => []
  | n + 1 => BitVec.ofNat 8 x :: bytesLE (x / 256) n

/-- The bytes of a word, lowest first. -/
def wordBytes {w : Nat} (x : BitVec w) : List Byte := bytesLE x.toNat (w / 8)

/-- Write `n` bytes of a number at `a`, little-endian. -/
def Mem.writeNat (m : Mem) (a n x : Nat) : Mem := m.splice a n (Mem.ofList (bytesLE x n))

/-- Write a word at `a`, little-endian. -/
def Mem.write {w : Nat} (m : Mem) (a : Nat) (x : BitVec w) : Mem := m.writeNat a (w / 8) x.toNat

/-- Every byte of `[a, a + n)` is 0. -/
def Mem.zeroIn (m : Mem) (a n : Nat) : Bool := m.all fun e => !(decide (a ≤ e.1) && decide (e.1 < a + n))

/-- A list with its element at `i` replaced. -/
def listSet {α : Type} : List α → Nat → α → List α
  | [], _, _ => []
  | _ :: r, 0, y => y :: r
  | x :: r, n + 1, y => x :: listSet r n y

/-- A list without its element at `i`. -/
def listDrop {α : Type} : List α → Nat → List α
  | [], _ => []
  | _ :: r, 0 => r
  | x :: r, n + 1 => x :: listDrop r n

end Sys2Proof.Machine
end

