-- ==== Sys2Proof/Machine/Types.lean ====
section
/-! DEFINITION. The parts of the module as plain data: what each block, core, partition, port and table entry holds.
Each structure names the rules that give it. -/

namespace Sys2Proof.Machine

/-! ### Rings and functions (R503 to R518) -/

/-- A ring pair: function 0 is the PF, function n + 1 is VF n (R503, R508). -/
structure RingId where
  fn : Nat
  ring : Nat
deriving DecidableEq, Repr, Inhabited

/-- What a completion needs of the command it answers (R511, R513, R515). `epoch` tells one enabling of a ring from the next (R509). -/
structure CmdRef where
  ring : RingId
  epoch : Nat
  tag : W32
  opcode : Byte
  part : Byte
deriving DecidableEq, Repr, Inhabited

/-- A completion entry (R513); `detail` is bytes 0x10 to 0x3f, byte 0x10 lowest (R514). -/
structure CplEntry where
  kind : Byte
  phase : Bool := false
  status : W16
  tag : W32 := 0
  part : Byte
  opcode : Byte := 0
  detail : BitVec 384 := 0
deriving DecidableEq, Repr, Inhabited

/-- A ring pair (R508 to R510, R513, R516, R518, R536). `entries` are written and not yet returned, `waiting` wait in the module.
`fetched` are commands fetched and not started, and `running` the commands started and not complete, each with the enabling it came under. -/
structure Ring where
  cmdBase : W64 := 0
  cplBase : W64 := 0
  enable : Bool := false
  log2 : BitVec 5 := 4
  coalCnt : Byte := 1
  coalUs : Byte := 0
  cmdHead : W16 := 0
  cmdTail : W16 := 0
  cplHead : W16 := 0
  cplTail : W16 := 0
  phase : Bool := true
  epoch : Nat := 0
  fetched : List (Nat × BitVec 512) := []
  running : List Nat := []
  unsignalled : Nat := 0
  entries : List CplEntry := []
  waiting : List CplEntry := []
  dropped : Bool := false
deriving DecidableEq, Repr, Inhabited

/-- What an unlisted entry reads as: a ring pair never enabled. -/
def Ring.blank : Ring := {}

/-- The PCIe side of a function: bus mastering and MSI-X (R507, R518), the ring selector (R536) and its IDE stream, with the requests that it has
protected since it became Secure (R557). -/
structure Func where
  busMaster : Bool := false
  msixEnable : Bool := false
  masked : W32 := 0xffffffff
  pendingVec : W32 := 0
  rsel : BitVec 4 := 0
  ideKey : Option (BitVec 256) := none
  ideSecure : Bool := false
  ideCount : Nat := 0
deriving DecidableEq, Repr, Inhabited

/-- What an unlisted entry reads as: a function after reset. -/
def Func.blank : Func := {}

/-! ### Cores (R108, R137, R163 to R166, R229) -/

/-- An address register (R163). -/
structure AddrReg where
  value : W64 := 0
  stride : W64 := 0
  bound : W64 := 0
deriving DecidableEq, Repr, Inhabited

/-- What an unlisted entry reads as: an address register never written. -/
def AddrReg.blank : AddrReg := {}

/-- A tile handle (R165): state 0 invalid, 1 local, 2 span. -/
structure Handle where
  addr : W64 := 0
  st : BitVec 2 := 0
  fmt : BitVec 4 := 0
  side : BitVec 11 := 0
deriving DecidableEq, Repr, Inhabited

/-- What an unlisted entry reads as: a tile handle never written. -/
def Handle.blank : Handle := {}

/-- An active hardware loop (R171, R153). -/
structure LoopLevel where
  p : Nat
  n : Nat
  mask : W32
  live : W64
deriving DecidableEq, Repr, Inhabited

/-- A receive channel (R137 to R144, R153): `waiters` are the senders whose credit request has reached the router, in order. -/
structure Channel where
  depth : Nat := 0
  held : Nat := 0
  granted : Nat := 0
  headBuf : Nat := 0
  waiters : List Nat := []
deriving DecidableEq, Repr, Inhabited

/-- What an unlisted entry reads as: a receive channel never used. -/
def Channel.blank : Channel := {}

/-- The states of an inactive bank (R127). -/
inductive BankState where
  | empty | filling | ready
deriving DecidableEq, Repr, Inhabited

/-- What a core does (R130, R132, R149): idle, running, at `swap` waiting for a broadcast, or halted at a stop. -/
inductive RunState where
  | idle | running | waitBank
  | halted (cause waiting : Nat)
deriving DecidableEq, Repr, Inhabited

/-- A register an operation writes, named for R158. -/
inductive Reg where
  | a (i : Nat) | c (i : Nat) | s (i : Nat) | v (i : Nat) | t (i : Nat)
deriving DecidableEq, Repr, Inhabited

/-- A write an operation makes when it completes (R160). -/
inductive RegWrite where
  | a (i : Nat) (x : AddrReg)
  | c (i : Nat) (x : W64)
  | s (i : Nat) (x : W64)
  | v (i : Nat) (x : BitVec 8192)
  | t (i : Nat) (x : Handle)
deriving DecidableEq, Repr, Inhabited

/-- A tile: its payload of 8,192 bytes and its side data (R284, R285). -/
structure TileData where
  fmt : Nat := 0
  payload : Mem := []
  side : Mem := []
  sideLen : Nat := 0
deriving DecidableEq, Repr, Inhabited

/-- The span side of a `tcopy` in flight (R183, R300): a read into local address `local`, or a write not yet accepted. -/
inductive SpanOp where
  | none
  | read (addr : W64) (localAddr : Nat) (sideLen : Nat)
  | write (addr : W64) (data : TileData) (accepted : Bool)
deriving DecidableEq, Repr, Inhabited

/-- An operation issued and not complete (R158, R160): its bundle, the register writes it makes, the flags it sets
and the status it found after issue (R196). -/
structure InFlight where
  bundle : Nat
  writes : List RegWrite := []
  busy : List Reg := []
  flags : BitVec 7 := 0
  vec : Bool := false
  status : W16 := 0
  span : SpanOp := .none
  lines : Nat × Nat := (0, 0)
  ready : Bool := true
deriving DecidableEq, Repr, Inhabited

/-- A stationary operand (R232): its tiles as read, with the format pair, depth and Z19 mode of its bridle. -/
structure Stationary where
  fmt : Nat
  depth : Nat
  rs : Bool
  tiles : List TileData
deriving DecidableEq, Repr, Inhabited

/-- A bridle in an array's bridle lane (R232, R248). `bad` is the status it found after issue (R110, R196), as in the operations below. -/
structure BridleOp where
  bundle : Nat
  stat : Stationary
  bad : W16 := 0
  started : Bool := false
deriving DecidableEq, Repr, Inhabited

/-- A stream in an array's stream lane, or with its products still moving (R234, R248, R249). -/
structure StreamOp where
  bundle : Nat
  fmt : Nat
  kind : Nat
  shape : Nat
  first : Bool
  last : Bool
  rq : Bool
  tiles : List TileData
  stat : Stationary
  bridlesBefore : Nat
  bad : W16 := 0
  started : Bool := false
deriving DecidableEq, Repr, Inhabited

/-- A drain (R192, R240). -/
structure DrainOp where
  bundle : Nat
  fmt : Nat
  t : Nat
  addr0 : Nat
  addr1 : Nat
  bad : W16 := 0
deriving DecidableEq, Repr, Inhabited

/-- A matrix array (R229, R236, R239, R195). `issued` counts bridles issued, `begun` bridles started, so that a stream
knows whether its own bridle has started; `tiles` counts tiles in or entering the tail set that no drain names. -/
structure ArrayState where
  bridles : List BridleOp := []
  streams : List StreamOp := []
  landing : List StreamOp := []
  drains : List DrainOp := []
  latest : Option Stationary := none
  nextStat : Option Stationary := none
  liveStat : Option Stationary := none
  issued : Nat := 0
  begun : Nat := 0
  taken : Nat := 0
  acc : Option (Nat × Nat × Nat) := none
  live : SMap W32 := []
  tail : SMap W32 := []
  tailFull : Bool := false
  tiles : Nat := 0
deriving DecidableEq, Repr, Inhabited

/-- The states of a sequence slot (R330). -/
inductive SlotState where
  | free | opened | ending | scrubbing
deriving DecidableEq, Repr, Inhabited

/-- A sequence slot (R329) with what the batcher and the gondola table know of it (R354, R361, R373). `closed` is set where SEQ_CLOSE
made it ending, `fedNo` numbers the FEED that made it ready, `part` is the partition it was opened in. -/
structure SeqSlot where
  ident : W32 := 0
  st : SlotState := .free
  latent : Byte := 0
  width : W16 := 0
  layers : W16 := 0
  pages : W16 := 0
  gondola : W16 := 0
  env : W16 := 0
  table : W64 := 0
  n : W32 := 0
  limit : W32 := 0
  endStatus : W16 := 0
  version : W32 := 0
  fed : Option W16 := none
  fedNo : Nat := 0
  inStep : Bool := false
  cutAt : Option W32 := none
  closers : List CmdRef := []
  closed : Bool := false
  part : Nat := 0
deriving DecidableEq, Repr, Inhabited

/-- What an unlisted entry reads as: a free sequence slot. -/
def SeqSlot.blank : SeqSlot := {}

/-- The generator of a lane (R274, R277): its state, 0 while neither a draw nor the entropy source has used it since power-on, and the draws
since bits were last mixed into it. -/
structure LaneGen where
  st : BitVec 128 := 0
  draws : Nat := 0
deriving DecidableEq, Repr, Inhabited

/-- A core (R108, R163, R153). `bankA` is bank 0 and `bankB` bank 1, laid out as R122 gives; `store` is the core store and
`poison` its poisoned 64-byte lines (R110). `lanes` are the generators of its lanes, none where
no draw and no reseeding has used them. `snapped` says that the snapshot of the stop-marked spool it holds has ended (R150). -/
structure Core where
  a : SMap AddrReg := []
  c : SMap W64 := []
  s : SMap W64 := []
  v : SMap (BitVec 8192) := []
  t : SMap Handle := []
  loops : List LoopLevel := []
  flags : BitVec 7 := 0
  run : RunState := .idle
  pc : Nat := 0
  passes : W32 := 0
  activeB : Bool := false
  bankA : Mem := []
  bankB : Mem := []
  inactive : BankState := .empty
  gen : Option W32 := none
  snapped : Bool := false
  readyGen : W32 := 0
  rank : Nat := 0
  n : Nat := 0
  chans : SMap Channel := []
  store : Mem := []
  poison : List Nat := []
  slots : SMap SeqSlot := []
  ops : List InFlight := []
  arrA : ArrayState := {}
  arrB : ArrayState := {}
  drops : W16 := 0
  request : Option (Nat × Nat) := none
  credit : Option (Nat × Nat) := none
  ended : W16 := 0
  endedAt : Nat := 0
  supply : BitVec 6 := 20
  ceilingCut : BitVec 6 := 0
  temp : Byte := 0
  hot : Bool := false
  held : Bool := false
  off : Bool := false
  gatedA : Bool := false
  gatedB : Bool := false
  gatedV : Bool := false
  entropyFail : Bool := false
  lanes : List LaneGen := []
deriving DecidableEq, Repr, Inhabited

/-- What an unlisted entry reads as: a core never used. -/
def Core.blank : Core := {}

/-- A message on the mesh (R137, R138): `src` 256 and above names a sender that is not a core. `stale` says that its core has left the partition
it was sent in. -/
structure MeshMsg where
  src : Nat
  dst : Nat
  chan : Nat
  word0 : W32
  word1 : W64
  hint : Byte
  srcByte : Byte
  data : Option TileData
  stale : Bool := false
deriving DecidableEq, Repr, Inhabited

/-! ### The span (R282 to R310) -/

/-- An extent mapping of a partition (R283, R293, R294, R306 to R309). -/
structure Extent where
  owner : Nat
  ro : Bool := false
  mode : BitVec 2 := 0
  isSealed : Bool := false
  trim : Byte := 0
  hint : Byte := 0
  env : W16 := 0
deriving DecidableEq, Repr, Inhabited

/-- A tile slot of a span and its tile-map entry (R285, R296, R305, R313, R318, R582). `fresh` means never written or scrubbed (R286); `data` is
its content in tier 1 or 2, whose stream is stored under `mode`, `isSealed` and `trim`, and `raw` its stored units where they were imported and
not formed here; `nearCore` is the core and the near place that hold its copy; `moving` is the tier a migration takes it to, true for tier 2;
`placed` counts the physical locations it has had. -/
structure Tile where
  data : TileData := {}
  fresh : Bool := true
  hint : Option Byte := none
  nearCore : Option (Nat × Nat) := none
  uses : Nat := 0
  tier2 : Bool := false
  moving : Option Bool := none
  poisoned : Bool := false
  mode : BitVec 2 := 0
  isSealed : Bool := false
  trim : Byte := 0
  units : Nat := 1
  isFolded : Bool := true
  crc : W64 := 0
  raw : Option (List Byte) := none
  placed : Nat := 0
  savedMark : Bool := false
  lastRead : Nat := 0
  nextHint : Option (Byte × Nat) := none
deriving DecidableEq, Repr, Inhabited

/-- The symbol errors of the codewords of a tile as read: for each codeword with any, the position and the difference of each symbol (R317). -/
abbrev CodeErrs := List (Nat × List (Nat × Byte))

/-- What an unlisted entry reads as: a tile slot never written. -/
def Tile.blank : Tile := {}

/-- What a command waits for (R324, R382, R386, R523, R524). -/
inductive JobKind where
  | unmap | scrub | hint | rehome | resize | reelOpen | reelClose | partDelete
deriving DecidableEq, Repr, Inhabited

/-- A run of scrubbing or moving of the tile slots `[lo, hi)` of a partition that a command waits for. -/
structure SpanJob where
  kind : JobKind
  ref : Option CmdRef
  part : Nat
  lo : Nat := 0
  hi : Nat := 0
  index : Nat := 0
deriving DecidableEq, Repr, Inhabited

/-! ### Tethers (R123 to R135, R150, R372 to R378) -/

/-- A load waiting for, or in, its tether (R123). -/
structure Load where
  ref : CmdRef
  addr : W64
  len : W32
deriving DecidableEq, Repr, Inhabited

/-- What a tether does with its oldest load (R123). -/
inductive LoadPhase where
  | idle | reading | broadcasting
deriving DecidableEq, Repr, Inhabited

/-- What a tether keeps of a generation it accepted (R126, R134, R135). -/
structure GenRec where
  gen : W32
  digest : BitVec 384 := 0
  took : BitVec 256 := 0
  dropped : BitVec 256 := 0
  reported : Bool := false
  boundary : Bool := false
deriving DecidableEq, Repr, Inhabited

/-- An entry of a step list (R376). -/
structure StepEntry where
  slot : Nat
  ident : W32
  gondola : W16
  retiring : Bool
  tokens : Nat
deriving DecidableEq, Repr, Inhabited

/-- A batcher (R372 to R379). `feeds` counts its FEEDs; `timeUp` is the number of the FEED since which the window time has passed (R374). -/
structure Batcher where
  on : Bool := false
  ring : W64 := 0
  timeUs : W32 := 0
  window : W16 := 0
  grouped : Bool := false
  stepNo : W32 := 0
  stepRunning : Bool := false
  entries : List StepEntry := []
  next : Option (W64 × W32 × W16 × Bool) := none
  blocked : Bool := true
  feeds : Nat := 0
  timeUp : Option Nat := none
  raised533 : Bool := false
  toSend : List MeshMsg := []
deriving DecidableEq, Repr, Inhabited

/-! ### Training contexts (R432 to R464, R478 to R490) -/

/-- The states of a training context, in the code order of R454. -/
inductive CtxState where
  | reducing | updating | applying | copying | voting | interrupted | faulted | winching
deriving DecidableEq, Repr, Inhabited

/-- The geometry of a shard region (R432, R446, R452). -/
structure Geometry where
  base : W64 := 0
  blocks : W32 := 0
  compact : Bool := false
  errTiles : W32 := 0
  landSlots : W16 := 0
  landed : W32 := 0
deriving DecidableEq, Repr, Inhabited

/-- A winch plan entry (R485). -/
structure PlanEntry where
  src : W64
  dst : W64
  count : W32
  pos : W32
deriving DecidableEq, Repr, Inhabited

/-- A winch tile on its way out (R486). -/
structure WinchOut where
  pos : W32
  dst : W64
  tile : TileData
deriving DecidableEq, Repr, Inhabited

/-- A re-shard held or running (R479 to R488). `left` is how many tiles have left their source slots, in plan order; `sent` are those
that went to other modules, `refused` those of them that were refused and wait to be sent again; `taken` counts incoming tiles stored, and `staged` names the slot that waits and the staging
slot for each tile held there; `oldGeo` is the region before the part completed (R490). -/
structure Reshard where
  ref : CmdRef
  epoch : W32
  spoolGen : W32
  plan : List PlanEntry
  incoming : W32
  staging : W64
  stagingSlots : W32
  geo : Geometry
  joining : Bool
  leaving : Bool
  left : Nat := 0
  sent : List WinchOut := []
  refused : List WinchOut := []
  taken : Nat := 0
  staged : List (W64 × Nat) := []
  raised264 : Bool := false
  partDone : Bool := false
  oldGeo : Option Geometry := none
deriving DecidableEq, Repr, Inhabited

/-- A training context (R432, R453 to R458). `awaitK` says that a newly named tandem has still to acknowledge K (R460); `restoring` are the
fetches in progress, oldest first, with version and tandem (R461). -/
structure Ctx where
  geo : Geometry
  version : W32
  hasVersion : Bool := true
  linkStep : W32
  st : CtxState := .reducing
  twoPass : Bool := false
  normBucket : W16 := 0
  tokenBucket : W16 := 0
  clip : W32 := 0
  ceil : W32 := 0
  verdict : Byte := 0
  kappa : W32 := 0
  sum : W64 := 0
  norm : W64 := 0
  rejected : W32 := 0
  committed : W32 := 0
  tandem : Option W32 := none
  tandemK : Bool := false
  tandemK1 : Bool := false
  heldGate : Option W64 := none
  landedAt : Option W32 := none
  awaitK : Bool := false
  restoring : List (CmdRef × W32 × W32) := []
  reshard : Option Reshard := none
deriving DecidableEq, Repr, Inhabited

/-- A tandem store (R459): per bank the version, the tiles stored and whether it is complete. -/
structure TandemStore where
  base : W64
  geo : Geometry
  mirrored : W32
  ver0 : W32 := 0
  ver1 : W32 := 0
  got0 : List Nat := []
  got1 : List Nat := []
deriving DecidableEq, Repr, Inhabited

/-- A substitution (R420, R494): from `step` on `serving` acts for `served`; `serving = served` ends it. -/
structure Subst where
  bucket : W16
  served : W32
  serving : W32
  step : W32
deriving DecidableEq, Repr, Inhabited

/-! ### Partitions (R115, R521 to R528, R556) -/

/-- The states of a partition, in the code order of TET_P_STATE (R537). -/
inductive PartState where
  | none | running | freezing | frozen | saving | restoring | deleting
deriving DecidableEq, Repr, Inhabited

/-- A held resize (R523); the at-drain self-test of a kite holds one without a command (R587). -/
structure Resize where
  ref : Option CmdRef
  kites : W32
deriving DecidableEq, Repr, Inhabited

/-- A partition: its kites and shares, its tether, batcher, training context, posting and lock. `snapNext` counts the snapshot records
written, `boundaryGen` names the generation whose boundary came last (R134); `since` is what the performance counters have counted since the last
readings (R561); `saveSegs` is the segment list of a SAVE (R531);
`restoring` keeps the kite mask and shares that a RESTORE asked for (R533). -/
structure Part where
  st : PartState := .none
  kites : W32 := 0
  hbm : Byte := 0
  ballast : Byte := 0
  link : Byte := 0
  resize : Option Resize := none
  accepted : Bool := false
  gen : W32 := 0
  loads : List Load := []
  phase : LoadPhase := .idle
  image : Mem := []
  imageLen : Nat := 0
  gens : List GenRec := []
  snapNext : Nat := 0
  boundaryGen : Option W32 := none
  freezeRef : Option CmdRef := none
  busyRef : Option CmdRef := none
  batcher : Batcher := {}
  ctx : Option Ctx := none
  stores : List TandemStore := []
  reserves : List W32 := []
  substs : List Subst := []
  postPort : Option W64 := none
  jobTag : W32 := 0
  policy : BitVec 2 := 1
  nearReq : Byte := 0
  nearEff : Byte := 0
  reads : Nat := 0
  poisonRead : Bool := false
  perf : SMap W64 := []
  ovf : Byte := 0
  csel : BitVec 3 := 0
  cntHi : W32 := 0
  locked : Bool := false
  ideReq : Bool := false
  share : W32 := 0
  readSlot : W64 := 0
  readNo : W32 := 0
  since : SMap W64 := []
  imageSet : Option (BitVec 128) := none
  saveSegs : List (W64 × W64) := []
  restoring : Option (W32 × Byte × Byte × Byte) := none
deriving DecidableEq, Repr, Inhabited

/-- What an unlisted entry reads as: a partition that does not exist. -/
def Part.blank : Part := {}

/-! ### Gondolas and reels (R353, R358, R382 to R385) -/

/-- The states of a descriptor, in the code order of R353. -/
inductive GonState where
  | free | mooring | moored | cut | stranded | withdrawing | releasing
deriving DecidableEq, Repr, Inhabited

/-- A version that a SWAP is bringing in (R367). -/
structure NewVersion where
  manifest : W64
  version : W32
  bindSet : BitVec 128
  base : BitVec 384
  digest : BitVec 384
  ref : CmdRef
deriving DecidableEq, Repr, Inhabited

/-- A gondola descriptor (R353). -/
structure Gondola where
  st : GonState := .free
  residency : Byte := 0
  policy : Byte := 0
  termKind : Byte := 0
  holder : Nat := 0
  hasRetiring : Bool := false
  cutByEvict : Bool := false
  env : W16 := 0
  version : W32 := 0
  retVersion : W32 := 0
  refs : Nat := 0
  retRefs : Nat := 0
  reel : W16 := 0
  termCount : W32 := 0
  progress : W32 := 0
  grace : W32 := 0
  manifest : W64 := 0
  retManifest : W64 := 0
  bindSet : BitVec 128 := 0
  baseDigest : BitVec 384 := 0
  digest : BitVec 384 := 0
  retDigest : BitVec 384 := 0
  served : W64 := 0
  ref : Option CmdRef := none
  swapTo : Option NewVersion := none
deriving DecidableEq, Repr, Inhabited

/-- What an unlisted entry reads as: a free descriptor. -/
def Gondola.blank : Gondola := {}

/-- A reel (R382 to R385): `times` are the append times of the retained ring slots, oldest first. -/
structure Reel where
  isOpen : Bool := false
  holder : Nat := 0
  base : W64 := 0
  slots : W32 := 0
  hours : W32 := 0
  nextNo : W64 := 0
  oldest : W64 := 0
  dropCount : W64 := 0
  times : List W64 := []
  lastEvent : Option W64 := none
deriving DecidableEq, Repr, Inhabited

/-- What an unlisted entry reads as: a closed reel. -/
def Reel.blank : Reel := {}

/-! ### Links (R392 to R431) -/

/-- The states of a port, in the code order of LNK_P_STATE (R395, R429). -/
inductive PortState where
  | training | authenticating | up | degraded | peerless | lost | held
deriving DecidableEq, Repr, Inhabited

/-- A frame as it is sent or kept for resending (R399). -/
structure Frame where
  ftype : Nat
  cls : Nat
  firstF : Bool := false
  lastF : Bool := false
  retry : Bool := false
  seq : W32 := 0
  ack : W32 := 0
  part : Byte := 0
  payload : List Byte := []
deriving DecidableEq, Repr, Inhabited

/-- The protection of one direction of a port between racks (R397, R548): the key, its salt, the codewords counted since it took effect, and the
count at which a renewed key and salt follow. Ports within the rack count codewords alone. -/
structure LinkKey where
  key : BitVec 256 := 0
  salt : W32 := 0
  count : Nat := 0
  next : Option (Nat × BitVec 256 × W32) := none
deriving DecidableEq, Repr, Inhabited

/-- A link port (R52, R393 to R404, R429, R547, R548). `reversed` and `inverted` are what training corrects. `auth` counts the Identity messages
taken: 0 to 2. `ownEph` is the private number of the share sent with them, and `peerEph` the peer's public share. `ctlWait` are control messages
that wait to be sent. `rxRed` and `rxTrf` gather the
frames of a unit, and `units` are the units assembled and not yet taken, each with its class and how many frames it fills. -/
structure Port where
  st : PortState := .training
  lanes : Byte := 0
  reversed : Bool := false
  inverted : Byte := 0
  status : W16 := 0
  peer : W32 := 0xffffffff
  ce : W32 := 0
  ue : W32 := 0
  retries : W32 := 0
  tagFail : W32 := 0
  hold : Bool := false
  ladderHold : Bool := false
  testHold : Bool := false
  wasAway : Bool := false
  auth : Nat := 0
  claimed : W32 := 0
  peerChain : List Byte := []
  peerShare : List Byte := []
  ownShare : List Byte := []
  ownEph : Nat := 0
  peerEph : List Byte := []
  keyed : Bool := false
  keys : Bool := false
  tx : LinkKey := {}
  rx : LinkKey := {}
  tagRun : Nat := 0
  txNext : W32 := 0
  rxLast : W32 := 0xffffffff
  unacked : List Frame := []
  ctlWait : List (List Byte) := []
  resends : Nat := 0
  creditRed : Nat := 256
  creditTrf : Nat := 256
  rxRed : List Byte := []
  rxTrf : List Byte := []
  units : List (Nat × Nat × List Byte) := []
deriving DecidableEq, Repr, Inhabited

/-- What an unlisted entry reads as: a link port never trained. -/
def Port.blank : Port := {}

/-- A unit that the module itself has to send and that waits for a port and its credits (R403, R404, R418). -/
structure WaitUnit where
  part : Nat
  cls : Nat
  dst : W32
  bytes : List Byte
deriving DecidableEq, Repr, Inhabited

/-- A bucket definition (R409 to R411). -/
structure BktDef where
  part : Nat
  mode : Nat
  epoch : W32
  first : W32
  chunks : W16
  lastElems : W16
  owner : W32
  x0 : Nat
  nx : Nat
  y0 : Nat
  ny : Nat
  boards : Byte
  sites : Byte
  landChan : Nat
  landRank : Nat
  landCount : Nat
deriving DecidableEq, Repr, Inhabited

/-- An input or a sum of a chunk (R412, R413, R416): `enc` is its hop encoding, or 5 for binary32; `key` is its place in the adding order
(R415); `flags` are overflow, flush and NaN, from bit 0; `port` and `hash` say where it was taken and under which hash (R425). -/
structure ChunkIn where
  key : Nat
  origin : W32
  enc : Nat
  count : Nat
  backup : Bool := false
  flags : BitVec 3 := 0
  selDigest : W64 := 0
  port : Option Nat := none
  hash : BitVec 128 := 0
  data : Mem
deriving DecidableEq, Repr, Inhabited

/-- The reduction of one chunk at one stage whose combining point `loc` this module serves (R414 to R423, R494): stages 1 to 4 are
board, rack, X and Y; stage 5 is a result to deliver and to pass on. `delivered` counts messages delivered. -/
structure Reduction where
  bucket : Nat
  step : W32
  chunk : Nat
  stage : Nat
  loc : W32
  inputs : List ChunkIn := []
  sum : Option ChunkIn := none
  sent : Bool := false
  delivered : Nat := 0
  done : Bool := false
deriving DecidableEq, Repr, Inhabited

/-- The digests and counts of one port for one bucket and step (R425, R426). -/
structure DigestRec where
  bucket : Nat
  step : W32
  port : Nat
  sentN : W32 := 0
  takenN : W32 := 0
  discN : W32 := 0
  sent : BitVec 128 := 0
  taken : BitVec 128 := 0
  disc : BitVec 128 := 0
deriving DecidableEq, Repr, Inhabited

/-- A choice entry (R426). -/
structure Choice where
  bucket : Nat
  step : W32
  origin : W32
  chunk : Nat
  backup : Bool
deriving DecidableEq, Repr, Inhabited

/-! ### Security (R539 to R560) -/

/-- How an SPDM request reaches the module (R565): MCTP over SMBus, MCTP over PCIe VDM, or the PF's DOE mailbox. -/
inductive SpdmPath where
  | smbus | vdm | doe
deriving DecidableEq, Repr, Inhabited

/-- An open SPDM session (R539, R545, R557, R565): whether its requester is the owner, how it came, and the secret its keys come from. -/
structure Session where
  owner : Bool := false
  path : SpdmPath := .smbus
  secret : BitVec 384 := 0
deriving DecidableEq, Repr, Inhabited

/-- A binding set (R549, R550). -/
structure Binding where
  ident : BitVec 128
  w : BitVec 256
  members : W32
  kcv : BitVec 128
deriving DecidableEq, Repr, Inhabited

/-- An envelope (R552, R553): its key and, if derived, its binding set. -/
structure Env where
  key : BitVec 512
  bindSet : Option (BitVec 128) := none
deriving DecidableEq, Repr, Inhabited

/-- A host-memory access in progress (R520, R531, R550, R555, R563). -/
inductive HostOp where
  | copyIn (ref : CmdRef) (part : Nat) (addr host : W64) (len : Nat)
  | copyOut (ref : CmdRef) (part : Nat) (addr host : W64) (len : Nat)
  | bind (ref : CmdRef) (host : W64) (len : Nat)
  | importTiles (ref : CmdRef) (part env : Nat) (host : W64) (segs tiles : Nat)
  | attest (ref : CmdRef) (host : W64) (report : List Byte)
deriving DecidableEq, Repr, Inhabited

/-- What the control section of a ripcord image carries (R529, R556, R559): the partition, what its cores keep beside their own sections, the
arrays disabled at the source, the mappings, descriptors, reels and buckets, and its tenant envelopes, each as index and wrapped key. -/
structure Control where
  part : Part
  arraysOff : BitVec 512
  cores : List Core
  extents : List (Nat × Extent)
  gondolas : List (Nat × Gondola)
  reels : List (Nat × Reel)
  buckets : List (Nat × List BktDef)
  envs : List (Nat × List Byte)
deriving DecidableEq, Repr, Inhabited

/-- A ripcord image as host memory returns it (R530), with what its control and core sections hold. -/
structure Image where
  bytes : List Byte
  control : Control
  cores : List Core
deriving DecidableEq, Repr, Inhabited

/-! ### Management (R75, R599 to R613) -/

/-- An error-log entry (R609). -/
structure LogEntry where
  number : W32
  wake : W16
  cls : Byte
  part : Byte
  status : W16
  time : BitVec 48
  detail : BitVec 384
deriving DecidableEq, Repr, Inhabited

/-- A unit that self-test covers (R96, R586). -/
inductive TestUnit where
  | array (core j : Nat) | vector (core : Nat) | coreStore (core : Nat) | instrStore (core : Nat) | router (core : Nat)
  | link (port : Nat) | tether (n : Nat) | spanCtl | security | hostIf
deriving DecidableEq, Repr, Inhabited

/-- A self-test in progress (R586 to R589). -/
structure SelfTest where
  ref : Option CmdRef
  kind : Nat
  unit : Nat
  full : Bool
  atDrain : Bool
deriving DecidableEq, Repr, Inhabited

/-- Where a sensor's value stands against its fixed thresholds (R603). -/
inductive SensorLevel where
  | lowerCritical | lowerWarning | normal | upperWarning | upperCritical
deriving DecidableEq, Repr, Inhabited

/-- What the module gives to the world outside it. An MCTP message is given as the packets it travels in (R597), and a write to host memory over a
Secure stream as what the stream carries (R557). -/
inductive Out where
  | msix (fn vec : Nat)
  | hostWrite (fn : Nat) (addr : W64) (data : Mem) (len : Nat)
  | cplWrite (fn ring index : Nat) (e : CplEntry)
  | frame (port : Nat) (head payload check : List Byte)
  | pldmEvent (e : LogEntry)
  | pldmReady
  | pldm (code : Nat) (status : W16)
  | activate (needsReset : Bool)
  | pldmData (kind code : Nat) (data : List Byte)
  | mctp (packets : List (List Byte))
  | vendor (packets : List (List Byte))
  | spdm (code : Nat) (ok : Bool) (result : List Byte)
  | config (fn : Nat) (startupWord : W32)
  | arrays (enabled : Nat) (disabled : BitVec 512)
  | ideKm (fn code : Nat) (ok : Bool)
  | ideWrite (fn : Nat) (addr : W64) (len : Nat) (cipher tag : List Byte)
  | sensor (id value : Nat) (level : SensorLevel)
deriving DecidableEq, Repr, Inhabited

end Sys2Proof.Machine
end

