-- ==== Sys2Proof/Syntax.lean ====
section
/-! DEFINITION. The commands and events the module takes from outside itself, one constructor per row of
spec/opcode_table.json, and the shapes of their operands.

A host command's row names the ring whose oldest fetched command it starts (R510): the 64 bytes come with COMMAND_FETCH.
A bundle operation's row names the core whose next bundle holds the operation. An event's row carries what the
surroundings give: a voltage, a frame as decoded, the bytes host memory returned. -/

namespace Sys2Proof

open Sys2Proof.Machine

/-- What a PCIe configuration or MSI-X table access does (R80, R518). -/
inductive ConfigOp where
  | read
  | msixEnable (on : Bool)
  | msixMask (vec : Nat)
deriving DecidableEq, Repr

/-- What the patrol met (R321): the start or end of a pass, the errors of a tile's codewords, or a codeword of unmapped storage. -/
inductive PatrolEvent where
  | passStart
  | passEnd
  | corrected (tier2 : Bool)
  | tile (part slot : Nat) (errs : CodeErrs)
  | uncorrectableUnmapped
deriving DecidableEq, Repr

/-- An error of a codeword as it comes over a port: the lane, by its number after the reversal of R52, the place of the symbol among those of the
codeword on that lane, and its difference (R393). -/
structure LaneErr where
  lane : Nat
  index : Nat
  diff : BitVec 10
deriving DecidableEq, Repr

/-- A codeword slot on a port (R393, R397 to R400): its symbol errors, and the frame's bytes as they were sent: 16 of header, 608 of payload, 16 of
check. -/
structure FrameRx where
  errs : List LaneErr := []
  head : List Byte
  payload : List Byte
  check : List Byte
deriving DecidableEq, Repr

/-- What training finds of a lane of a port (R52, R53): whether it trains, which lane of the peer's port it meets, and whether its polarity is
inverted. -/
structure LaneIn where
  trained : Bool := false
  peer : Nat := 0
  inverted : Bool := false
deriving DecidableEq, Repr, Inhabited

/-- The ring of a host command that reads tiles, and the errors of the codewords of the tiles it reads, by slot (R317, R318). -/
structure ReadCmd where
  ring : RingId
  errs : List (Nat × CodeErrs) := []
deriving DecidableEq, Repr

/-- A spool image that a tether has read: of which partition, and the errors of the codewords of its tiles, by slot (R121, R318). -/
structure SpoolRead where
  part : Nat
  errs : List (Nat × CodeErrs) := []
deriving DecidableEq, Repr

/-- The operation of a core that completes, by its place among those in flight, and the lines of the core's store that have met an uncorrectable
error by then (R110, R160). -/
structure OpEnd where
  place : Nat
  bad : List Nat := []
deriving DecidableEq, Repr

/-- Whose input a refusal is about, and the module that it is for (R402, R422). -/
structure RefusedTo where
  origin : W32
  dst : W32
deriving DecidableEq, Repr

/-- How the writing of an image ended, and the errors of the codewords of its tiles as they were read, by slot (R318, R531). -/
structure ImageWritten where
  ok : Bool
  errs : List (Nat × CodeErrs) := []
deriving DecidableEq, Repr

/-- A key for the stream of a function (R557). -/
structure StreamKey where
  fn : Nat
  key : BitVec 256
deriving DecidableEq, Repr

/-- What an access to host memory returned, none for an error, and the errors of the codewords of the tiles it read, by slot (R318, R520). -/
structure HostReturn where
  bytes : Option (List Byte)
  errs : List (Nat × CodeErrs) := []
deriving DecidableEq, Repr

/-- A chunk unit (R412, R413). `dst` is the module that its addressed route leads to, which the links know and no field of the unit names
(assumption 90). -/
structure ChunkUnit where
  bucket : Nat
  encoding : Nat
  stage : Nat
  epoch : W32
  step : W32
  chunk : Nat
  count : Nat
  origin : W32
  backup : Bool
  flags : BitVec 3
  selDigest : W64
  payload : Mem
  dst : W32 := 0
deriving DecidableEq, Repr

/-- A transfer or gather unit (R406, R408): `dst` is the destination module of a transfer, `origin` the sender's position, `tag` its job tag;
`core` is a core index, or for a gather a rank. -/
structure TransferUnit where
  gather : Bool
  origin : W32
  tag : W32
  dst : W32
  part : Nat
  core : Nat
  chan : Nat
  bucket : Nat
  word0 : W32
  word1 : W64
  tile : TileData
deriving DecidableEq, Repr

/-- A winch tile as it arrives (R486, R487). -/
structure WinchTile where
  port : Nat
  part : Nat
  pos : W32
  tag : W32
  epoch : W32
  version : W32
  linkStep : W32
  dst : W64
  tile : TileData
deriving DecidableEq, Repr

/-- What a second gave that no counter of a partition holds (R561): the steps possible on its arrays and its vector engines, and the module's input
power in watts. -/
structure Readings where
  arrayPossible : Nat := 0
  vectorPossible : Nat := 0
  watts : Nat := 0
deriving DecidableEq, Repr

/-- How an MCTP message comes: over SMBus, to an address, or over PCIe VDM (R597). -/
inductive MctpPath where
  | smbus (address : BitVec 7)
  | vdm
deriving DecidableEq, Repr

/-- An MCTP request that has no row of its own (R597 to R600): MCTP control, PLDM by type and command, a vendor-defined command by code, or a
message type that the module does not serve. -/
inductive MctpReq where
  | control (cmd : Nat)
  | pldm (kind cmd : Nat)
  | vendor (code : Nat)
  | other (kind : Nat)
deriving DecidableEq, Repr

/-- The SPDM requests of R565 that have no row of their own: a challenge carries the requester's nonce, a key exchange its share and its chain, empty
without mutual authentication. -/
inductive SpdmReq where
  | getVersion
  | getCapabilities
  | negotiateAlgorithms
  | getCertificate (slot : Nat)
  | challenge (slot : Nat) (nonce : List Byte)
  | getMeasurements (index : Nat)
  | keyExchange (path : SpdmPath) (share chain : List Byte)
  | endSession (k : Nat)
  | badAuth
deriving DecidableEq, Repr


/-- The commands and events the module takes: one constructor per row of spec/opcode_table.json, in its order. -/
inductive Instr where
  /-- STANDBY_ON (R77). -/
  | standbyOn (cv : W16)
  /-- MANAGEMENT_WAKE (R77). -/
  | managementWake (site board : BitVec 3)
  /-- STANDBY_OFF (R104). -/
  | standbyOff (cv : W16)
  /-- MAIN_SWITCH_CLOSE (R78). -/
  | mainSwitchClose (cv : W16) (mated : Bool)
  /-- MAIN_CONVERTERS_START (R42). -/
  | mainConvertersStart (cv bulk : W16)
  /-- RAILS_SETTLED (R79). -/
  | railsSettled
  /-- RAIL_SETTLE_TIMEOUT (R79). -/
  | railSettleTimeout
  /-- MAIN_CUT_OFF (R105). -/
  | mainCutOff (cv : W16)
  /-- OVERVOLTAGE_CUT_OFF (R105). -/
  | overvoltageCutOff (cv : W16)
  /-- INPUT_RANGE_LOW (R41). -/
  | inputRangeLow (cv : W16)
  /-- THERMAL_TRIP (R38). -/
  | thermalTrip (core : Nat) (temp : Byte)
  /-- OVERCURRENT_TRIP_SLOW (R43). -/
  | overcurrentTripSlow
  /-- OVERCURRENT_TRIP_FAST (R43). -/
  | overcurrentTripFast
  /-- MATE_OK_BREAK (R47). -/
  | mateOkBreak
  /-- MOD_RESET_FALL (R104). -/
  | modResetFall
  /-- MOD_RESET_RISE (R63). -/
  | modResetRise (lowUs : W32)
  /-- PERST_ASSERT (R56). -/
  | perstAssert
  /-- PERST_RELEASE (R80). -/
  | perstRelease
  /-- FLASH_HOLD_ASSERT (R60). -/
  | flashHoldAssert
  /-- FLASH_HOLD_RELEASE (R93). -/
  | flashHoldRelease
  /-- FLASH_READ_COMPLETE (R92). -/
  | flashReadComplete (ok : Bool)
  /-- FUSE_MAP_READ (R94). -/
  | fuseMapRead (readable : Bool)
  /-- STARTUP_SELF_TEST_COMPLETE (R96). -/
  | startupSelfTestComplete (fails : List TestUnit)
  /-- MEMORY_STAGE_COMPLETE (R99). -/
  | memoryStageComplete (stack : Option Nat) (ballast : Bool)
  /-- PORT_PEERLESS (R100). -/
  | portPeerless (port : Nat)
  /-- LINK_STAGE_END (R100). -/
  | linkStageEnd
  /-- LINK_STAGE_TIMEOUT (R100). -/
  | linkStageTimeout
  /-- CONFIG_REQUEST (R80). -/
  | configRequest (fn : Nat) (op : ConfigOp)
  /-- HOST_LINK_ACTIVE (R536). -/
  | hostLinkActive (speed : BitVec 4) (width : BitVec 3) (flit : Bool)
  /-- HOST_LINK_DOWN (R536). -/
  | hostLinkDown
  /-- FUNCTION_LEVEL_RESET (R507). -/
  | functionLevelReset (fn : Nat)
  /-- BUS_MASTER_DISABLE (R507). -/
  | busMasterDisable (fn : Nat)
  /-- BUS_MASTER_ENABLE (R507). -/
  | busMasterEnable (fn : Nat)
  /-- MSIX_UNMASK (R518). -/
  | msixUnmask (fn vec : Nat)
  /-- HIF_DB_CMD (R510). -/
  | hifDbCmd (o : RingId) (value : W32)
  /-- HIF_DB_CPL (R513). -/
  | hifDbCpl (o : RingId) (value : W32)
  /-- RING_ENABLE (R509). -/
  | ringEnable (fn : Nat) (value : W32)
  /-- RING_DISABLE (R509). -/
  | ringDisable (fn : Nat) (value : W32)
  /-- COMMAND_FETCH (R510). -/
  | commandFetch (o : RingId) (cmd : BitVec 512)
  /-- COALESCE_TIMER_EXPIRY (R518). -/
  | coalesceTimerExpiry (o : RingId)
  /-- REGISTER_WRITE (R24). -/
  | registerWrite (fn : Nat) (offset value : W32)
  /-- RECAL (R591). -/
  | recal (value : W32)
  /-- PORT_HOLD (R395). -/
  | portHold (value : W32)
  /-- PORT_UNHOLD (R395). -/
  | portUnhold (value : W32)
  /-- MGT_P_CLR (R613). -/
  | mgtPClr (value : W32)
  /-- MGT_P_CNT_LO_READ (R606). -/
  | mgtPCntLoRead
  /-- HOST_IN (R520). -/
  | hostIn (o : RingId)
  /-- HOST_OUT (R520). -/
  | hostOut (o : RingId)
  /-- LOAD (R123). -/
  | load (o : RingId)
  /-- SPOOL_READ_COMPLETE (R121). -/
  | spoolReadComplete (read : SpoolRead)
  /-- BROADCAST_END (R124). -/
  | broadcastEnd (part : Nat)
  /-- ABORT (R147). -/
  | abort (o : RingId)
  /-- STOP_NOW (R151). -/
  | stopNow (o : RingId)
  /-- STOP_MARK_HALT (R149). -/
  | stopMarkHalt (core : Nat)
  /-- SNAPSHOT_WRITE (R150). -/
  | snapshotWrite (part : Nat)
  /-- NOP (R156). -/
  | nop (core : Nat)
  /-- REP (R171). -/
  | rep (core : Nat)
  /-- BR (R168). -/
  | br (core : Nat)
  /-- JMP (R168). -/
  | jmp (core : Nat)
  /-- WAIT (R169). -/
  | wait (core : Nat)
  /-- SWAP_BUNDLE (R130). -/
  | swapBundle (core : Nat)
  /-- SSET (R177). -/
  | sset (core : Nat)
  /-- SALU (R178). -/
  | salu (core : Nat)
  /-- SALI (R178). -/
  | sali (core : Nat)
  /-- SLD (R181). -/
  | sld (core : Nat)
  /-- SST (R181). -/
  | sst (core : Nat)
  /-- VLD (R181). -/
  | vld (core : Nat)
  /-- VST (R181). -/
  | vst (core : Nat)
  /-- PLD (R182). -/
  | pld (core : Nat)
  /-- SETA (R164). -/
  | seta (core : Nat)
  /-- GETA (R177). -/
  | geta (core : Nat)
  /-- SETC (R177). -/
  | setc (core : Nat)
  /-- GETC (R177). -/
  | getc (core : Nat)
  /-- RDX (R179). -/
  | rdx (core : Nat)
  /-- CLRF (R180). -/
  | clrf (core : Nat)
  /-- TDEF (R183). -/
  | tdef (core : Nat)
  /-- TSPN (R183). -/
  | tspn (core : Nat)
  /-- TCOPY (R183). -/
  | tcopy (core : Nat)
  /-- TINV (R183). -/
  | tinv (core : Nat)
  /-- SEND (R185). -/
  | send (core : Nat)
  /-- RECV (R185). -/
  | recv (core : Nat)
  /-- CREDIT_GRANT (R140). -/
  | creditGrant (src dst : Nat)
  /-- MESSAGE_ARRIVE (R141). -/
  | messageArrive (src dst chan : Nat)
  /-- OPERATION_COMPLETE (R160). -/
  | operationComplete (core : Nat) (op : OpEnd)
  /-- VADD (R188). -/
  | vadd (core : Nat)
  /-- VSUB (R188). -/
  | vsub (core : Nat)
  /-- VMUL (R188). -/
  | vmul (core : Nat)
  /-- VFMA (R188). -/
  | vfma (core : Nat)
  /-- VDIV (R202). -/
  | vdiv (core : Nat)
  /-- VSQRT (R202). -/
  | vsqrt (core : Nat)
  /-- VMIN (R202). -/
  | vmin (core : Nat)
  /-- VMAX (R202). -/
  | vmax (core : Nat)
  /-- VCMP (R188). -/
  | vcmp (core : Nat)
  /-- VSEL (R188). -/
  | vsel (core : Nat)
  /-- VBCS (R188). -/
  | vbcs (core : Nat)
  /-- VRED (R263). -/
  | vred (core : Nat)
  /-- VCVT (R189). -/
  | vcvt (core : Nat)
  /-- VFUN (R269). -/
  | vfun (core : Nat)
  /-- VRAND (R275). -/
  | vrand (core : Nat)
  /-- VUPD (R442). -/
  | vupd (core : Nat)
  /-- VRAND_RESEED (R277). -/
  | vrandReseed (core : Nat)
  /-- CORE_ENTROPY_FAIL (R279). -/
  | coreEntropyFail (core : Nat)
  /-- CORE_ENTROPY_RECOVER (R279). -/
  | coreEntropyRecover (core : Nat)
  /-- BRIDLE (R232). -/
  | bridle (core : Nat)
  /-- STREAM (R234). -/
  | stream (core : Nat)
  /-- DRAIN (R240). -/
  | drain (core : Nat)
  /-- BRIDLE_START (R248). -/
  | bridleStart (core arr : Nat)
  /-- BRIDLE_COMPLETE (R248). -/
  | bridleComplete (core arr : Nat)
  /-- STREAM_START (R248). -/
  | streamStart (core arr : Nat)
  /-- STREAM_COMPLETE (R249). -/
  | streamComplete (core arr : Nat)
  /-- PRODUCTS_LANDED (R248). -/
  | productsLanded (core arr : Nat)
  /-- DRAIN_COMPLETE (R248). -/
  | drainComplete (core arr : Nat)
  /-- MAP (R293). -/
  | map (o : RingId)
  /-- UNMAP (R324). -/
  | unmap (o : RingId)
  /-- MODE (R310). -/
  | mode (cmd : ReadCmd)
  /-- HINT (R296). -/
  | hint (cmd : ReadCmd)
  /-- SCRUB (R322). -/
  | scrub (o : RingId)
  /-- REHOME (R316). -/
  | rehome (o : RingId)
  /-- SPAN_WRITE_ACCEPT (R300). -/
  | spanWriteAccept (core k : Nat)
  /-- SPAN_READ_COMPLETE (R289). -/
  | spanReadComplete (core k : Nat) (cw : CodeErrs)
  /-- MIGRATION_COMPLETE (R301). -/
  | migrationComplete (part slot : Nat) (cw : CodeErrs)
  /-- LET_SINK_TIMEOUT (R296). -/
  | letSinkTimeout (part slot : Nat)
  /-- USE_COUNT_HALVING (R296). -/
  | useCountHalving (part : Nat)
  /-- PATROL (R321). -/
  | patrol (ev : PatrolEvent)
  /-- IMBALANCE_RAISE (R315). -/
  | imbalanceRaise (stack : Nat) (single : Bool)
  /-- IMBALANCE_CLEAR (R315). -/
  | imbalanceClear
  /-- STACK_THROTTLE (R314). -/
  | stackThrottle (stack : Nat)
  /-- SEQ_OPEN (R333). -/
  | seqOpen (cmd : ReadCmd)
  /-- SEQ_CLOSE (R335). -/
  | seqClose (o : RingId)
  /-- SEQUENCE_SCRUB_COMPLETE (R335). -/
  | sequenceScrubComplete (slot : Nat)
  /-- MOOR (R356). -/
  | moor (cmd : ReadCmd)
  /-- MOOR_COMPLETE (R357). -/
  | moorComplete (g : Nat)
  /-- SWAP (R367). -/
  | swap (cmd : ReadCmd)
  /-- EVICT (R358). -/
  | evict (o : RingId)
  /-- REVOKE (R358). -/
  | revoke (o : RingId)
  /-- BASE_SET (R369). -/
  | baseSet (o : RingId)
  /-- GONDOLA_RELEASE_COMPLETE (R364). -/
  | gondolaReleaseComplete (g : Nat)
  /-- RETIRING_RELEASE (R368). -/
  | retiringRelease (g : Nat)
  /-- REEL_OPEN (R382). -/
  | reelOpen (o : RingId)
  /-- REEL_CLOSE (R386). -/
  | reelClose (o : RingId)
  /-- REEL_APPEND (R384). -/
  | reelAppend (core k : Nat)
  /-- FEED (R373). -/
  | feed (o : RingId)
  /-- BATCH_CFG (R372). -/
  | batchCfg (o : RingId)
  /-- WINDOW_TIME_EXPIRY (R374). -/
  | windowTimeExpiry (part : Nat)
  /-- STEP_START (R376). -/
  | stepStart (part : Nat)
  /-- STEP_DONE_WRITE (R378). -/
  | stepDoneWrite (core k : Nat)
  /-- POST_WRITE (R405). -/
  | postWrite (core k : Nat)
  /-- FRAME_RECEIVE (R400). -/
  | frameReceive (port : Nat) (rx : FrameRx)
  /-- RETRY_TIMEOUT (R400). -/
  | retryTimeout (port : Nat)
  /-- IDLE_FRAME_TIMER (R401). -/
  | idleFrameTimer (port : Nat)
  /-- LINK_WATCHDOG_EXPIRY (R401). -/
  | linkWatchdogExpiry (port : Nat)
  /-- SIGNAL_DETECT (R395). -/
  | signalDetect (port : Nat)
  /-- PORT_TRAINED (R395). -/
  | portTrained (port : Nat) (found : List LaneIn) (peer : W32)
  /-- IDENTITY_MESSAGE (R547). -/
  | identityMessage (port : Nat) (kind : Nat) (body : List Byte)
  /-- AUTH_TIMEOUT (R547). -/
  | authTimeout (port : Nat)
  /-- CREDIT_MESSAGE (R404). -/
  | creditMessage (port cls freed : Nat)
  /-- KEY_RENEWAL (R397). -/
  | keyRenewal (port : Nat)
  /-- REKEY_MESSAGE (R548). -/
  | rekeyMessage (port : Nat) (share : List Byte) (switchCount : W64)
  /-- REFUSAL_MESSAGE (R402). -/
  | refusalMessage (port : Nat) (status : W16) (bucket : Nat) (step : W32) (refused : RefusedTo)
  /-- CHUNK_RECEIVE (R416). -/
  | chunkReceive (port : Nat) (unit : ChunkUnit)
  /-- SUM_SEND (R418). -/
  | sumSend (bucket : Nat) (step : W32) (chunk stage : Nat)
  /-- CHUNK_DELIVER (R417). -/
  | chunkDeliver (bucket : Nat) (step : W32) (chunk : Nat)
  /-- TRANSFER_DELIVER (R408). -/
  | transferDeliver (t : TransferUnit)
  /-- BUCKET_DEF_RETIRE (R409). -/
  | bucketDefRetire (bucket : Nat)
  /-- BKT_DEF (R409). -/
  | bktDef (o : RingId)
  /-- BKT_DEL (R409). -/
  | bktDel (o : RingId)
  /-- BKT_SUBST (R420). -/
  | bktSubst (o : RingId)
  /-- POST_CFG (R405). -/
  | postCfg (o : RingId)
  /-- DIGEST_READ (R426). -/
  | digestRead (o : RingId)
  /-- TRAIN_CFG (R453). -/
  | trainCfg (o : RingId)
  /-- TANDEM_CFG (R460). -/
  | tandemCfg (o : RingId)
  /-- STEP_REDO (R463). -/
  | stepRedo (o : RingId)
  /-- STEP_REVERT (R464). -/
  | stepRevert (o : RingId)
  /-- TANDEM_RESTORE (R461). -/
  | tandemRestore (o : RingId)
  /-- UPDATE_DONE_MARK (R455). -/
  | updateDoneMark (core k : Nat)
  /-- TANDEM_COPY_RECEIVE (R459). -/
  | tandemCopyReceive (part : Nat) (pos tag version : W32) (index : Nat) (tile : TileData)
  /-- TANDEM_ACKNOWLEDGE (R456). -/
  | tandemAcknowledge (part : Nat) (pos version : W32)
  /-- RESHARD (R480). -/
  | reshard (cmd : ReadCmd)
  /-- RESERVE_SET (R492). -/
  | reserveSet (o : RingId)
  /-- WINCH_SEND (R486). -/
  | winchSend (part : Nat)
  /-- WINCH_TILE_ARRIVE (R487). -/
  | winchTileArrive (w : WinchTile)
  /-- WINCH_RESEND (R487). -/
  | winchResend (part : Nat)
  /-- RESHARD_COMPLETE (R482). -/
  | reshardComplete (part : Nat)
  /-- PART_CREATE (R521). -/
  | partCreate (o : RingId)
  /-- PART_RESIZE (R523). -/
  | partResize (o : RingId)
  /-- PART_DELETE (R524). -/
  | partDelete (o : RingId)
  /-- FREEZE (R526). -/
  | freeze (o : RingId)
  /-- FREEZE_COMPLETE (R526). -/
  | freezeComplete (part : Nat)
  /-- SAVE (R531). -/
  | save (o : RingId) (segs : List (W64 × W64))
  /-- SAVE_COMPLETE (R525). -/
  | saveComplete (part : Nat) (result : ImageWritten)
  /-- THAW (R532). -/
  | thaw (o : RingId)
  /-- RESTORE (R533). -/
  | restore (o : RingId)
  /-- RESTORE_COMPLETE (R533). -/
  | restoreComplete (part : Nat) (img : Option Image)
  /-- BIND (R550). -/
  | bind (o : RingId)
  /-- UNBIND (R551). -/
  | unbind (o : RingId)
  /-- ENV_CREATE (R553). -/
  | envCreate (o : RingId)
  /-- ENV_BIND (R553). -/
  | envBind (o : RingId)
  /-- ENV_DESTROY (R553). -/
  | envDestroy (o : RingId)
  /-- IMPORT (R555). -/
  | importTiles (o : RingId)
  /-- LOCK (R556). -/
  | lock (o : RingId)
  /-- IMAGE_BIND (R559). -/
  | imageBind (o : RingId)
  /-- ATTEST (R563). -/
  | attest (o : RingId)
  /-- READINGS_WRITE (R561). -/
  | readingsWrite (part : Nat) (readings : Readings)
  /-- SEC_ENTROPY_FAIL (R542). -/
  | secEntropyFail
  /-- OWNER_PROVISION (R545). -/
  | ownerProvision (smbus : Bool) (digest : BitVec 384)
  /-- FLOOR_ADVANCE (R545). -/
  | floorAdvance (floor : Nat)
  /-- SET_CERTIFICATE (R546). -/
  | setCertificate (slot : Nat) (chain : List Byte)
  /-- SPDM_REQUEST (R565). -/
  | spdmRequest (req : SpdmReq)
  /-- QUERY (R557). -/
  | query (fn : Nat)
  /-- KEY_PROG (R557). -/
  | keyProg (key : StreamKey)
  /-- K_SET_GO (R557). -/
  | kSetGo (fn : Nat)
  /-- K_SET_STOP (R557). -/
  | kSetStop (fn : Nat)
  /-- IDE_LEAVE_SECURE (R558). -/
  | ideLeaveSecure (fn : Nat)
  /-- LADDER (R579). -/
  | ladder (o : RingId)
  /-- LADDER_COMPLETE (R579). -/
  | ladderComplete
  /-- SELFTEST (R586). -/
  | selftest (o : RingId)
  /-- SELFTEST_COMPLETE (R589). -/
  | selftestComplete (sig expd : W64) (fails : List TestUnit)
  /-- SUPPLY_STEP (R571). -/
  | supplyStep (core : Nat) (up : Bool)
  /-- CORE_HOT (R575). -/
  | coreHot (core : Nat) (temp : Byte)
  /-- CEILING_STEP (R575). -/
  | ceilingStep (core : Nat) (temp : Byte)
  /-- CORE_HOLD (R575). -/
  | coreHold (core : Nat) (temp : Byte)
  /-- CORE_HOLD_RELEASE (R575). -/
  | coreHoldRelease (core : Nat) (temp : Byte)
  /-- ENGINE_GATE (R578). -/
  | engineGate (core eng : Nat)
  /-- HBM_CALIBRATION (R590). -/
  | hbmCalibration (stack : Nat)
  /-- MCTP_CONTROL (R597). -/
  | mctpControl (path : MctpPath) (req : MctpReq) (eid : Byte)
  /-- GET_STARTUP (R599). -/
  | getStartup
  /-- WAKE (R599). -/
  | wake
  /-- RESET (R599). -/
  | reset
  /-- MGMT_LADDER (R599). -/
  | mgmtLadder (body : W32)
  /-- MGMT_SELFTEST (R599). -/
  | mgmtSelftest (body : W32)
  /-- LOG_READ (R600). -/
  | logRead (first : W32) (count : Byte)
  /-- COUNTER_CLEAR (R599). -/
  | counterClear
  /-- REG_READ (R599). -/
  | regRead (offset : W32)
  /-- GET_SENSOR_READING (R603). -/
  | getSensorReading (ident : Nat)
  /-- SET_EVENT_RECEIVER (R611). -/
  | setEventReceiver (eid : Byte)
  /-- EVENT_RESEND (R611). -/
  | eventResend (number : W32)
  /-- REQUEST_UPDATE (R601). -/
  | requestUpdate
  /-- FIRMWARE_DATA (R601). -/
  | firmwareData (offset : Nat) (data : List Byte)
  /-- TRANSFER_COMPLETE (R602). -/
  | transferComplete
  /-- VERIFY_COMPLETE (R602). -/
  | verifyComplete
  /-- ACTIVATE_FIRMWARE (R602). -/
  | activateFirmware
  /-- SWAP_COMPLETE (R367). -/
  | swapComplete (g : Nat)
  /-- SCRUB_COMPLETE (R324). -/
  | scrubComplete (job : Nat)
  /-- HOST_MEMORY_ACCESS_COMPLETE (R520). -/
  | hostMemoryAccessComplete (k : Nat) (result : HostReturn)
  /-- TANDEM_RESTORE_COMPLETE (R461). -/
  | tandemRestoreComplete (part : Nat) (tiles : Option (List TileData))
  /-- STACK_THROTTLE_END (R314). -/
  | stackThrottleEnd (stack : Nat)
  /-- SEC_ENTROPY_RECOVER (R542). -/
  | secEntropyRecover
  /-- EVENT_ACKNOWLEDGE (R611). -/
  | eventAcknowledge (number : W32)
deriving DecidableEq, Repr

end Sys2Proof
end

