-- ==== Sys2Proof/Decode.lean ====
section
/-! DEFINITION. The commands that words spell by the opcode table's bits. The table gives bits for no row: a command reaches
the module as a register access, an entry of a command ring, a bundle or an event, and none of these is a word of the
table. -/

namespace Sys2Proof

/-- The command that a word spells by the bits of spec/opcode_table.json: none, for the table gives no row any bits. -/
def decodeTableWord (_nbits _w : Nat) : Option Instr := none

end Sys2Proof
end

