-- ==== Sys2Proof/Machine/Bundle.lean ====
section
/-! DEFINITION. The bundle: its four slots, their operations and fields, when it is invalid, and the registers it reads and
writes (R155 to R192, R235, R440, R617). -/

namespace Sys2Proof.Machine

/-- The control slot (R167). -/
inductive Ctl where
  | nop
  | rep (c n sm : Nat)
  | br (sr cond target : Nat)
  | jmp (target : Nat)
  | wait (t what : Nat)
  | swap
deriving DecidableEq, Repr

/-- The move slot (R177). -/
inductive Mov where
  | nop
  | sset (d : Nat) (imm : W64)
  | salu (d a b f : Nat)
  | sali (d a f : Nat) (imm : W64)
  | sld (d an sb imm : Nat)
  | sst (x an sb imm : Nat)
  | vld (d an sb imm : Nat)
  | vst (x an sb imm : Nat)
  | pld (d imm : Nat)
  | seta (d v st w : Nat)
  | geta (d an part : Nat)
  | setc (d v : Nat)
  | getc (d n : Nat)
  | rdx (d src : Nat)
  | clrf
  | tdef (d an sb fmt side : Nat)
  | tspn (d s fmt side : Nat)
  | tcopy (d s : Nat)
  | tinv (t : Nat)
  | send (dst u0 u1 t : Nat) (pay : Bool) (hint : Nat)
  | recv (k u0 u1 meta_ t : Nat)
deriving DecidableEq, Repr

/-- The vector operations (R188). -/
inductive VOp where
  | nop | add | sub | mul | fma | div | sqrt | min | max | cmp | sel | bcs | red | cvt | func | rand | upd
deriving DecidableEq, Repr

/-- The vector slot (R187). -/
structure Vec where
  op : VOp
  w : Bool
  d : Nat
  a : Nat
  b : Nat
  c : Nat
  rnd : Nat
  s : Nat
  fn : Nat
deriving DecidableEq, Repr

/-- The array operations (R190). -/
inductive AOp where
  | nop | bridle | stream | drain
deriving DecidableEq, Repr

/-- The array slot (R190, R233). -/
structure Arr where
  op : AOp
  arr : Bool
  t : Nat
  fmt : Nat
  kind : Nat
  first : Bool
  last : Bool
  rs : Bool
  rq : Bool
  shape : Nat
deriving DecidableEq, Repr

/-- A bundle that is not invalid (R155, R157). -/
structure Bundle where
  ctl : Ctl
  mov : Mov
  vec : Vec
  arr : Arr
deriving DecidableEq, Repr

/-- A field `[lo + n - 1 : lo]` of a slot. -/
def fld (x lo n : Nat) : Nat := x / 2 ^ lo % 2 ^ n

/-- `some x` where a condition holds. -/
def orInvalid {α : Type} (ok : Bool) (x : α) : Option α := if ok then some x else none

/-- An `n`-bit immediate, sign-extended (R177). -/
def signed (n x : Nat) : W64 := (BitVec.ofNat n x).signExtend 64

/-- The control slot, [127:96] (R167, R168, R171). -/
def decodeCtl (x : Nat) : Option Ctl :=
  match fld x 26 6 with
  | 0 => orInvalid (x == 0) .nop
  | 1 => orInvalid (fld x 0 6 == 0 && decide (1 ≤ fld x 11 12) && decide (fld x 11 12 ≤ 3839))
      (.rep (fld x 23 3) (fld x 11 12) (fld x 6 5))
  | 2 => orInvalid (fld x 0 6 == 0 && decide (fld x 18 3 ≤ 5)) (.br (fld x 21 5) (fld x 18 3) (fld x 6 12))
  | 3 => orInvalid (fld x 0 6 == 0 && fld x 18 8 == 0) (.jmp (fld x 6 12))
  | 4 => orInvalid (fld x 0 20 == 0) (.wait (fld x 22 4) (fld x 20 2))
  | 5 => orInvalid (fld x 0 26 == 0) .swap
  | _ => none

/-- The sources `rdx` reads (R179). -/
def rdxSource (src : Nat) : Bool := decide (src ≤ 7) || (decide (0x10 ≤ src) && decide (src ≤ 0x1f))

/-- The function codes of `sali` (R178). -/
def saliCode (f : Nat) : Bool := decide (f ≤ 12) && f != 1 && f != 2

/-- The move slot, [95:64] (R177). -/
def decodeMov (x : Nat) : Option Mov :=
  match fld x 26 6 with
  | 0x00 => orInvalid (x == 0) .nop
  | 0x01 => some (.sset (fld x 21 5) (signed 21 (fld x 0 21)))
  | 0x02 => orInvalid (fld x 0 6 == 0 && decide (fld x 6 5 ≤ 13)) (.salu (fld x 21 5) (fld x 16 5) (fld x 11 5) (fld x 6 5))
  | 0x03 => orInvalid (saliCode (fld x 12 4)) (.sali (fld x 21 5) (fld x 16 5) (fld x 12 4) (signed 12 (fld x 0 12)))
  | 0x04 => some (.sld (fld x 21 5) (fld x 16 5) (fld x 11 5) (fld x 0 11))
  | 0x05 => some (.sst (fld x 21 5) (fld x 16 5) (fld x 11 5) (fld x 0 11))
  | 0x06 => orInvalid (fld x 25 1 == 0) (.vld (fld x 21 4) (fld x 16 5) (fld x 11 5) (fld x 0 11))
  | 0x07 => orInvalid (fld x 25 1 == 0) (.vst (fld x 21 4) (fld x 16 5) (fld x 11 5) (fld x 0 11))
  | 0x08 => orInvalid (fld x 0 12 == 0 && decide (fld x 12 9 ≤ 447)) (.pld (fld x 21 5) (fld x 12 9))
  | 0x09 => orInvalid (fld x 0 6 == 0) (.seta (fld x 21 5) (fld x 16 5) (fld x 11 5) (fld x 6 5))
  | 0x0a => orInvalid (fld x 0 14 == 0 && decide (fld x 14 2 ≤ 2)) (.geta (fld x 21 5) (fld x 16 5) (fld x 14 2))
  | 0x0b => orInvalid (fld x 0 18 == 0) (.setc (fld x 23 3) (fld x 18 5))
  | 0x0c => orInvalid (fld x 0 18 == 0) (.getc (fld x 21 5) (fld x 18 3))
  | 0x0d => orInvalid (fld x 0 15 == 0 && rdxSource (fld x 15 6)) (.rdx (fld x 21 5) (fld x 15 6))
  | 0x0e => orInvalid (fld x 0 26 == 0) .clrf
  | 0x10 => orInvalid (fld x 0 3 == 0 && decide (fld x 8 4 ≤ 6) && decide (fld x 3 5 ≤ 16))
      (.tdef (fld x 22 4) (fld x 17 5) (fld x 12 5) (fld x 8 4) (fld x 3 5))
  | 0x11 => orInvalid (fld x 0 8 == 0 && decide (fld x 13 4 ≤ 6) && decide (fld x 8 5 ≤ 16))
      (.tspn (fld x 22 4) (fld x 17 5) (fld x 13 4) (fld x 8 5))
  | 0x12 => orInvalid (fld x 0 18 == 0) (.tcopy (fld x 22 4) (fld x 18 4))
  | 0x13 => orInvalid (fld x 0 22 == 0) (.tinv (fld x 22 4))
  | 0x14 => orInvalid (fld x 0 2 == 0)
      (.send (fld x 21 5) (fld x 16 5) (fld x 11 5) (fld x 7 4) (fld x 6 1 == 1) (fld x 2 4))
  | 0x15 => orInvalid (fld x 0 3 == 0) (.recv (fld x 22 4) (fld x 17 5) (fld x 12 5) (fld x 7 5) (fld x 3 4))
  | _ => none

/-- The opcodes of the vector slot (R188). -/
def vopOf : Nat → Option VOp
  | 0x00 => some .nop | 0x01 => some .add | 0x02 => some .sub | 0x03 => some .mul | 0x04 => some .fma
  | 0x05 => some .div | 0x06 => some .sqrt | 0x07 => some .min | 0x08 => some .max | 0x0a => some .cmp
  | 0x0b => some .sel | 0x0c => some .bcs | 0x0d => some .red | 0x0e => some .cvt | 0x10 => some .func
  | 0x18 => some .rand | 0x20 => some .upd | _ => none

/-- The fields of a `vcvt` FUNC: destination format, source format, part, lift (R189). -/
def cvtDst (fn : Nat) : Nat := fld fn 6 3
def cvtSrc (fn : Nat) : Nat := fld fn 3 3
def cvtPart (fn : Nat) : Nat := fld fn 1 2
def cvtLift (fn : Nat) : Bool := fld fn 0 1 == 1

/-- The permitted pairs and parts of `vcvt`, with the lift bit on a Z8 pair alone (R189). -/
def cvtOk (fn : Nat) : Bool :=
  let p := (cvtDst fn, cvtSrc fn)
  if p = (1, 0) ∨ p = (0, 1) ∨ p = (0, 2) ∨ p = (2, 0) then decide (cvtPart fn ≤ 1) && !cvtLift fn
  else decide (p = (0, 3) ∨ p = (3, 0))

/-- The fields of a `vupd` FUNC (R439). -/
def updOp (fn : Nat) : Nat := fld fn 0 2
def updPart (fn : Nat) : Nat := fld fn 2 2
def updSlot (fn : Nat) : Nat := fld fn 4 5

/-- Which of W, VA, VB, VC, RND, S and FUNC an operation uses; VD is used by all but `vnop` (R617). -/
structure Uses where
  w : Bool := true
  va : Bool := true
  vb : Bool := true
  vc : Bool := false
  rnd : Bool := false
  s : Bool := false
  fn : Bool := false

/-- R617's table; `vupd` has its own rule in R440. -/
def vecUses (op : VOp) (fn : Nat) : Uses :=
  match op with
  | .nop => { w := false, va := false, vb := false }
  | .add | .sub | .mul | .div => { rnd := true }
  | .fma => { vc := true, rnd := true }
  | .sqrt => { vb := false, rnd := true }
  | .min | .max => {}
  | .cmp => { fn := true }
  | .sel => { vc := true }
  | .bcs => { va := false, vb := false, s := true }
  | .red => { vb := false, rnd := fn == 0 || fn == 3, s := true, fn := true }
  | .cvt => { w := false, vb := false, rnd := true, s := cvtLift fn, fn := true }
  | .func => { vb := false, rnd := true, fn := true }
  | .rand => { va := false, vb := false, fn := true }
  | .upd => { w := false, vc := updOp fn != 1, s := updOp fn != 2, fn := true }

/-- The FUNC values an operation defines (R188, R189, R269, R275, R439). -/
def vecFuncOk (op : VOp) (fn : Nat) : Bool :=
  match op with
  | .cmp | .red => decide (fn ≤ 3)
  | .func => decide (fn ≤ 6)
  | .rand => decide (fn ≤ 1)
  | .cvt => cvtOk fn
  | .upd => decide (updOp fn ≤ 2) && (updOp fn == 2 || decide (fn ≤ 1))
  | _ => true

/-- The register rules of `vupd` (R440). -/
def updOk (v : Vec) : Bool :=
  if updOp v.fn = 1 then v.d != v.b && decide (v.s ≤ 28)
  else v.d != v.b && v.d != v.c && v.b != v.c && decide (v.s ≤ 28)

/-- The vector slot, [63:24] (R187, R188, R617). -/
def decodeVec (x : Nat) : Option Vec :=
  match vopOf (fld x 34 6) with
  | none => none
  | some op =>
    let v : Vec := {
      op, w := fld x 33 1 == 1, d := fld x 29 4, a := fld x 25 4, b := fld x 21 4, c := fld x 17 4, rnd := fld x 14 3
      s := fld x 9 5, fn := fld x 0 9 }
    let u := vecUses op v.fn
    orInvalid ((u.w || !v.w) && (op != .nop || v.d == 0) && (u.va || v.a == 0) && (u.vb || v.b == 0) && (u.vc || v.c == 0)
      && (if u.rnd then decide (v.rnd ≤ 4) else v.rnd == 0) && (u.s || v.s == 0) && (u.fn || v.fn == 0)
      && vecFuncOk op v.fn && (op != .upd || updOk v)) v

/-- DEPTH and PART of a SHAPE (R233). -/
def shapeDepth (sh : Nat) : Nat := fld sh 4 2
def shapePart (sh : Nat) : Nat := fld sh 1 3

/-- The SHAPE of a `bridle`: a depth, nothing else (R233, R235). -/
def bridleShapeOk (sh : Nat) : Bool := decide (shapeDepth sh ≤ 2) && shapePart sh == 0 && fld sh 0 1 == 0

/-- The combinations of FMT, KIND and SHAPE a `stream` permits (R235). -/
def streamShapeOk (fmt kind sh : Nat) : Bool :=
  fld sh 0 1 == 0 &&
  match kind with
  | 0 => decide (shapeDepth sh ≤ 2) && shapePart sh == 0
  | 1 => shapeDepth sh == 0 && decide (shapePart sh ≤ [0, 3, 7, 3, 0].getD fmt 0)
  | 2 => sh == 0 && fmt != 2 && fmt != 3
  | _ => false

/-- The array slot, [23:0] (R190 to R192, R235). -/
def decodeArr (x : Nat) : Option Arr :=
  let a (op : AOp) : Arr := {
    op, arr := fld x 19 1 == 1, t := fld x 15 4, fmt := fld x 12 3, kind := fld x 10 2, first := fld x 8 1 == 1
    last := fld x 9 1 == 1, rs := fld x 7 1 == 1, rq := fld x 6 1 == 1, shape := fld x 0 6 }
  let even4 := fld x 12 3 != 4 || fld x 15 1 == 0
  match fld x 20 4 with
  | 0 => orInvalid (x == 0) (a .nop)
  | 1 => orInvalid (decide (fld x 12 3 ≤ 4) && even4 && fld x 8 4 == 0 && fld x 6 1 == 0 && bridleShapeOk (fld x 0 6))
      (a .bridle)
  | 2 => orInvalid (decide (fld x 12 3 ≤ 4) && even4 && fld x 7 1 == 0 && streamShapeOk (fld x 12 3) (fld x 10 2) (fld x 0 6))
      (a .stream)
  | 3 => orInvalid (decide (fld x 12 3 ≤ 2) && (fld x 12 3 != 0 || fld x 15 1 == 0) && fld x 0 12 == 0) (a .drain)
  | _ => none

/-- The registers the move slot writes. -/
def Mov.writes : Mov → List Reg
  | .nop | .sst .. | .vst .. | .clrf | .send .. => []
  | .sset d _ | .salu d _ _ _ | .sali d _ _ _ | .sld d _ _ _ | .pld d _ | .geta d _ _ | .getc d _ | .rdx d _ => [.s d]
  | .vld d _ _ _ => [.v d]
  | .seta d _ _ _ => [.a d]
  | .setc d _ => [.c d]
  | .tdef d _ _ _ _ | .tspn d _ _ _ | .tcopy d _ | .tinv d => [.t d]
  | .recv _ u0 u1 m t => [.s u0, .s u1, .s m, .t t]

/-- The registers the move slot reads. -/
def Mov.reads : Mov → List Reg
  | .nop | .sset .. | .pld .. | .rdx .. | .clrf | .tinv _ => []
  | .salu _ a b _ => [.s a, .s b]
  | .sali _ a _ _ => [.s a]
  | .sld _ an sb _ | .vld _ an sb _ => [.a an, .s sb]
  | .sst x an sb _ => [.s x, .a an, .s sb]
  | .vst x an sb _ => [.v x, .a an, .s sb]
  | .seta _ v st w => [.s v, .s st, .s w]
  | .geta _ an _ => [.a an]
  | .setc _ v => [.s v]
  | .getc _ n => [.c n]
  | .tdef _ an sb _ _ => [.a an, .s sb]
  | .tspn _ s _ _ => [.s s]
  | .tcopy d s => [.t d, .t s]
  | .send dst u0 u1 t pay _ => [.s dst, .s u0, .s u1] ++ (if pay then [.t t] else [])
  | .recv _ _ _ _ t => [.t t]

/-- The registers the vector slot writes (R265, R440). -/
def Vec.writes (v : Vec) : List Reg :=
  match v.op with
  | .nop => []
  | .red => [.v v.d, .s v.s]
  | .upd => if updOp v.fn = 1 then [.v v.d, .v v.b] else [.v v.d, .v v.b, .v v.c]
  | _ => [.v v.d]

/-- The registers the vector slot reads. -/
def Vec.reads (v : Vec) : List Reg :=
  match v.op with
  | .nop | .rand => []
  | .add | .sub | .mul | .div | .min | .max | .cmp => [.v v.a, .v v.b]
  | .fma | .sel => [.v v.a, .v v.b, .v v.c]
  | .sqrt | .red | .func => [.v v.a]
  | .bcs => [.s v.s]
  | .cvt => [.v v.a, .v v.d] ++ (if cvtLift v.fn then [.s v.s] else [])
  | .upd => [.v v.a, .v v.b] ++ (if updOp v.fn = 1 then [] else [.v v.c]) ++ [.v v.d] ++
      (if updOp v.fn = 2 then [] else [.s v.s, .s (v.s + 1), .s (v.s + 2), .s (v.s + 3)])

/-- The tile handles the array slot names: T, and T + 1 where the format takes two tiles (R191, R192). -/
def Arr.tiles (a : Arr) : List Nat :=
  let two := if a.op = .drain then a.fmt == 0 else a.fmt == 4
  if a.op = .nop then [] else if two then [a.t, a.t + 1] else [a.t]

/-- The registers the array slot writes and reads (R194). -/
def Arr.writes (a : Arr) : List Reg := if a.op = .drain then a.tiles.map .t else []
def Arr.reads (a : Arr) : List Reg := a.tiles.map .t

/-- The registers the control slot reads. -/
def Ctl.reads : Ctl → List Reg
  | .rep c _ sm => [.c c, .s sm]
  | .br sr _ _ => [.s sr]
  | .wait t 0 => [.t t]
  | _ => []

/-- No register is in both lists. -/
def noShared (x y : List Reg) : Bool := x.all fun r => !(y.contains r)

/-- A bundle from its 128 bits; none where it is invalid (R155, R157, R170). -/
def decodeBundle (x : Nat) : Option Bundle :=
  match decodeCtl (fld x 96 32), decodeMov (fld x 64 32), decodeVec (fld x 24 40), decodeArr (fld x 0 24) with
  | some c, some m, some v, some a =>
    orInvalid (noShared m.writes v.writes && noShared m.writes a.writes && noShared v.writes a.writes
      && (c != .swap || (m == .nop && v.op == .nop && a.op == .nop))) ⟨c, m, v, a⟩
  | _, _, _, _ => none

/-- The registers and handles a bundle reads or writes (R158). -/
def Bundle.touches (b : Bundle) : List Reg :=
  b.ctl.reads ++ b.mov.reads ++ b.mov.writes ++ b.vec.reads ++ b.vec.writes ++ b.arr.reads

end Sys2Proof.Machine
end

