-- ==== Sys2Proof/Machine/Digest.lean ====
section
/-! DEFINITION. The checks over byte strings that the manual names by their public standards: SHA-384, the HMAC and HKDF built
on it, and CRC-64. All are computed in full. -/

namespace Sys2Proof.Machine

/-- The 80 round constants of SHA-384. -/
def shaK : List W64 :=
  [0x428a2f98d728ae22#64, 0x7137449123ef65cd#64, 0xb5c0fbcfec4d3b2f#64, 0xe9b5dba58189dbbc#64] ++
  [0x3956c25bf348b538#64, 0x59f111f1b605d019#64, 0x923f82a4af194f9b#64, 0xab1c5ed5da6d8118#64] ++
  [0xd807aa98a3030242#64, 0x12835b0145706fbe#64, 0x243185be4ee4b28c#64, 0x550c7dc3d5ffb4e2#64] ++
  [0x72be5d74f27b896f#64, 0x80deb1fe3b1696b1#64, 0x9bdc06a725c71235#64, 0xc19bf174cf692694#64] ++
  [0xe49b69c19ef14ad2#64, 0xefbe4786384f25e3#64, 0x0fc19dc68b8cd5b5#64, 0x240ca1cc77ac9c65#64] ++
  [0x2de92c6f592b0275#64, 0x4a7484aa6ea6e483#64, 0x5cb0a9dcbd41fbd4#64, 0x76f988da831153b5#64] ++
  [0x983e5152ee66dfab#64, 0xa831c66d2db43210#64, 0xb00327c898fb213f#64, 0xbf597fc7beef0ee4#64] ++
  [0xc6e00bf33da88fc2#64, 0xd5a79147930aa725#64, 0x06ca6351e003826f#64, 0x142929670a0e6e70#64] ++
  [0x27b70a8546d22ffc#64, 0x2e1b21385c26c926#64, 0x4d2c6dfc5ac42aed#64, 0x53380d139d95b3df#64] ++
  [0x650a73548baf63de#64, 0x766a0abb3c77b2a8#64, 0x81c2c92e47edaee6#64, 0x92722c851482353b#64] ++
  [0xa2bfe8a14cf10364#64, 0xa81a664bbc423001#64, 0xc24b8b70d0f89791#64, 0xc76c51a30654be30#64] ++
  [0xd192e819d6ef5218#64, 0xd69906245565a910#64, 0xf40e35855771202a#64, 0x106aa07032bbd1b8#64] ++
  [0x19a4c116b8d2d0c8#64, 0x1e376c085141ab53#64, 0x2748774cdf8eeb99#64, 0x34b0bcb5e19b48a8#64] ++
  [0x391c0cb3c5c95a63#64, 0x4ed8aa4ae3418acb#64, 0x5b9cca4f7763e373#64, 0x682e6ff3d6b2b8a3#64] ++
  [0x748f82ee5defb2fc#64, 0x78a5636f43172f60#64, 0x84c87814a1f0ab72#64, 0x8cc702081a6439ec#64] ++
  [0x90befffa23631e28#64, 0xa4506cebde82bde9#64, 0xbef9a3f7b2c67915#64, 0xc67178f2e372532b#64] ++
  [0xca273eceea26619c#64, 0xd186b8c721c0c207#64, 0xeada7dd6cde0eb1e#64, 0xf57d4f7fee6ed178#64] ++
  [0x06f067aa72176fba#64, 0x0a637dc5a2c898a6#64, 0x113f9804bef90dae#64, 0x1b710b35131c471b#64] ++
  [0x28db77f523047d84#64, 0x32caab7b40c72493#64, 0x3c9ebe0a15c9bebc#64, 0x431d67c49c100d4c#64] ++
  [0x4cc5d4becb3e42b6#64, 0x597f299cfc657e2a#64, 0x5fcb6fab3ad6faec#64, 0x6c44198c4a475817#64]

/-- The eight words SHA-384 starts from. -/
def shaInit : List W64 :=
  [0xcbbb9d5dc1059ed8#64, 0x629a292a367cd507#64, 0x9159015a3070dd17#64, 0x152fecd8f70e5939#64, 0x67332667ffc00b31#64, 0x8eb44a8768581511#64, 0xdb0c2e0d64f98fa7#64, 0x47b5481dbefa4fa4#64]

/-- A number as `n` bytes, highest first. -/
def bytesBE (x n : Nat) : List Byte := (bytesLE x n).reverse

/-- Bytes as a number, highest first. -/
def natBE (l : List Byte) : Nat := l.foldl (fun a b => a * 256 + b.toNat) 0

/-- Bytes as a number, lowest first. -/
def natLE (l : List Byte) : Nat := l.foldr (fun b a => b.toNat + 256 * a) 0

/-- The message, a one bit, zeros and the length in bits, to a multiple of 128 bytes. -/
def shaPad (m : List Byte) : List Byte :=
  m ++ [0x80#8] ++ List.replicate ((239 - m.length % 128) % 128) 0#8 ++ bytesBE (8 * m.length) 16

/-- Cut a list into the `n` pieces of `k` that it holds, first to last. -/
def cutInto {α : Type} (k : Nat) (l : List α) : Nat → List (List α)
  | 0 => []
  | n + 1 => l.take k :: cutInto k (l.drop k) n

/-- One SHA-384 round on the eight working words. -/
def shaRound (st : List W64) (kw : W64) : List W64 :=
  match st with
  | [a, b, c, d, e, f, g, h] =>
    let s1 := e.rotateRight 14 ^^^ e.rotateRight 18 ^^^ e.rotateRight 41
    let ch := (e &&& f) ^^^ (~~~e &&& g)
    let t1 := h + s1 + ch + kw
    let s0 := a.rotateRight 28 ^^^ a.rotateRight 34 ^^^ a.rotateRight 39
    let maj := (a &&& b) ^^^ (a &&& c) ^^^ (b &&& c)
    [t1 + (s0 + maj), a, b, c, d + t1, e, f, g]
  | _ => st

/-- The next word of the message schedule from the last sixteen. -/
def shaNextWord (w : List W64) : W64 :=
  let w1 := w.getD 1 0
  let w14 := w.getD 14 0
  (w14.rotateRight 19 ^^^ w14.rotateRight 61 ^^^ (w14 >>> 6)) + w.getD 9 0
    + (w1.rotateRight 1 ^^^ w1.rotateRight 8 ^^^ (w1 >>> 7)) + w.getD 0 0

/-- The rounds of one block: the working words, the last sixteen schedule words, the constants still to come. -/
def shaRounds (st w : List W64) : List W64 → List W64
  | [] => st
  | k :: r => shaRounds (shaRound st (k + w.getD 0 0)) (w.drop 1 ++ [shaNextWord w]) r

/-- One 128-byte block. -/
def shaBlock (h : List W64) (b : List Byte) : List W64 :=
  let w := (cutInto 8 b 16).map fun x => BitVec.ofNat 64 (natBE x)
  List.zipWith (· + ·) h (shaRounds h w shaK)

/-- SHA-384, 48 bytes. -/
def sha384 (m : List Byte) : List Byte :=
  let p := shaPad m
  let h := (cutInto 128 p (p.length / 128)).foldl shaBlock shaInit
  (h.take 6).flatMap fun x => bytesBE x.toNat 8

/-- A digest as a 384-bit word, its first byte lowest (the order in which it stands in memory). -/
def digestWord (l : List Byte) : BitVec 384 := BitVec.ofNat 384 (natLE l)

/-- HMAC with SHA-384. -/
def hmac384 (key msg : List Byte) : List Byte :=
  let k0 := if key.length > 128 then sha384 key else key
  let k := k0 ++ List.replicate (128 - k0.length) 0#8
  sha384 (k.map (· ^^^ 0x5c#8) ++ sha384 (k.map (· ^^^ 0x36#8) ++ msg))

/-- HKDF's blocks: the previous block, the number of the next one, how many are to come. -/
def hkdfBlocks (prk info prev : List Byte) (i : Nat) : Nat → List Byte
  | 0 => []
  | n + 1 =>
    let t := hmac384 prk (prev ++ info ++ [BitVec.ofNat 8 i])
    t ++ hkdfBlocks prk info t (i + 1) n

/-- HKDF with SHA-384: extract with a salt, expand with an info string, `n` bytes. -/
def hkdf384 (salt ikm info : List Byte) (n : Nat) : List Byte :=
  (hkdfBlocks (hmac384 salt ikm) info [] 1 (ceilDiv n 48)).take n

/-- Eight steps of CRC-64 with the ECMA-182 polynomial, highest bit first. -/
def crcShift (c : W64) : Nat → W64
  | 0 => c
  | n + 1 => crcShift (if c.getLsbD 63 then (c <<< 1) ^^^ 0x42f0e1eba9ea3693#64 else c <<< 1) n

/-- One byte into a CRC-64. -/
def crcByte (c : W64) (b : Byte) : W64 := crcShift (c ^^^ ((b.setWidth 64) <<< 56)) 8

/-- CRC-64 with the ECMA-182 polynomial over bytes, from a zero register (R305, R398). -/
def crc64 (l : List Byte) : W64 := l.foldl crcByte 0

end Sys2Proof.Machine
end

