-- ==== Sys2Proof/Machine/Fold.lean ====
section
/-! DEFINITION. The fold codec, trimming and stored sizes (R302 to R309). -/

namespace Sys2Proof.Machine

/-- What fold packs of a format: element bits, exponent bits, mantissa bits (R303); none for a format without packed rows. -/
def foldFmt (fmt : Nat) : Option (Nat × Nat × Nat) :=
  if fmt = 2 then some (8, 4, 3)
  else if fmt = 4 then some (16, 7, 8)
  else if fmt = 5 then some (32, 8, 23)
  else if fmt = 6 then some (64, 11, 52)
  else none

/-- The elements of a 128-byte row, `w` bits each, element 0 first. -/
def rowElems (row : Mem) (w : Nat) : List Nat := (List.range (1024 / w)).map fun i => row.readNat (w / 8 * i) (w / 8)

/-- The exponent field of an element. -/
def elemExp (eb mb x : Nat) : Nat := x / 2 ^ mb % 2 ^ eb

/-- Keep the `n` bits below the leading 1 of a mantissa without a hidden bit. -/
def trimBelowLead (m n : Nat) : Nat :=
  let p := Nat.log2 m
  m / 2 ^ (p - n) * 2 ^ (p - n)

/-- Trim one element to `n` significant bits after its leading 1; zeros, infinities and NaN unchanged (R307). -/
def trimElem (w eb mb n x : Nat) : Nat :=
  let e := elemExp eb mb x
  let m := x % 2 ^ mb
  if e = 2 ^ eb - 1 then x
  else if e = 0 then (if w = 16 ∨ m = 0 then x else x - m + trimBelowLead m n)
  else x - m + m / 2 ^ (mb - n) * 2 ^ (mb - n)

/-- A payload as a `trim-n` extent keeps it: format codes 4, 5 and 6 trimmed element by element (R307). -/
def trimPayload (fmt n : Nat) (p : Mem) : Mem :=
  match foldFmt fmt with
  | none => p
  | some (w, eb, mb) =>
    if fmt = 2 then p
    else
      let b := w / 8
      SMap.mapVals (0#8) (fun a _ => BitVec.ofNat 8 (trimElem w eb mb n (p.readNat (a / b * b) b) / 256 ^ (a % b))) p

/-- The least w for which every delta up to `d` fits below the zero code (R303). -/
def deltaWidth (d : Nat) : Nat := bitsFor (d + 2)
where bitsFor (x : Nat) : Nat := if x ≤ 1 then 0 else Nat.log2 (x - 1) + 1

/-- Pack bit fields, lowest first, each a value and a width. -/
def packBits : List (Nat × Nat) → Nat
  | [] => 0
  | (x, w) :: r => x % 2 ^ w + 2 ^ w * packBits r

/-- The packed form of a row: w, base, m and the coded elements (R303). `trim` is n in a `trim-n` extent. -/
def packRow (w eb mb : Nat) (trim : Option Nat) (row : Mem) : List Byte :=
  let es := rowElems row w
  let exps := (es.filter (· ≠ 0)).map (elemExp eb mb)
  let base := exps.foldl min (2 ^ eb)
  let top := exps.foldl max 0
  let dw := deltaWidth (top - base)
  let sub := es.any fun x => elemExp eb mb x = 0 && x % 2 ^ mb ≠ 0
  let m := match trim with
    | some n => if sub && w != 16 then mb else min n mb
    | none => mb
  let code := fun x =>
    let delta := if x = 0 then 2 ^ dw - 1 else elemExp eb mb x - base
    [(x / 2 ^ (w - 1), 1), (delta, dw), (x % 2 ^ mb / 2 ^ (mb - m), m)]
  let n := ceilDiv (es.length * (1 + dw + m)) 8
  [BitVec.ofNat 8 (dw * 16 + base / 256), BitVec.ofNat 8 base, BitVec.ofNat 8 m] ++ bytesLE (packBits (es.flatMap code)) n

/-- One row's descriptor and coded bytes: zero before repeat, repeat before packed (R302). -/
def foldRow (fmt : Nat) (trim : Option Nat) (above : Option Mem) (row : Mem) : Nat × List Byte :=
  if row.isEmpty then (0, [])
  else if above = some row then (1, [])
  else
    let packed := match foldFmt fmt with
      | none => none
      | some (w, eb, mb) =>
        let p := packRow w eb mb (if fmt = 2 then none else trim) row
        if p.length < 128 then some p else none
    match packed with
    | some p => (2, p)
    | none => (3, row.toList 0 128)

/-- The rows of a payload from row `r` on: descriptors and coded bytes. -/
def foldRows (fmt : Nat) (trim : Option Nat) (p : Mem) (above : Option Mem) (r : Nat) : Nat → List Nat × List Byte
  | 0 => ([], [])
  | n + 1 =>
    let row := p.slice (128 * r) 128
    let c := foldRow fmt trim above row
    let rest := foldRows fmt trim p (some row) (r + 1) n
    (c.1 :: rest.1, c.2 ++ rest.2)

/-- A tile's stream, and whether it is folded (R304, R309). -/
def tileStream (isSealed : Bool) (trim : Option Nat) (t : TileData) : List Byte × Bool :=
  let plain := t.payload.toList 0 8192 ++ t.side.toList 0 t.sideLen
  if isSealed then (plain, false)
  else
    let f := foldRows t.fmt trim t.payload none 0 64
    let s := bytesLE (packBits (f.1.map fun k => (k, 2))) 16 ++ f.2 ++ t.side.toList 0 t.sideLen
    if s.length < 8192 + t.sideLen then (s, true) else (plain, false)

/-- The units a stream of so many bytes fills: 18 in a sealed extent (R305, R309). -/
def unitsOf (isSealed : Bool) (len : Nat) : Nat := if isSealed then 18 else max 1 (ceilDiv len 512)

/-! ### Reading a stream back (R302 to R304) -/

/-- The elements of a packed row from its bit string. -/
def unpackElems (w eb mb dw base m : Nat) (x : Nat) : Nat → List Nat
  | 0 => []
  | n + 1 =>
    let sign := x % 2
    let delta := x / 2 % 2 ^ dw
    let man := x / 2 ^ (1 + dw) % 2 ^ m * 2 ^ (mb - m)
    let v := if delta = 2 ^ dw - 1 then 0 else sign * 2 ^ (w - 1) + (base + delta) % 2 ^ eb * 2 ^ mb + man
    v :: unpackElems w eb mb dw base m (x / 2 ^ (1 + dw + m)) n

/-- Elements as row bytes. -/
def elemBytes (w : Nat) (l : List Nat) : List Byte := l.flatMap fun x => bytesLE x (w / 8)

/-- The rows of a folded stream: the descriptors and the coded bytes that are left, the row above. -/
def unfoldRows (fmt : Nat) (above : List Byte) : List Nat → List Byte → Option (List Byte × List Byte)
  | [], s => some ([], s)
  | k :: r, s =>
    let step : Option (List Byte × List Byte) :=
      if k = 0 then some (List.replicate 128 0#8, s)
      else if k = 1 then some (above, s)
      else if k = 3 then (if s.length < 128 then none else some (s.take 128, s.drop 128))
      else match foldFmt fmt with
        | none => none
        | some (w, eb, mb) =>
          let b0 := (s.getD 0 0).toNat
          let base := b0 % 16 * 256 + (s.getD 1 0).toNat
          let m := (s.getD 2 0).toNat
          let n := ceilDiv (1024 / w * (1 + b0 / 16 + m)) 8
          if s.length < 3 + n || decide (mb < m) then none
          else some (elemBytes w (unpackElems w eb mb (b0 / 16) base m (natLE ((s.drop 3).take n)) (1024 / w)), s.drop (3 + n))
    match step with
    | none => none
    | some (row, rest) =>
      match unfoldRows fmt row r rest with
      | none => none
      | some (rows, left) => some (row ++ rows, left)

/-- A tile from its stream, with its format code, side-data length and fold state, and the stream's length; none where the bytes do not
hold it. -/
def tileOfStream (fmt sideLen : Nat) (isFolded : Bool) (s : List Byte) : Option (TileData × Nat) :=
  if isFolded then
    let d := natLE (s.take 16)
    match unfoldRows fmt [] ((List.range 64).map fun r => d / 4 ^ r % 4) (s.drop 16) with
    | none => none
    | some (p, rest) =>
      if rest.length < sideLen then none
      else some ({ fmt, payload := Mem.ofList p, side := Mem.ofList (rest.take sideLen), sideLen }, s.length - rest.length + sideLen)
  else if s.length < 8192 + sideLen then none
  else some ({ fmt, payload := Mem.ofList (s.take 8192), side := Mem.ofList ((s.drop 8192).take sideLen), sideLen }, 8192 + sideLen)

end Sys2Proof.Machine
end

