-- ==== Sys2Proof/Machine/Aes.lean ====
section
/-! DEFINITION. AES with 256-bit keys and the modes of it that the manual names: key wrap (R550, R559), XTS (R311) and GCM (R397, R557).
All are computed in full as their standards give them: FIPS 197, RFC 3394, IEEE 1619, NIST SP 800-38D (assumption 80). -/

namespace Sys2Proof.Machine

/-! ### The block cipher -/

/-- The substitution of a byte. -/
def aesSbox : List Byte :=
  [0x63#8, 0x7c#8, 0x77#8, 0x7b#8, 0xf2#8, 0x6b#8, 0x6f#8, 0xc5#8, 0x30#8, 0x01#8, 0x67#8, 0x2b#8, 0xfe#8, 0xd7#8, 0xab#8, 0x76#8] ++
  [0xca#8, 0x82#8, 0xc9#8, 0x7d#8, 0xfa#8, 0x59#8, 0x47#8, 0xf0#8, 0xad#8, 0xd4#8, 0xa2#8, 0xaf#8, 0x9c#8, 0xa4#8, 0x72#8, 0xc0#8] ++
  [0xb7#8, 0xfd#8, 0x93#8, 0x26#8, 0x36#8, 0x3f#8, 0xf7#8, 0xcc#8, 0x34#8, 0xa5#8, 0xe5#8, 0xf1#8, 0x71#8, 0xd8#8, 0x31#8, 0x15#8] ++
  [0x04#8, 0xc7#8, 0x23#8, 0xc3#8, 0x18#8, 0x96#8, 0x05#8, 0x9a#8, 0x07#8, 0x12#8, 0x80#8, 0xe2#8, 0xeb#8, 0x27#8, 0xb2#8, 0x75#8] ++
  [0x09#8, 0x83#8, 0x2c#8, 0x1a#8, 0x1b#8, 0x6e#8, 0x5a#8, 0xa0#8, 0x52#8, 0x3b#8, 0xd6#8, 0xb3#8, 0x29#8, 0xe3#8, 0x2f#8, 0x84#8] ++
  [0x53#8, 0xd1#8, 0x00#8, 0xed#8, 0x20#8, 0xfc#8, 0xb1#8, 0x5b#8, 0x6a#8, 0xcb#8, 0xbe#8, 0x39#8, 0x4a#8, 0x4c#8, 0x58#8, 0xcf#8] ++
  [0xd0#8, 0xef#8, 0xaa#8, 0xfb#8, 0x43#8, 0x4d#8, 0x33#8, 0x85#8, 0x45#8, 0xf9#8, 0x02#8, 0x7f#8, 0x50#8, 0x3c#8, 0x9f#8, 0xa8#8] ++
  [0x51#8, 0xa3#8, 0x40#8, 0x8f#8, 0x92#8, 0x9d#8, 0x38#8, 0xf5#8, 0xbc#8, 0xb6#8, 0xda#8, 0x21#8, 0x10#8, 0xff#8, 0xf3#8, 0xd2#8] ++
  [0xcd#8, 0x0c#8, 0x13#8, 0xec#8, 0x5f#8, 0x97#8, 0x44#8, 0x17#8, 0xc4#8, 0xa7#8, 0x7e#8, 0x3d#8, 0x64#8, 0x5d#8, 0x19#8, 0x73#8] ++
  [0x60#8, 0x81#8, 0x4f#8, 0xdc#8, 0x22#8, 0x2a#8, 0x90#8, 0x88#8, 0x46#8, 0xee#8, 0xb8#8, 0x14#8, 0xde#8, 0x5e#8, 0x0b#8, 0xdb#8] ++
  [0xe0#8, 0x32#8, 0x3a#8, 0x0a#8, 0x49#8, 0x06#8, 0x24#8, 0x5c#8, 0xc2#8, 0xd3#8, 0xac#8, 0x62#8, 0x91#8, 0x95#8, 0xe4#8, 0x79#8] ++
  [0xe7#8, 0xc8#8, 0x37#8, 0x6d#8, 0x8d#8, 0xd5#8, 0x4e#8, 0xa9#8, 0x6c#8, 0x56#8, 0xf4#8, 0xea#8, 0x65#8, 0x7a#8, 0xae#8, 0x08#8] ++
  [0xba#8, 0x78#8, 0x25#8, 0x2e#8, 0x1c#8, 0xa6#8, 0xb4#8, 0xc6#8, 0xe8#8, 0xdd#8, 0x74#8, 0x1f#8, 0x4b#8, 0xbd#8, 0x8b#8, 0x8a#8] ++
  [0x70#8, 0x3e#8, 0xb5#8, 0x66#8, 0x48#8, 0x03#8, 0xf6#8, 0x0e#8, 0x61#8, 0x35#8, 0x57#8, 0xb9#8, 0x86#8, 0xc1#8, 0x1d#8, 0x9e#8] ++
  [0xe1#8, 0xf8#8, 0x98#8, 0x11#8, 0x69#8, 0xd9#8, 0x8e#8, 0x94#8, 0x9b#8, 0x1e#8, 0x87#8, 0xe9#8, 0xce#8, 0x55#8, 0x28#8, 0xdf#8] ++
  [0x8c#8, 0xa1#8, 0x89#8, 0x0d#8, 0xbf#8, 0xe6#8, 0x42#8, 0x68#8, 0x41#8, 0x99#8, 0x2d#8, 0x0f#8, 0xb0#8, 0x54#8, 0xbb#8, 0x16#8]

/-- The inverse substitution. -/
def aesInvSbox : List Byte :=
  [0x52#8, 0x09#8, 0x6a#8, 0xd5#8, 0x30#8, 0x36#8, 0xa5#8, 0x38#8, 0xbf#8, 0x40#8, 0xa3#8, 0x9e#8, 0x81#8, 0xf3#8, 0xd7#8, 0xfb#8] ++
  [0x7c#8, 0xe3#8, 0x39#8, 0x82#8, 0x9b#8, 0x2f#8, 0xff#8, 0x87#8, 0x34#8, 0x8e#8, 0x43#8, 0x44#8, 0xc4#8, 0xde#8, 0xe9#8, 0xcb#8] ++
  [0x54#8, 0x7b#8, 0x94#8, 0x32#8, 0xa6#8, 0xc2#8, 0x23#8, 0x3d#8, 0xee#8, 0x4c#8, 0x95#8, 0x0b#8, 0x42#8, 0xfa#8, 0xc3#8, 0x4e#8] ++
  [0x08#8, 0x2e#8, 0xa1#8, 0x66#8, 0x28#8, 0xd9#8, 0x24#8, 0xb2#8, 0x76#8, 0x5b#8, 0xa2#8, 0x49#8, 0x6d#8, 0x8b#8, 0xd1#8, 0x25#8] ++
  [0x72#8, 0xf8#8, 0xf6#8, 0x64#8, 0x86#8, 0x68#8, 0x98#8, 0x16#8, 0xd4#8, 0xa4#8, 0x5c#8, 0xcc#8, 0x5d#8, 0x65#8, 0xb6#8, 0x92#8] ++
  [0x6c#8, 0x70#8, 0x48#8, 0x50#8, 0xfd#8, 0xed#8, 0xb9#8, 0xda#8, 0x5e#8, 0x15#8, 0x46#8, 0x57#8, 0xa7#8, 0x8d#8, 0x9d#8, 0x84#8] ++
  [0x90#8, 0xd8#8, 0xab#8, 0x00#8, 0x8c#8, 0xbc#8, 0xd3#8, 0x0a#8, 0xf7#8, 0xe4#8, 0x58#8, 0x05#8, 0xb8#8, 0xb3#8, 0x45#8, 0x06#8] ++
  [0xd0#8, 0x2c#8, 0x1e#8, 0x8f#8, 0xca#8, 0x3f#8, 0x0f#8, 0x02#8, 0xc1#8, 0xaf#8, 0xbd#8, 0x03#8, 0x01#8, 0x13#8, 0x8a#8, 0x6b#8] ++
  [0x3a#8, 0x91#8, 0x11#8, 0x41#8, 0x4f#8, 0x67#8, 0xdc#8, 0xea#8, 0x97#8, 0xf2#8, 0xcf#8, 0xce#8, 0xf0#8, 0xb4#8, 0xe6#8, 0x73#8] ++
  [0x96#8, 0xac#8, 0x74#8, 0x22#8, 0xe7#8, 0xad#8, 0x35#8, 0x85#8, 0xe2#8, 0xf9#8, 0x37#8, 0xe8#8, 0x1c#8, 0x75#8, 0xdf#8, 0x6e#8] ++
  [0x47#8, 0xf1#8, 0x1a#8, 0x71#8, 0x1d#8, 0x29#8, 0xc5#8, 0x89#8, 0x6f#8, 0xb7#8, 0x62#8, 0x0e#8, 0xaa#8, 0x18#8, 0xbe#8, 0x1b#8] ++
  [0xfc#8, 0x56#8, 0x3e#8, 0x4b#8, 0xc6#8, 0xd2#8, 0x79#8, 0x20#8, 0x9a#8, 0xdb#8, 0xc0#8, 0xfe#8, 0x78#8, 0xcd#8, 0x5a#8, 0xf4#8] ++
  [0x1f#8, 0xdd#8, 0xa8#8, 0x33#8, 0x88#8, 0x07#8, 0xc7#8, 0x31#8, 0xb1#8, 0x12#8, 0x10#8, 0x59#8, 0x27#8, 0x80#8, 0xec#8, 0x5f#8] ++
  [0x60#8, 0x51#8, 0x7f#8, 0xa9#8, 0x19#8, 0xb5#8, 0x4a#8, 0x0d#8, 0x2d#8, 0xe5#8, 0x7a#8, 0x9f#8, 0x93#8, 0xc9#8, 0x9c#8, 0xef#8] ++
  [0xa0#8, 0xe0#8, 0x3b#8, 0x4d#8, 0xae#8, 0x2a#8, 0xf5#8, 0xb0#8, 0xc8#8, 0xeb#8, 0xbb#8, 0x3c#8, 0x83#8, 0x53#8, 0x99#8, 0x61#8] ++
  [0x17#8, 0x2b#8, 0x04#8, 0x7e#8, 0xba#8, 0x77#8, 0xd6#8, 0x26#8, 0xe1#8, 0x69#8, 0x14#8, 0x63#8, 0x55#8, 0x21#8, 0x0c#8, 0x7d#8]

/-- Substitute a byte. -/
def subByte (b : Byte) : Byte := aesSbox.getD b.toNat 0
def invSubByte (b : Byte) : Byte := aesInvSbox.getD b.toNat 0

/-- A byte times x in the field of 256 elements. -/
def gfDouble (b : Byte) : Byte := if b.getLsbD 7 then (b <<< 1) ^^^ 0x1b#8 else b <<< 1

/-- A byte times a small constant of `n` bits. -/
def gfTimes (b : Byte) : Nat → Nat → Byte
  | 0, _ => 0
  | n + 1, k => (if k % 2 = 1 then b else 0) ^^^ gfTimes (gfDouble b) n (k / 2)

/-- Two byte strings combined bit by bit. -/
def xorBytes (a b : List Byte) : List Byte := List.zipWith (· ^^^ ·) a b

/-- The next four words of a key schedule: the last eight words, whether the step is the one with a rotation, and its constant. -/
def aesKeyStep (prev last : List Byte) (odd : Bool) (rcon : Byte) : List Byte :=
  let t := last.drop 12
  let t := if odd then t.map subByte
    else match t with
      | a :: r => xorBytes ((r ++ [a]).map subByte) [rcon, 0, 0, 0]
      | [] => []
  let w0 := xorBytes (prev.take 4) t
  let w1 := xorBytes ((prev.drop 4).take 4) w0
  let w2 := xorBytes ((prev.drop 8).take 4) w1
  let w3 := xorBytes (prev.drop 12) w2
  w0 ++ w1 ++ w2 ++ w3

/-- The round keys after the first two: the two before, the parity, the constant, how many are to come. -/
def aesKeysFrom (prev last : List Byte) (odd : Bool) (rcon : Byte) : Nat → List (List Byte)
  | 0 => []
  | n + 1 =>
    let k := aesKeyStep prev last odd rcon
    k :: aesKeysFrom last k (!odd) (if odd then gfDouble rcon else rcon) n

/-- The 15 round keys of a key of 32 bytes. -/
def aesKeys (key : List Byte) : List (List Byte) :=
  key.take 16 :: key.drop 16 :: aesKeysFrom (key.take 16) (key.drop 16) false 1 13

/-- The bytes of a block in another order: place `i` takes the byte at `f i`. -/
def permute (f : Nat → Nat) (b : List Byte) : List Byte := (List.range 16).map fun i => b.getD (f i) 0

/-- One column times the matrix whose first row is given. -/
def mixColumn (row : List Nat) (c : List Byte) : List Byte :=
  (List.range 4).map fun i => (List.range 4).foldl (fun a j => a ^^^ gfTimes (c.getD j 0) 4 (row.getD ((j + 4 - i) % 4) 0)) 0

/-- Every column of a block mixed. -/
def mixColumns (row : List Nat) (b : List Byte) : List Byte := (cutInto 4 b 4).flatMap (mixColumn row)

/-- The rounds of an encryption with the round keys still to come; the last mixes no columns. -/
def aesRounds (b : List Byte) : List (List Byte) → List Byte
  | [] => b
  | [k] => xorBytes (permute (fun i => (i + 4 * (i % 4)) % 16) (b.map subByte)) k
  | k :: r => aesRounds (xorBytes (mixColumns [2, 3, 1, 1] (permute (fun i => (i + 4 * (i % 4)) % 16) (b.map subByte))) k) r

/-- A block of 16 bytes encrypted. -/
def aesEncrypt (key b : List Byte) : List Byte :=
  match aesKeys key with
  | [] => b
  | k :: r => aesRounds (xorBytes b k) r

/-- The rounds of a decryption, over the round keys in reverse order; before the last key no columns are mixed. -/
def aesInvRounds (b : List Byte) : List (List Byte) → List Byte
  | [] => b
  | [k] => xorBytes ((permute (fun i => (i + 12 * (i % 4)) % 16) b).map invSubByte) k
  | k :: r => aesInvRounds (mixColumns [14, 11, 13, 9] (xorBytes ((permute (fun i => (i + 12 * (i % 4)) % 16) b).map invSubByte) k)) r

/-- A block of 16 bytes decrypted. -/
def aesDecrypt (key b : List Byte) : List Byte :=
  match (aesKeys key).reverse with
  | [] => b
  | k :: r => aesInvRounds (xorBytes b k) r

/-! ### Key wrap (RFC 3394) -/

/-- The value that a wrapped key starts from. -/
def wrapInit : List Byte := List.replicate 8 0xa6#8

/-- One pass of wrapping over the 8-byte pieces: the running value, the pieces still to come, the step number. -/
def wrapPass (key : List Byte) (a : List Byte) (t : Nat) : List (List Byte) → List Byte × List (List Byte)
  | [] => (a, [])
  | r :: rest =>
    let b := aesEncrypt key (a ++ r)
    let x := wrapPass key (xorBytes (b.take 8) (bytesBE (t + 1) 8)) (t + 1) rest
    (x.1, b.drop 8 :: x.2)

/-- The passes of wrapping still to come, over `m` pieces. -/
def wrapPasses (key : List Byte) (m : Nat) : Nat → Nat → List Byte → List (List Byte) → List Byte
  | 0, _, a, rs => a ++ rs.flatten
  | n + 1, t, a, rs =>
    let x := wrapPass key a t rs
    wrapPasses key m n (t + m) x.1 x.2

/-- A key of a multiple of 8 bytes wrapped under a key of 32. -/
def keyWrap (key plain : List Byte) : List Byte :=
  let m := plain.length / 8
  wrapPasses key m 6 0 wrapInit (cutInto 8 plain m)

/-- One pass of unwrapping over the pieces, last first, from step number `t` down. -/
def unwrapPass (key : List Byte) (a : List Byte) (t : Nat) : List (List Byte) → List Byte × List (List Byte)
  | [] => (a, [])
  | r :: rest =>
    let b := aesDecrypt key (xorBytes a (bytesBE t 8) ++ r)
    let x := unwrapPass key (b.take 8) (t - 1) rest
    (x.1, b.drop 8 :: x.2)

/-- The passes of unwrapping still to come; the pieces stand last first. -/
def unwrapPasses (key : List Byte) (m : Nat) : Nat → Nat → List Byte → List (List Byte) → List Byte × List (List Byte)
  | 0, _, a, rs => (a, rs)
  | n + 1, t, a, rs =>
    let x := unwrapPass key a t rs
    unwrapPasses key m n (t - m) x.1 x.2

/-- A wrapped key unwrapped under a key of 32 bytes; none where its check fails. -/
def keyUnwrap (key wrapped : List Byte) : Option (List Byte) :=
  let m := wrapped.length / 8 - 1
  let x := unwrapPasses key m 6 (6 * m) (wrapped.take 8) (cutInto 8 (wrapped.drop 8) m).reverse
  if wrapped.length % 8 = 0 ∧ 2 ≤ m ∧ x.1 = wrapInit then some x.2.reverse.flatten else none

/-! ### XTS (IEEE 1619) -/

/-- A tweak times x: the next block's. -/
def xtsNext (t : BitVec 128) : BitVec 128 := if t.getLsbD 127 then (t <<< 1) ^^^ 0x87#128 else t <<< 1

/-- The blocks of a unit through a block function, each between two additions of its tweak. -/
def xtsBlocks (f : List Byte → List Byte) (t : BitVec 128) : List (List Byte) → List Byte
  | [] => []
  | b :: r =>
    let w := wordBytes t
    xorBytes (f (xorBytes b w)) w ++ xtsBlocks f (xtsNext t) r

/-- The first tweak of a unit: its number, encrypted under the tweak half of the key. -/
def xtsTweak (key2 : List Byte) (tweak : Nat) : BitVec 128 := BitVec.ofNat 128 (natLE (aesEncrypt key2 (bytesLE tweak 16)))

/-- A unit of whole blocks encrypted under a key of 64 bytes, data half first, and a unit number. -/
def xtsEncrypt (key : List Byte) (tweak : Nat) (unit : List Byte) : List Byte :=
  xtsBlocks (aesEncrypt (key.take 32)) (xtsTweak (key.drop 32) tweak) (cutInto 16 unit (unit.length / 16))

/-- A unit decrypted. -/
def xtsDecrypt (key : List Byte) (tweak : Nat) (unit : List Byte) : List Byte :=
  xtsBlocks (aesDecrypt (key.take 32)) (xtsTweak (key.drop 32) tweak) (cutInto 16 unit (unit.length / 16))

/-! ### GCM (NIST SP 800-38D) -/

/-- The product in the field of 2^128 elements: the highest bit of a word is the coefficient of 1. -/
def ghashMul (x v : BitVec 128) : Nat → BitVec 128
  | 0 => 0
  | n + 1 => (if x.getLsbD n then v else 0) ^^^ ghashMul x (if v.getLsbD 0 then (v >>> 1) ^^^ (0xe1#128 <<< 120) else v >>> 1) n

/-- The hash of whole blocks under a key. -/
def ghash (h : BitVec 128) (l : List Byte) : BitVec 128 :=
  (cutInto 16 l (l.length / 16)).foldl (fun a b => ghashMul (a ^^^ BitVec.ofNat 128 (natBE b)) h 128) 0

/-- Zeros to the end of a block. -/
def padBlock (l : List Byte) : List Byte := l ++ List.replicate ((16 - l.length % 16) % 16) 0

/-- The keystream of `n` blocks from a counter on. -/
def gcmStream (key iv : List Byte) (ctr : Nat) : Nat → List Byte
  | 0 => []
  | n + 1 => aesEncrypt key (iv ++ bytesBE ctr 4) ++ gcmStream key iv (ctr + 1) n

/-- Bytes encrypted or decrypted with a nonce of 12 bytes. -/
def gcmCrypt (key iv data : List Byte) : List Byte := xorBytes data (gcmStream key iv 2 (ceilDiv data.length 16))

/-- The tag of 16 bytes over additional data and encrypted bytes. -/
def gcmTag (key iv aad cipher : List Byte) : List Byte :=
  let h := BitVec.ofNat 128 (natBE (aesEncrypt key (List.replicate 16 0)))
  let x := ghash h (padBlock aad ++ padBlock cipher ++ bytesBE (8 * aad.length) 8 ++ bytesBE (8 * cipher.length) 8)
  xorBytes (bytesBE x.toNat 16) (aesEncrypt key (iv ++ bytesBE 1 4))

end Sys2Proof.Machine
end

