-- ==== Sys2Proof/Config.lean ====
section
/-! DEFINITION. What the manual leaves open: free values, as constants without a body. Nothing in Lean can evaluate one, so
a statement about one holds for every value. A `Nat` argument named `n` is the count of free values drawn so far
(`State.free`), so that each draw is a fresh value. -/

namespace Sys2Proof

/-- The management controller's local time in µs since it last woke (R18, R609). -/
opaque Config.localTime (n : Nat) : BitVec 48

/-- Whether a second of local time has passed since the last corrected-codeword entry of a counter (R607). -/
opaque Config.secondPassed (n : Nat) : Bool

/-- A block's local time in ms (R18), for the retention and period rules that read it (R296, R383). -/
opaque Config.localMs (n : Nat) : W64

/-- The generators of the lanes (R274 to R277), whose algorithm the manual leaves open: the number of the state a lane starts from, the
recurrence's polynomial, the output function and two numbers of states that show it is not linear, 64 conditioned bits of a core's entropy source, and
their mixing into a state, by its number. -/
opaque Config.laneSeed (n core lane : Nat) : Nat
opaque Config.lanePoly : BitVec 128
opaque Config.laneBits (st : BitVec 128) : W64
opaque Config.laneWitness : Nat × Nat
opaque Config.entropy (n core lane : Nat) : W64
opaque Config.laneMix (st : BitVec 128) (bits : W64) : Nat

/-- A fresh key or secret drawn from the deterministic generator (R541, R542). -/
opaque Config.freshKey (n : Nat) : BitVec 512

/-- The private number of the identity key pair, and the sealing key, that the identity seed gives: the manual names no derivation (R540). -/
opaque Config.identityKey (seed : BitVec 256) : BitVec 448
opaque Config.sealingKey (seed : BitVec 256) : BitVec 256

/-- Marrandun's PCI vendor identifier (R565, R597). -/
opaque Config.vendorId : W16

/-- A fresh nonce of 32 bytes (R547, R565). -/
opaque Config.freshNonce (n : Nat) : BitVec 256

/-- Which of the values within the stated error `vfun` returns at an operand for which the manual gives a bound and not a value (R269): of a lane
width, a function, a rounding attribute and an operand. -/
opaque Config.vfun (width fn rnd : Nat) (x : W64) : W64

/-- The codeword count that a sender announces for a key change (R397). -/
opaque Config.switchCount (n : Nat) : W64

/-- The digest of a chunk as its owner delivers it, whose bytes the manual does not lay out for modes 0 and 2 (R424, R425). -/
opaque Config.deliveredHash (chunk : List Byte) : BitVec 128

/-- The clip factor of a step that the norm gate rejects, which the manual does not give (R450, R451). -/
opaque Config.rejectKappa (sum : W64) : W32

/-- The version, link step, buckets and limits of a joining module's context, which no command gives it (R481). -/
opaque Config.joinField (n which : Nat) : W32

/-- The public key that a vendor or owner section carries (R92). -/
opaque Config.sectionKey (section_ : List Byte) : List Byte

/-- The first of the four consecutive powers that are the roots of the tiers' Reed–Solomon codes (R317). -/
opaque Config.rsFirst : Nat

/-- The polynomial of the field GF(2^10) of the links' code but for its highest term, the first of the 64 consecutive powers that are the code's
roots, and what a decoder changes in a codeword with more than 32 symbol errors, none where it finds it uncorrectable (R393). -/
opaque Config.fecPoly : BitVec 10
opaque Config.fecFirst : Nat
opaque Config.fecChanges (errs : List (Nat × BitVec 10)) : Option (List (Nat × BitVec 10))

/-- The physical location that a tile slot of a partition takes when its tile is placed for the `n`th time, and the keyed hash from locations to
pseudo-channels (R313, R316). -/
opaque Config.location (part slot n : Nat) : Nat
opaque Config.channelHash (key : BitVec 128) (location : Nat) : Nat

/-- The symbol errors of the codewords of a stored tile that an engine of the module reads for itself, for the winch or a tandem, by the partition
and slot that it reads (R317, R318). -/
opaque Config.readErrs (n part slot : Nat) : Machine.CodeErrs

/-- The bytes of a core's array state and of the control section in a ripcord image, which the manual does not lay out (R529). -/
opaque Config.arrayBytes (a b : Machine.ArrayState) : List Byte
opaque Config.controlBytes (c : Machine.Control) : List Byte

/-- What a host copy has moved when it stops before its end: the manual says only that it stays (R520, R558). -/
opaque Config.copied (n : Nat) : List Byte

/-- The public key of an owner, as its section carries it (R87, R92). -/
opaque Config.ownerKey (image : List Byte) : List Byte

/-- The stage that the start-up word shows after a MATE_OK contact has broken, which the manual does not give (R47, R76): a choice among the
stages there are. -/
opaque Config.mateStage (n : Nat) : Nat

/-- Whether the host interface's own rail has settled when the rails have not all settled in time (R79, R106). -/
opaque Config.hostRail (n : Nat) : Bool

/-- The level of an open-drain output while the module runs, for which the manual gives no rule of its own: 0 WAKE_N, 1 CLKREQ_N,
2 SMB_ALERT_N (R57, R64). -/
opaque Config.pinLevel (n which : Nat) : Bool

/-- The statuses of events for which the manual lists no code: 0 the input range (R41), 1 the host link down (R536), 2 a stack throttled (R314),
3 a port held by a register or a test (R395, R587), 4 a core hot (R575). -/
opaque Config.unlistedStatus (which : Nat) : W16

/-- The register offset that event 0x0817 names for a reel's own count of dropped records, which no register shows (R605). -/
opaque Config.reelDropOffset : Nat

/-- What a PLDM sensor or a power register reads that no command gives (R594, R603). -/
opaque Config.sensor (n ident : Nat) : Nat

end Sys2Proof
end

