-- ==== Sys2Proof/Machine/State.lean ====
section
/-! DEFINITION. The state of the module: every register, table, memory, queue, mode and pin the manual gives it, as plain
data, and the module right after reset. -/

namespace Sys2Proof.Machine

/-- The fuses (R94) and the security block's one-time memory: the identity seed and the chain of slot 0 (R540, R544). Assumption 4: the values a module is made with. -/
structure Fuses where
  arrayOff : BitVec 512 := 0
  grade : BitVec 2 := 1
  vendor : BitVec 384 := 0
  owner : BitVec 384 := 0
  ownerLock : Bool := false
  floorBits : W64 := 0
  serial : W64 := 0
  dieRev : Byte := 0
  seed : BitVec 256 := 0
  chain0 : List Byte := []
deriving DecidableEq, Repr, Inhabited

/-- Input, pins and start-up (R38 to R64, R75 to R106). A pin field named `…N` is its level: `true` is high or released. `hxRail` says that the
host interface's rail has settled, so that HX presents its receivers; `stageShown` is what the start-up word shows instead of `stage` where the
manual gives no stage (R47); `published` is the module's report of its enabled arrays and of each disabled one (R6, R95). -/
structure Startup where
  standby : Bool := false
  awake : Bool := false
  switchClosed : Bool := false
  converters : Bool := false
  rails : Bool := false
  stage : Byte := 1
  stageShown : Option Byte := none
  slot : Bool := false
  owner : Bool := false
  degraded : Bool := false
  fullTest : Bool := false
  status : W16 := 0
  site : BitVec 3 := 0
  board : BitVec 3 := 0
  volts : W16 := 0
  thermalTrip : Bool := false
  currentTrip : Bool := false
  mated : Bool := false
  modResetN : Bool := true
  perstN : Bool := true
  flashHoldN : Bool := true
  pwrfailN : Bool := true
  thermN : Bool := true
  wakeN : Bool := true
  clkreqN : Bool := true
  smbAlertN : Bool := true
  hxRail : Bool := false
  flashBusy : Bool := false
  linksDriven : Bool := false
  packed : Bool := false
  tries : List Bool := []
  image : Mem := []
  imageLen : Nat := 0
  testedOff : BitVec 512 := 0
  published : Option (Nat × BitVec 512) := none
  withheld : W32 := 0
  badTethers : W32 := 0
  belowGrade : Bool := false
  retriedStacks : List Nat := []
  retriedBallast : Bool := false
deriving DecidableEq, Repr, Inhabited

/-- The host interface (R503 to R518, R536): rings are keyed by 16 · function + ring. -/
structure Hif where
  linkUp : Bool := false
  speed : BitVec 4 := 0
  width : BitVec 3 := 0
  flit : Bool := false
  event : BitVec 2 := 0
  eventEn : BitVec 2 := 3
  evtRing : BitVec 4 := 0
  evtDrop : W32 := 0
  vfsEnabled : Bool := false
  rings : SMap Ring := []
  funcs : SMap Func := []
  hostOps : List HostOp := []
deriving DecidableEq, Repr, Inhabited

/-- The span controller (R282 to R327): extents are keyed by 2^31 · partition + extent, tiles by 2^39 · partition + slot. -/
structure Spn where
  ready : Bool := false
  hashKey : BitVec 128 := 0
  patrol : Bool := false
  imbal : Bool := false
  throttled : List Nat := []
  event : BitVec 5 := 0
  eventEn : BitVec 5 := 0x1f
  imbSingle : Bool := false
  imbStack : BitVec 4 := 0
  hbmCe : W32 := 0
  balCe : W32 := 0
  ue : W32 := 0
  period : BitVec 5 := 24
  psel : BitVec 5 := 0
  extents : SMap (Option Extent) := []
  tiles : SMap Tile := []
  jobs : List SpanJob := []
  clock : Nat := 0
deriving DecidableEq, Repr, Inhabited

/-- The links (R392 to R431). `waiting` are units of the module's own that wait to be sent, `toDeliver` transfers and gathers that ended
here, `floors` the link step before which an input of a bucket is late (R497). -/
structure Lnk where
  event : BitVec 6 := 0
  eventEn : BitVec 6 := 0x3f
  wdog : BitVec 10 := 50
  psel : BitVec 5 := 0
  ports : SMap Port := []
  buckets : SMap (List BktDef) := []
  reductions : List Reduction := []
  digests : List DigestRec := []
  choices : List Choice := []
  waiting : List WaitUnit := []
  toDeliver : List TransferUnit := []
  floors : SMap (Option W32) := []
deriving DecidableEq, Repr, Inhabited

/-- The gondola table and the reels (R353, R382, R389). -/
structure Gon where
  ready : Bool := false
  event : BitVec 4 := 0
  eventEn : BitVec 4 := 0xf
  reelDrop : W32 := 0
  base : BitVec 384 := 0
  sel : BitVec 14 := 0
  table : SMap Gondola := []
  reels : SMap Reel := []
deriving DecidableEq, Repr, Inhabited

/-- The security block (R539 to R568): `identity` is the private number of the identity key pair and `sealing` the sealing key, once derived
(R540); envelopes are keyed by 16,384 · partition + index, index 0 the
partition's own; `sessions` are the open SPDM sessions, newest first. -/
structure Sec where
  ready : Bool := false
  drbgOk : Bool := false
  identity : Option Nat := none
  sealing : Option (BitVec 256) := none
  sessions : List Session := []
  event : BitVec 4 := 0
  eventEn : BitVec 4 := 0xf
  reports : W32 := 0
  authFail : W32 := 0
  psel : BitVec 5 := 0
  chain1 : List Byte := []
  bindings : List Binding := []
  envs : SMap (Option Env) := []
deriving DecidableEq, Repr, Inhabited

/-- The ladder states that LADDER names (R577, R579), lowest last; Slack is Aloft with every core idle. -/
inductive Rung where
  | aloft | grounded | folded | packed
deriving DecidableEq, Repr, Inhabited

/-- A ladder move in progress (R579, R582). -/
structure LadderMove where
  ref : Option CmdRef
  target : Rung
  save : Bool
deriving DecidableEq, Repr, Inhabited

/-- Power (R571 to R596). -/
structure Pwr where
  low : Rung := .aloft
  move : Option LadderMove := none
  test : Option SelfTest := none
  event : BitVec 3 := 0
  eventEn : BitVec 3 := 5
  vmax : BitVec 7 := 30
  hotCore : W16 := 0
  maxC : Byte := 0
  holds : W32 := 0
  stSig : W64 := 0
  stExp : W64 := 0
  psel : BitVec 5 := 0
  csel : Byte := 0
deriving DecidableEq, Repr, Inhabited

/-- A PLDM firmware update (R601, R602). -/
structure Update where
  slot : Bool
  transferred : Bool := false
  verified : Option W16 := none
deriving DecidableEq, Repr, Inhabited

/-- Management (R597 to R613). `nvLog` is the non-volatile part of the log (R608); logs are newest first. -/
structure Mgt where
  log : List LogEntry := []
  nvLog : List LogEntry := []
  logNext : W32 := 0
  logSel : W32 := 0
  wakes : W16 := 0
  receiver : Option Byte := none
  unacked : List (W32 × Nat) := []
  update : Option Update := none
  psel : BitVec 5 := 0
  eidSmbus : Byte := 0
  eidVdm : Byte := 0
deriving DecidableEq, Repr, Inhabited

/-- The state of the module. `pending` is the queue of commands waiting, first in, first out. `free` counts the free values
drawn (assumption 2) and `outbox` records what the module has emitted, newest first (assumption 3): both are the model's own. -/
structure State where
  pending : List Instr := []
  fuses : Fuses := {}
  flash : Mem := []
  su : Startup := {}
  hif : Hif := {}
  tetPsel : BitVec 5 := 0
  tetCsel : Byte := 0
  cores : SMap Core := []
  mesh : List MeshMsg := []
  parts : SMap Part := []
  spn : Spn := {}
  lnk : Lnk := {}
  gon : Gon := {}
  sec : Sec := {}
  pwr : Pwr := {}
  mgt : Mgt := {}
  free : Nat := 0
  outbox : List Out := []
deriving DecidableEq, Repr

/-- Why the module model stops. -/
inductive Fault where
  /-- Raised by a command or event that names a unit the module does not have: a core above 255, a port above 17, a
  partition above 31, a ring a function does not have, an HBM stack above 11, an array other than A and B. The manual gives
  no such unit (R5, R8, R503). SAFE: the model stops where the hardware has nothing to act on. -/
  | noSuchUnit
deriving DecidableEq, Repr

/-- Why the model gives a command no meaning. -/
inductive Refusal where
  /-- Raised only by an arm of the dispatch whose command has no meaning yet. SAFE. -/
  | notModelled (mnemonic : String)
deriving DecidableEq, Repr

/-- The module before the input has risen: every register at the reset value its register map gives (R75, R325, R389,
R429, R536, R537, R568, R594, R613), every table empty, nothing powered. Where the manual gives no value, assumptions 4
and 5 name the one taken. -/
def State.reset : State := {}

end Sys2Proof.Machine
end

