-- ==== Sys2Proof/Machine/Ops.lean ====
section
/-! DEFINITION. The named operations over the state that every family shares: reading and writing a unit, drawing a free
value, logging and raising events, writing completion entries, taking a host command from its ring and completing it. -/

namespace Sys2Proof.Machine

/-- What a command or event answers. -/
abbrev Res := Host.Outcome State Fault Refusal

/-! ### Units -/

/-- A core (R8, R9). -/
def State.core (s : State) (k : Nat) : Core := SMap.get Core.blank s.cores k

/-- Replace a core. -/
def State.setCore (s : State) (k : Nat) (c : Core) : State := { s with cores := SMap.set Core.blank s.cores k c }

/-- Change a core. -/
def State.modCore (s : State) (k : Nat) (f : Core → Core) : State := s.setCore k (f (s.core k))

/-- A partition (R115). -/
def State.part (s : State) (n : Nat) : Part := SMap.get Part.blank s.parts n

/-- Replace a partition. -/
def State.setPart (s : State) (n : Nat) (p : Part) : State := { s with parts := SMap.set Part.blank s.parts n p }

/-- Change a partition. -/
def State.modPart (s : State) (n : Nat) (f : Part → Part) : State := s.setPart n (f (s.part n))

/-- A link port (R393). -/
def State.port (s : State) (p : Nat) : Port := SMap.get Port.blank s.lnk.ports p

/-- Replace a port. -/
def State.setPort (s : State) (p : Nat) (x : Port) : State :=
  { s with lnk := { s.lnk with ports := SMap.set Port.blank s.lnk.ports p x } }

/-- Change a port. -/
def State.modPort (s : State) (p : Nat) (f : Port → Port) : State := s.setPort p (f (s.port p))

/-- The key of a ring in the ring table. -/
def RingId.key (o : RingId) : Nat := 16 * o.fn + o.ring

/-- The rings that exist: PF 0 to 15, each VF 0 to 3 (R503, R508). -/
def RingId.valid (o : RingId) : Bool := decide (o.fn ≤ 32) && decide (o.ring < (if o.fn = 0 then 16 else 4))

/-- A ring pair. -/
def State.ring (s : State) (o : RingId) : Ring := SMap.get Ring.blank s.hif.rings o.key

/-- Replace a ring pair. -/
def State.setRing (s : State) (o : RingId) (r : Ring) : State :=
  { s with hif := { s.hif with rings := SMap.set Ring.blank s.hif.rings o.key r } }

/-- A function's PCIe side. -/
def State.func (s : State) (fn : Nat) : Func := SMap.get Func.blank s.hif.funcs fn

/-- Replace a function's PCIe side. -/
def State.setFunc (s : State) (fn : Nat) (f : Func) : State :=
  { s with hif := { s.hif with funcs := SMap.set Func.blank s.hif.funcs fn f } }

/-- A gondola descriptor (R353). -/
def State.gondola (s : State) (g : Nat) : Gondola := SMap.get Gondola.blank s.gon.table g

/-- Replace a descriptor. -/
def State.setGondola (s : State) (g : Nat) (d : Gondola) : State :=
  { s with gon := { s.gon with table := SMap.set Gondola.blank s.gon.table g d } }

/-- A reel (R382). -/
def State.reel (s : State) (i : Nat) : Reel := SMap.get Reel.blank s.gon.reels i

/-- Replace a reel. -/
def State.setReel (s : State) (i : Nat) (r : Reel) : State :=
  { s with gon := { s.gon with reels := SMap.set Reel.blank s.gon.reels i r } }

/-- The definitions of a bucket index (R409). -/
def State.bucket (s : State) (i : Nat) : List BktDef := SMap.get [] s.lnk.buckets i

/-- Replace the definitions of a bucket index. -/
def State.setBucket (s : State) (i : Nat) (l : List BktDef) : State :=
  { s with lnk := { s.lnk with buckets := SMap.set [] s.lnk.buckets i l } }

/-- The partition a core belongs to: the one whose kite mask holds the core's kite (R12, R115). -/
def State.partOf (s : State) (k : Nat) : Option Nat :=
  (List.range 32).find? fun n => (s.part n).st != .none && bit (s.part n).kites (k / 8)

/-- The cores of a kite mask, by rising index (R12). -/
def coresOf (kites : W32) : List Nat := (List.range 256).filter fun k => bit kites (k / 8)

/-- The cores of a partition, by rising index. -/
def State.coresIn (s : State) (n : Nat) : List Nat := coresOf (s.part n).kites

/-- Change every core of a list. -/
def State.modCores (s : State) (l : List Nat) (f : Nat → Core → Core) : State :=
  l.foldl (fun s k => s.modCore k (f k)) s

/-- A core index that exists. -/
def coreOk (k : Nat) : Bool := decide (k < 256)

/-- A partition number that exists. -/
def partOk (n : Nat) : Bool := decide (n < 32)

/-- A port number that exists. -/
def portOk (p : Nat) : Bool := decide (p < 18)

/-- Next where the named unit exists; the fault otherwise. -/
def onUnit (ok : Bool) (t : State) : Res := if ok then .next t else .fault .noSuchUnit

/-! ### Free values -/

/-- One free value is drawn: the count moves on, so that the next draw is fresh. -/
def State.tick (s : State) : State := { s with free := s.free + 1 }

/-- Something leaves the module. -/
def State.emit (s : State) (o : Out) : State := { s with outbox := o :: s.outbox }

/-- The status codes of the module, from the tables of the chapters and R615: no other code is reported (R614). -/
def statusCodes : List Nat :=
  [0x0101, 0x0102, 0x0103, 0x0104, 0x0105, 0x0106] ++
  [0x0201, 0x0202, 0x0210, 0x0211, 0x0212, 0x0213, 0x0214, 0x0215, 0x0216, 0x0217, 0x0220, 0x0221, 0x0222] ++
  [0x0223, 0x0224, 0x0225, 0x0226, 0x0227, 0x0230, 0x0231, 0x0232, 0x0233, 0x0234, 0x0235, 0x0236, 0x0237] ++
  [0x0240, 0x0241, 0x0242, 0x0243, 0x0244, 0x0250, 0x0251, 0x0252, 0x0253, 0x0254, 0x0255, 0x0260, 0x0261] ++
  [0x0262, 0x0263, 0x0264, 0x0265, 0x0266, 0x0267] ++
  [0x0301, 0x0302, 0x0310, 0x0311, 0x0312, 0x0313, 0x0314, 0x0315, 0x0316, 0x0317, 0x0318, 0x0319, 0x0320] ++
  [0x0321, 0x0322, 0x0323] ++
  [0x0401, 0x0402, 0x0403, 0x0404, 0x0410, 0x0411, 0x0412, 0x0420, 0x0421, 0x0422, 0x0424, 0x0430, 0x0431] ++
  [0x0432, 0x0433, 0x0434, 0x0435, 0x0436, 0x0437] ++
  [0x0501, 0x0502, 0x0503, 0x0510, 0x0511, 0x0512, 0x0513, 0x0514, 0x0515, 0x0516, 0x0517, 0x0518, 0x0519] ++
  [0x051a, 0x0520, 0x0521, 0x0522, 0x0523, 0x0524, 0x0530, 0x0531, 0x0532, 0x0533, 0x0534, 0x0535] ++
  [0x0601, 0x0602, 0x0603, 0x0604, 0x0605, 0x0610, 0x0611, 0x0612, 0x0613, 0x0614, 0x0615, 0x0616, 0x0617] ++
  [0x0618, 0x0619, 0x061a, 0x061b, 0x061c, 0x061d, 0x061e, 0x061f, 0x0620, 0x0621, 0x0622, 0x0623] ++
  [0x0701, 0x0702, 0x0703, 0x0710, 0x0711, 0x0712, 0x0713, 0x0714, 0x0715, 0x0716, 0x0718, 0x0719] ++
  [0x0801, 0x0802, 0x0803, 0x0806, 0x0807, 0x0810, 0x0811, 0x0812, 0x0813, 0x0814, 0x0815, 0x0817, 0x0818] ++
  [0x0901, 0x0902, 0x0903, 0x0904, 0x0905, 0x0906, 0x0907, 0x0908, 0x0909, 0x090a, 0x090b, 0x090c, 0x090d] ++
  [0x090e, 0x090f, 0x0910, 0x0911, 0x0912, 0x0913, 0x0914, 0x0915, 0x0916, 0x0917, 0x0918, 0x0919]

/-- The code of an event to which the manual gives none: a free value among the codes there are (R614). -/
def unlistedCode (which : Nat) : Nat :=
  statusCodes.getD ((Config.unlistedStatus which).toNat % statusCodes.length) 0x0101

/-! ### Interrupts (R518) -/

/-- Whether a function may write to host memory: link active, out of reset, not halted, bus mastering enabled (R56, R106, R507). -/
def State.canPost (s : State) (fn : Nat) : Bool := s.hif.linkUp && s.su.perstN && s.su.stage != 0x0e && (s.func fn).busMaster

/-- A vector fires: sent, held pending while masked or while nothing may be posted, or nothing while MSI-X is disabled (R518). -/
def State.fire (s : State) (fn vec : Nat) : State :=
  let f := s.func fn
  if !f.msixEnable then s
  else if bit f.masked vec || !s.canPost fn then s.setFunc fn { f with pendingVec := setBit f.pendingVec vec }
  else s.emit (.msix fn vec)

/-- Send the pending vector `vec` of a function if it may now be sent (R507, R518). -/
def State.firePending (s : State) (fn vec : Nat) : State :=
  let f := s.func fn
  if f.msixEnable && bit f.pendingVec vec && !bit f.masked vec && s.canPost fn then
    (s.setFunc fn { f with pendingVec := clearBit f.pendingVec vec }).emit (.msix fn vec)
  else s

/-- The vector of a ring (R518). -/
def RingId.vector (o : RingId) : Nat := if o.fn = 0 then 1 + o.ring else o.ring

/-! ### Completion entries (R508 to R518) -/

/-- The entries of a ring, 2^LOG2; LOG2 outside 4 to 16 acts as 4 (R508, R536). -/
def Ring.size (r : Ring) : Nat :=
  if 4 ≤ r.log2.toNat && r.log2.toNat ≤ 16 then 2 ^ r.log2.toNat else 16

/-- Completion entries reserved for commands of the present enabling that have not been answered (R510). -/
def Ring.reserved (r : Ring) : Nat :=
  (r.fetched.filter fun f => f.1 = r.epoch).length + (r.running.filter fun e => e = r.epoch).length
    + (r.waiting.filter fun e => e.kind = 1).length

/-- Room for an entry that no reservation covers: fewer than 2^LOG2 - 1 await return (R508, R510). -/
def Ring.room (r : Ring) : Bool := decide (r.entries.length + r.reserved + 1 < r.size)

/-- Write one entry at the completion tail, with the phase bit of this pass, and count it towards the vector (R513, R518). -/
def State.putEntry (s : State) (o : RingId) (e : CplEntry) : State :=
  let r := s.ring o
  let e := { e with phase := r.phase }
  let last := r.cplTail.toNat + 1 = r.size
  let fires := decide (r.unsignalled + 1 ≥ max 1 r.coalCnt.toNat)
  let r' := { r with
    entries := r.entries ++ [e]
    cplTail := if last then 0 else r.cplTail + 1
    phase := if last then !r.phase else r.phase
    unsignalled := if fires then 0 else r.unsignalled + 1 }
  let t := (s.setRing o r').emit (.cplWrite o.fn o.ring r.cplTail.toNat e)
  if fires then t.fire o.fn o.vector else t

/-- Write what waits for a ring, as far as it may be written: answers to commands first, whose entries are reserved, then the
others in order while there is room (R510, R516). -/
def State.flush (s : State) (o : RingId) : State :=
  let r := s.ring o
  if s.canPost o.fn && r.enable then
    let t := (r.waiting.filter fun e => e.kind = 1).foldl (fun t e => t.putEntry o e) (s.setRing o { r with waiting := [] })
    (r.waiting.filter fun e => e.kind ≠ 1).foldl
      (fun t e => if (t.ring o).room then t.putEntry o e
        else t.setRing o { t.ring o with waiting := (t.ring o).waiting ++ [e] }) t
  else s

/-- Put an entry that answers no command behind those waiting for a ring, or drop it (R516). -/
def State.enqueueRaw (s : State) (o : RingId) (e : CplEntry) : State :=
  let r := s.ring o
  if (r.waiting.filter fun e => e.kind ≠ 1).length < 4096 then
    (s.setRing o { r with waiting := r.waiting ++ [e] }).flush o
  else
    let t := s.setRing o { r with dropped := true }
    { t with hif := { t.hif with evtDrop := stick t.hif.evtDrop, event := setBit t.hif.event 1 } }

/-! ### The error log (R607 to R611) -/

/-- A condition to log and report: its status, the partition it names, and its words (R609). -/
structure Ev where
  status : Nat
  part : Option Nat := none
  words : List Nat := []
deriving DecidableEq, Repr, Inhabited

/-- Up to six words, 8 bytes each, as 48 detail bytes (R609). -/
def detailOf : List Nat → BitVec 384
  | [] => 0
  | w :: r => BitVec.ofNat 384 (w % 2 ^ 64) ||| (detailOf r <<< 64)

/-- The class of a status (R610); trips and the statuses a start-up halts with are Fatal and are given as such. -/
def classOf (status : Nat) : Nat :=
  if status ∈ [0x0000, 0x0250, 0x0411, 0x0535, 0x0818] then 0
  else if status = 0x0810 then 1
  else if status ∈ [0x0201, 0x0202, 0x0401, 0x0402, 0x0403, 0x0404, 0x0412, 0x0702, 0x0703, 0x0713] then 3
  else if status ∈ [0x0215, 0x0254, 0x0323, 0x0424, 0x0524, 0x0623, 0x0718, 0x0817] then 4
  else 2

/-- The partition byte of an entry: 0xff for the module (R513, R609). -/
def partByte : Option Nat → Byte
  | none => 0xff#8
  | some n => BitVec.ofNat 8 n

/-- Log an entry, keep classes Degradation and Fatal in the non-volatile store, and send classes Fault and above to the event
receiver if one is set (R607, R608, R610, R611). -/
def State.log (s : State) (e : Ev) (cls : Nat) : State :=
  let le : LogEntry := {
    number := s.mgt.logNext, wake := s.mgt.wakes, cls := BitVec.ofNat 8 cls, part := partByte e.part
    status := BitVec.ofNat 16 e.status, time := Config.localTime s.free, detail := detailOf e.words }
  let sent := decide (2 ≤ cls) && s.mgt.receiver.isSome
  let m := { s.mgt with
    log := (le :: s.mgt.log).take 1024
    nvLog := if cls = 3 ∨ cls = 5 then (le :: s.mgt.nvLog).take 256 else s.mgt.nvLog
    logNext := s.mgt.logNext + 1
    unacked := if sent then s.mgt.unacked ++ [(le.number, 1)] else s.mgt.unacked }
  let t := { s with mgt := m }.tick
  if sent then t.emit (.pldmEvent le) else t

/-- The kind 7 entry of an event (R513, R514). -/
def eventEntry (e : Ev) : CplEntry :=
  { kind := 7, status := BitVec.ofNat 16 e.status, part := partByte e.part, detail := detailOf e.words }

/-- The PF completion ring that HIF_EVT_RING names (R515). -/
def State.evtRing (s : State) : RingId := { fn := 0, ring := s.hif.evtRing.toNat }

/-- Where an entry of a partition goes besides the PF ring: VF n's ring 0, if that ring is enabled (R515). -/
def State.vfRing (s : State) (e : Option Nat) : Option RingId :=
  match e with
  | none => none
  | some n =>
    let o : RingId := { fn := n + 1, ring := 0 }
    if (s.ring o).enable then some o else none

/-- Post an entry that answers no command, without counting a stuck drop counter (R515, R518). -/
def State.postRaw (s : State) (part : Option Nat) (e : CplEntry) : State :=
  let t := s.enqueueRaw s.evtRing e
  let t := match s.vfRing part with
    | none => t
    | some o => t.enqueueRaw o e
  if e.kind = 7 && part.isNone then t.fire 0 0 else t

/-- Post an entry that answers no command (R515); a drop counter that reaches its largest value raises 0x0817 once (R605). -/
def State.post (s : State) (part : Option Nat) (e : CplEntry) : State :=
  let t := s.postRaw part e
  if t.hif.evtDrop = BitVec.allOnes 32 && s.hif.evtDrop ≠ BitVec.allOnes 32 then
    let ev : Ev := { status := 0x0817, words := [0x01, 0x018] }
    (t.log ev 4).postRaw none (eventEntry ev)
  else t

/-- Raise an event: log it, and post it if its enable bit lets it (R607, R515). -/
def State.raise (s : State) (e : Ev) (enabled : Bool := true) : State :=
  let t := s.log e (classOf e.status)
  if enabled then t.post e.part (eventEntry e) else t

/-- Set a bit of HIF_EVENT and raise its event (R536). -/
def State.hifEvent (s : State) (i : Nat) (e : Ev) : State :=
  { s with hif := { s.hif with event := setBit s.hif.event i } }.raise e (bit s.hif.eventEn i)

/-- Set a bit of SPN_EVENT and raise its event (R325). -/
def State.spnEvent (s : State) (i : Nat) (e : Ev) : State :=
  { s with spn := { s.spn with event := setBit s.spn.event i } }.raise e (bit s.spn.eventEn i)

/-- Set a bit of LNK_EVENT and raise its event (R429). -/
def State.lnkEvent (s : State) (i : Nat) (e : Ev) : State :=
  { s with lnk := { s.lnk with event := setBit s.lnk.event i } }.raise e (bit s.lnk.eventEn i)

/-- Set a bit of GON_EVENT and raise its event (R389). -/
def State.gonEvent (s : State) (i : Nat) (e : Ev) : State :=
  { s with gon := { s.gon with event := setBit s.gon.event i } }.raise e (bit s.gon.eventEn i)

/-- Set a bit of SEC_EVENT and raise its event (R568). -/
def State.secEvent (s : State) (i : Nat) (e : Ev) : State :=
  { s with sec := { s.sec with event := setBit s.sec.event i } }.raise e (bit s.sec.eventEn i)

/-- Set a bit of PWR_EVENT and raise its event (R594). -/
def State.pwrEvent (s : State) (i : Nat) (e : Ev) : State :=
  { s with pwr := { s.pwr with event := setBit s.pwr.event i } }.raise e (bit s.pwr.eventEn i)

/-- Room has returned to a ring: write what waits, and say so if entries were dropped (R516). -/
def State.settle (s : State) (o : RingId) : State :=
  let t := s.flush o
  let r := t.ring o
  if r.dropped && decide ((r.waiting.filter fun e => e.kind ≠ 1).length < 4096) then
    (t.setRing o { r with dropped := false }).raise { status := 0x0105 } (bit t.hif.eventEn 1)
  else t

/-- A corrected-codeword entry: at most one a counter a second of local time (R607). -/
def State.logCorrected (s : State) (offset port value : Nat) : State :=
  let t := s.tick
  if Config.secondPassed s.free then t.log { status := 0x0810, words := [offset, port, value] } 1 else t

/-! ### Performance counters (R604, R606) -/

/-- Add to a performance counter of a partition; one that reaches its largest value sticks and sets its flag. -/
def Part.count (p : Part) (k n : Nat) : Part :=
  let v := stickAdd (SMap.get 0 p.perf k) n
  { p with
    perf := SMap.set 0 p.perf k v
    since := SMap.set 0 p.since k (stickAdd (SMap.get 0 p.since k) n)
    ovf := if v = BitVec.allOnes 64 then setBit p.ovf k else p.ovf }

/-- Add to a performance counter of the partition a core belongs to. -/
def State.count (s : State) (part : Option Nat) (k n : Nat) : State :=
  match part with
  | none => s
  | some p => s.modPart p fun x => x.count k n

/-! ### Host commands (R510 to R515) -/

/-- The opcodes of the manual's opcode tables. -/
def opcodes : List Nat :=
  [0x08, 0x09, 0x10, 0x11, 0x12, 0x18, 0x19, 0x1a, 0x20, 0x21, 0x22, 0x23] ++
  [0x30, 0x31, 0x32, 0x33, 0x34, 0x35, 0x38, 0x39] ++
  [0x40, 0x41, 0x42, 0x43, 0x44, 0x45, 0x46, 0x47, 0x48] ++
  [0x50, 0x51, 0x52, 0x53, 0x54, 0x58, 0x59, 0x5a, 0x5b, 0x5c, 0x5d, 0x5e] ++
  [0x60, 0x61, 0x62, 0x63, 0x64, 0x65, 0x66, 0x67, 0x68, 0x70, 0x71]

/-- Where a command carries its partition field, by opcode; none for a command without one (R513 and the command layouts). -/
def partFieldAt (op : Nat) : Option Nat :=
  if op ≤ 0x23 then some 0x24
  else if op ≤ 0x39 then some 0x1c
  else if op ∈ [0x40, 0x45, 0x47, 0x48] then some 0x24
  else if op ≤ 0x46 then none
  else if op ≤ 0x54 then some 0x12
  else if op ≤ 0x5e then some 0x1c
  else if op ∈ [0x60, 0x61, 0x70, 0x71] then none
  else if op ≤ 0x68 then some 0x1c
  else none

/-- The commands a VF's rings accept (R512). -/
def vfOpcodes : List Nat := [0x08, 0x09, 0x10, 0x11, 0x12, 0x38, 0x39, 0x47, 0x54]

/-- `n` bytes of a command at a byte offset, little-endian. -/
def cmdField (c : BitVec 512) (off n : Nat) : Nat := (c.extractLsb' (8 * off) (8 * n)).toNat

/-- Every byte of a command in `[off, off + n)` is 0. -/
def cmdZero (c : BitVec 512) (off n : Nat) : Bool := cmdField c off n == 0

/-- A command's opcode (R511). -/
def cmdOp (c : BitVec 512) : Nat := cmdField c 0 1

/-- The partition byte of a command's completion (R513). -/
def cmdPart (c : BitVec 512) : Byte :=
  if cmdOp c ∈ opcodes then
    match partFieldAt (cmdOp c) with
    | none => 0xff
    | some off => BitVec.ofNat 8 (cmdField c off 1)
  else 0xff

/-- What a command's completion needs of it. -/
def cmdRef (o : RingId) (epoch : Nat) (c : BitVec 512) : CmdRef :=
  { ring := o, epoch, tag := BitVec.ofNat 32 (cmdField c 4 4), opcode := BitVec.ofNat 8 (cmdOp c), part := cmdPart c }

/-- The oldest fetched command of a ring, if it holds the opcode and its fence allows it to start (R510). -/
def State.front (s : State) (o : RingId) (op : Nat) : Option (CmdRef × BitVec 512) :=
  match (s.ring o).fetched with
  | [] => none
  | (ep, c) :: _ =>
    if cmdOp c = op && (!(bit c 8) || (s.ring o).running.isEmpty) then some (cmdRef o ep c, c) else none

/-- A ring whose oldest fetched command has started. -/
def Ring.begin (r : Ring) : Ring :=
  match r.fetched with
  | [] => r
  | (ep, _) :: rest => { r with fetched := rest, running := ep :: r.running }

/-- Complete a command: a kind 1 entry, unless its ring has been disabled since it was fetched (R509, R513, R515). -/
def State.complete (s : State) (ref : CmdRef) (status : Nat) (result : Nat := 0) : State :=
  let r := s.ring ref.ring
  let e : CplEntry := {
    kind := 1, status := BitVec.ofNat 16 status, tag := ref.tag, part := ref.part, opcode := ref.opcode
    detail := BitVec.ofNat 384 (result % 2 ^ 64) }
  let live := r.enable && decide (r.epoch = ref.epoch)
  (s.setRing ref.ring { r with
    running := r.running.erase ref.epoch
    waiting := if live then r.waiting ++ [e] else r.waiting }).flush ref.ring

/-- Complete a command that may be absent (a request that came from management has none). -/
def State.completeOpt (s : State) (ref : Option CmdRef) (status : Nat) (result : Nat := 0) : State :=
  match ref with
  | none => s
  | some r => s.complete r status result

/-- Grounded or Folded, or on the way there (R584, R593). -/
def State.lowLadder (s : State) : Bool :=
  s.pwr.low != .aloft ||
    (match s.pwr.move with
     | some m => m.target != .aloft
     | none => false)

/-- The commands that Grounded and Folded carry out (R584). -/
def ladderOpcodes : List Nat := [0x68, 0x70, 0x71]

/-- Start the ring's oldest fetched command if it is the row's: `f` is its effect. In Grounded and Folded every command but
LADDER, SELFTEST and ATTEST completes with 0x0711 (R584). -/
def hostCommand (o : RingId) (op : Nat) (s : State) (f : CmdRef → BitVec 512 → State → State) : Res :=
  onUnit o.valid (match s.front o op with
    | none => s
    | some (ref, c) =>
      let t := s.setRing o (s.ring o).begin
      if t.lowLadder && !(op ∈ ladderOpcodes) then t.complete ref 0x0711 else f ref c t)

/-- The first status of a list of checks that fails. -/
def firstFail : List (Bool × Nat) → Option Nat
  | [] => none
  | (bad, st) :: r => if bad then some st else firstFail r

/-- A command refused with the first failing check's status, or carried out. -/
def State.checked (s : State) (ref : CmdRef) (checks : List (Bool × Nat)) (f : State → State) : State :=
  match firstFail checks with
  | some st => s.complete ref st
  | none => f s

end Sys2Proof.Machine
end

