-- ==== Sys2Proof/Machine/PartOps.lean ====
section
/-! DEFINITION. Operations on partitions that start-up, commands and spool boundaries share: ranks, kites and creation. -/

namespace Sys2Proof.Machine

/-- The key of a partition's envelope in the envelope table. -/
def envKey (part idx : Nat) : Nat := 16384 * part + idx

/-- A partition holds an envelope index: 0, its own, or a tenant envelope it has created (R323, R552). -/
def State.envHeld (s : State) (part idx : Nat) : Bool :=
  idx == 0 || (decide (idx < 16384) && (SMap.get none s.sec.envs (envKey part idx)).isSome)

/-- The partition exists. -/
def State.hasPart (s : State) (n : Nat) : Bool := decide (n < 32) && decide ((s.part n).st ≠ .none)

/-- The checks that a command naming a partition begins with: its fields, with the status of its chapter; that the partition exists;
that it is not being built or deleted (R524, R525). -/
def State.partChecks (s : State) (n : Nat) (fieldsOk : Bool) (bad : Nat) : List (Bool × Nat) :=
  [(!fieldsOk || !partOk n, bad), (!s.hasPart n, 0x0223),
   (decide ((s.part n).st = .restoring) || decide ((s.part n).st = .deleting), 0x0230)]

/-- A command of a PF ring names a locked partition (R556). -/
def State.lockedAt (s : State) (n : Nat) (ref : CmdRef) : Bool := (s.part n).locked && ref.ring.fn == 0

/-- A partition maps read-only extents of a locked partition whose share mask leaves it out (R556). -/
def State.shareBars (s : State) (owner n : Nat) : Bool := (s.part owner).locked && !bit (s.part owner).share n

/-- A partition to which nothing from outside is delivered: it is Frozen or Saving (R528). -/
def State.shut (s : State) (n : Nat) : Bool := decide ((s.part n).st = .frozen) || decide ((s.part n).st = .saving)

/-- A kite of a mask is under test at drain (R587, R593). -/
def State.drainTested (s : State) (kites : W32) : Bool := s.pwr.test.any fun t => t.kind == 0 && t.atDrain && bit kites t.unit

/-- A core's place in a kite mask: how many cores of it have a smaller index (R115). -/
def rankIn (kites : W32) (k : Nat) : Nat := ((coresOf kites).filter fun j => decide (j < k)).length

/-- N of a kite mask (R115). -/
def coreCount (kites : W32) : Nat := 8 * popCount kites

/-- The kites that no partition may take: those in a partition or reserved by a held resize, those withheld by self-test,
and the kite under test (R96, R521, R523, R593). -/
def State.kitesTaken (s : State) : W32 :=
  let parts := (List.range 32).foldl (fun m n =>
    let p := s.part n
    if p.st = .none then m else m ||| p.kites ||| (match p.resize with
      | none => 0
      | some r => r.kites)) 0#32
  let test := match s.pwr.test with
    | none => 0#32
    | some t => if t.kind = 0 then setBit 0#32 t.unit else 0
  parts ||| s.su.withheld ||| test

/-- The shares of the existing partitions other than `n`, summed (R91). -/
def State.shareSum (s : State) (n : Nat) (f : Part → Nat) : Nat :=
  (List.range 32).foldl (fun a m => if m ≠ n ∧ (s.part m).st ≠ .none then a + f (s.part m) else a) 0

/-- A core that comes to a partition: idle, no spool held, no channel open; its store, registers and slots as they were. -/
def Core.join (c : Core) (rank n : Nat) : Core :=
  { c with run := .idle, inactive := .empty, gen := none, rank, n, chans := [], pc := 0, passes := 0, loops := [] }

/-- What stays of a partition number whose partition is gone: the fields that registers hold, the performance counters among them, which only
MGT_P_CLR and the next creation clear (R325, R594, R604, R613). -/
def Part.regs (p : Part) : Part :=
  { policy := p.policy, nearReq := p.nearReq, csel := p.csel, cntHi := p.cntHi, poisonRead := p.poisonRead, perf := p.perf, ovf := p.ovf }

/-- Create a partition: Running, no spool loaded, job tag 0, its counters clear, its own envelope drawn (R102, R521, R552, R604). -/
def State.createPartition (s : State) (n : Nat) (kites : W32) (hbm ballast link : Byte) : State :=
  let t := s.setPart n { (s.part n).regs with st := .running, kites, hbm, ballast, link, perf := [], ovf := 0 }
  let t := t.modCores (coresOf kites) fun k c => c.join (rankIn kites k) (coreCount kites)
  { t with sec := { t.sec with envs := SMap.set none t.sec.envs (envKey n 0) (some { key := Config.freshKey t.free }) } }.tick

end Sys2Proof.Machine
end

