-- ==== Sys2Proof/Machine/Ecc.lean ====
section
/-! DEFINITION. The elliptic curve brainpoolP384r1 that the manual names (R87, R539, R565), with ECDSA and ECDH on it, computed in full. The
curve's constants are those of its standard, RFC 5639 (assumption 80). -/

namespace Sys2Proof.Machine

/-! ### Arithmetic modulo a prime -/

/-- `b` to the power `e` modulo `m`, for an exponent of at most `n` bits. -/
def powMod (m b : Nat) : Nat → Nat → Nat
  | 0, _ => 1 % m
  | n + 1, e =>
    let r := powMod m (b * b % m) n (e / 2)
    if e % 2 = 1 then b * r % m else r

/-- The inverse of `x` modulo a prime of 384 bits. -/
def invMod (m x : Nat) : Nat := powMod m (x % m) 384 (m - 2)

/-- `x - y` modulo `m`. -/
def subMod (m x y : Nat) : Nat := (x + m - y % m) % m

/-! ### The curve y² = x³ + ax + b -/

def curveP : Nat := 0x8cb91e82a3386d280f5d6f7e50e641df152f7109ed5456b412b1da197fb71123acd3a729901d1a71874700133107ec53
def curveA : Nat := 0x7bc382c63d8c150c3c72080ace05afa0c2bea28e4fb22787139165efba91f90f8aa5814a503ad4eb04a8c7dd22ce2826
def curveB : Nat := 0x04a8c7dd22ce28268b39b55416f0447c2fb77de107dcd2a62e880ea53eeb62d57cb4390295dbc9943ab78696fa504c11
def curveGx : Nat := 0x1d1c64f068cf45ffa2a63a81b7c13f6b8847a3e77ef14fe3db7fcafe0cbd10e8e826e03436d646aaef87b2e247d4af1e
def curveGy : Nat := 0x8abe1d7520f9c2a45cb1eb8e95cfd55262b70b29feec5864e19c054ff99129280e4646217791811142820341263c5315
/-- The order of the base point. -/
def curveN : Nat := 0x8cb91e82a3386d280f5d6f7e50e641df152f7109ed5456b31f166e6cac0425a7cf3ab6af6b7fc3103b883202e9046565

/-- A point as (x / z², y / z³); z = 0 is the point at infinity. -/
structure Point where
  x : Nat
  y : Nat
  z : Nat
deriving DecidableEq, Repr, Inhabited

def Point.infinity : Point := { x := 1, y := 1, z := 0 }
def Point.base : Point := { x := curveGx, y := curveGy, z := 1 }

/-- A point added to itself. -/
def Point.double (q : Point) : Point :=
  if q.z = 0 ∨ q.y = 0 then .infinity
  else
    let yy := q.y * q.y % curveP
    let d := 4 * q.x * yy % curveP
    let zz := q.z * q.z % curveP
    let m := (3 * q.x * q.x + curveA * (zz * zz % curveP)) % curveP
    let x := subMod curveP (m * m) (2 * d)
    { x, y := subMod curveP (m * subMod curveP d x) (8 * yy * yy), z := 2 * q.y * q.z % curveP }

/-- The sum of two points. -/
def Point.add (q r : Point) : Point :=
  if q.z = 0 then r
  else if r.z = 0 then q
  else
    let zq := q.z * q.z % curveP
    let zr := r.z * r.z % curveP
    let uq := q.x * zr % curveP
    let ur := r.x * zq % curveP
    let sq := q.y * (zr * r.z % curveP) % curveP
    let sr := r.y * (zq * q.z % curveP) % curveP
    if uq = ur then (if sq = sr then q.double else .infinity)
    else
      let h := subMod curveP ur uq
      let t := subMod curveP sr sq
      let hh := h * h % curveP
      let hhh := h * hh % curveP
      let v := uq * hh % curveP
      let x := subMod curveP (t * t) (hhh + 2 * v)
      { x, y := subMod curveP (t * subMod curveP v x) (sq * hhh), z := h * (q.z * r.z % curveP) % curveP }

/-- A point taken `k` times, for a factor of at most `n` bits. -/
def Point.times (q : Point) : Nat → Nat → Point
  | 0, _ => .infinity
  | n + 1, k =>
    let d := (q.times n (k / 2)).double
    if k % 2 = 1 then d.add q else d

/-- The affine coordinates of a point; none for the point at infinity. -/
def Point.affine (q : Point) : Option (Nat × Nat) :=
  if q.z = 0 then none
  else
    let i := invMod curveP q.z
    some (q.x * (i * i % curveP) % curveP, q.y * (i * (i * i % curveP) % curveP) % curveP)

/-- The uncompressed encoding of a point: 0x04, X and Y, each 48 bytes, highest first (R547, R549). -/
def Point.encode (q : Point) : List Byte :=
  match q.affine with
  | none => [0]
  | some (x, y) => 4#8 :: (bytesBE x 48 ++ bytesBE y 48)

/-- The point that 97 bytes encode; none where they name no point of the curve. -/
def pointOf (l : List Byte) : Option Point :=
  let x := natBE ((l.drop 1).take 48)
  let y := natBE (l.drop 49)
  if l.length = 97 ∧ l.head? = some 4#8 ∧ x < curveP ∧ y < curveP ∧ y * y % curveP = (x * x * x + curveA * x + curveB) % curveP
  then some { x, y, z := 1 } else none

/-! ### ECDH and ECDSA -/

/-- A private key from a free number: 1 to the order less 1. -/
def privateKey (x : Nat) : Nat := x % (curveN - 1) + 1

/-- The public key of a private key, 97 bytes. -/
def publicKey (d : Nat) : List Byte := (Point.base.times 384 d).encode

/-- The x-coordinate of the ECDH product of a private key and a public key, 48 bytes; none where the public key is no point of the curve. -/
def ecdh (d : Nat) (pub : List Byte) : Option (List Byte) :=
  match pointOf pub with
  | none => none
  | some q => ((q.times 384 d).affine).map fun a => bytesBE a.1 48

/-- The number that ECDSA signs: the SHA-384 digest of a message. -/
def messageNumber (msg : List Byte) : Nat := natBE (sha384 msg)

/-- Whether a signature r ‖ s of 96 bytes over a message verifies under a public key of 97 bytes (R87). -/
def ecdsaVerify (pub msg sig : List Byte) : Bool :=
  let r := natBE (sig.take 48)
  let t := natBE (sig.drop 48)
  match pointOf pub with
  | none => false
  | some q =>
    if sig.length = 96 ∧ 0 < r ∧ r < curveN ∧ 0 < t ∧ t < curveN then
      let w := invMod curveN t
      let u := Point.base.times 384 (messageNumber msg * w % curveN)
      match (u.add (q.times 384 (r * w % curveN))).affine with
      | none => false
      | some a => a.1 % curveN == r
    else false

/-- The signature r ‖ s with a private key and a secret number `k`; one that gives a zero goes on to the next. -/
def ecdsaTry (d e : Nat) : Nat → Nat → List Byte
  | 0, _ => List.replicate 96 0
  | n + 1, k =>
    let r := match (Point.base.times 384 k).affine with
      | none => 0
      | some a => a.1 % curveN
    let t := invMod curveN k * (e + r * d) % curveN
    if r = 0 ∨ t = 0 then ecdsaTry d e n (privateKey k) else bytesBE r 48 ++ bytesBE t 48

/-- An ECDSA signature with SHA-384 over a message: r ‖ s, 96 bytes (R87). -/
def ecdsaSign (d k : Nat) (msg : List Byte) : List Byte := ecdsaTry d (messageNumber msg) 4 k

end Sys2Proof.Machine
end

