-- ==== Sys2Proof/Machine/X509.lean ====
section
/-! DEFINITION. Certificate chains: X.509 v3 in DER, signed with ECDSA on brainpoolP384r1 with SHA-384 (R544). Of a certificate the module
reads what the manual's checks name: the signature, the public key and the subject's serialNumber (assumption 81). -/

namespace Sys2Proof.Machine

/-! ### DER -/

/-- An element: its tag, its content, and the whole of it. -/
structure Der where
  tag : Nat
  body : List Byte
  whole : List Byte
deriving DecidableEq, Repr, Inhabited

/-- The header of the element a list begins with: the bytes of the header and of the content. -/
def derHead (l : List Byte) : Option (Nat × Nat) :=
  match l with
  | _ :: n :: r =>
    if n.toNat < 0x80 then some (2, n.toNat)
    else if n.toNat = 0x81 then some (3, natBE (r.take 1))
    else if n.toNat = 0x82 then some (4, natBE (r.take 2))
    else none
  | _ => none

/-- The elements that bytes hold, at most `n`; none where the last does not end with them. -/
def derItems : Nat → List Byte → Option (List Der)
  | _, [] => some []
  | 0, _ => none
  | n + 1, l =>
    match derHead l with
    | none => none
    | some (h, k) =>
      if l.length < h + k then none
      else
        match derItems n (l.drop (h + k)) with
        | none => none
        | some r => some ({ tag := ((l.take 1).map BitVec.toNat).sum, body := (l.drop h).take k, whole := l.take (h + k) } :: r)

/-- The elements inside an element; none inside one of another tag. -/
def Der.items (d : Der) (tag : Nat) : List Der := if d.tag = tag then (derItems 64 d.body).getD [] else []

/-- The bytes of a bit string of whole bytes. -/
def Der.bitString (d : Der) : List Byte := if d.tag = 3 then d.body.drop 1 else []

/-- A positive integer as `n` bytes. -/
def Der.integer (d : Der) (n : Nat) : List Byte := if d.tag = 2 then bytesBE (natBE d.body) n else []

/-! ### Certificates -/

/-- What the checks read of a certificate: the signed bytes, r ‖ s, the public key, the subject's serialNumber. -/
structure Cert where
  signed : List Byte
  sig : List Byte
  key : List Byte
  serial : List Byte
deriving DecidableEq, Repr, Inhabited

/-- The serialNumber attribute (2.5.4.5) of a subject. -/
def subjectSerial (subject : Der) : List Byte :=
  match ((subject.items 0x30).flatMap fun s => s.items 0x31).find? fun a => ((a.items 0x30).map (·.body)).head? = some [0x55, 0x04, 0x05] with
  | none => []
  | some a => (((a.items 0x30).map (·.body))[1]?).getD []

/-- A certificate from its element. -/
def certOf (d : Der) : Option Cert :=
  match d.items 0x30 with
  | [tbs, _, sig] =>
    let fields := (tbs.items 0x30).filter fun x => x.tag ≠ 0xa0
    match fields[4]?, fields[5]?, (derItems 64 sig.bitString).getD [] with
    | some subject, some spki, [rs] =>
      some {
        signed := tbs.whole
        sig := ((rs.items 0x30).take 2).flatMap fun x => x.integer 48
        key := (((spki.items 0x30)[1]?).map Der.bitString).getD []
        serial := subjectSerial subject }
    | _, _, _ => none
  | _ => none

/-- The certificates of a chain, root first; empty where it is not well formed. -/
def certsOf (chain : List Byte) : List Cert :=
  match derItems 64 chain with
  | none => []
  | some l => (l.mapM certOf).getD []

/-- A certificate is signed by the holder of a key. -/
def Cert.signedBy (c : Cert) (key : List Byte) : Bool := ecdsaVerify key c.signed c.sig

/-- Every certificate of a list is signed by the one before it. -/
def certsLinked : List Cert → Bool
  | c :: d :: r => d.signedBy c.key && certsLinked (d :: r)
  | _ => true

/-- A chain is signed from its root, which signs itself, down to its leaf (R544). -/
def chainSigned (chain : List Byte) : Bool :=
  match certsOf chain with
  | [] => false
  | c :: r => c.signedBy c.key && certsLinked (c :: r)

/-- The SHA-384 digest of a chain's root public key (R89, R545, R547). -/
def chainRoot (chain : List Byte) : BitVec 384 := digestWord (sha384 (((certsOf chain).head?.map (·.key)).getD []))

/-- A chain is signed up to a trust root. -/
def chainOk (root : BitVec 384) (chain : List Byte) : Bool := chainSigned chain && chainRoot chain == root

/-- The leaf of a chain: its key and its serialNumber. -/
def leafKey (chain : List Byte) : List Byte := ((certsOf chain).getLast?.map (·.key)).getD []
def leafSerial (chain : List Byte) : List Byte := ((certsOf chain).getLast?.map (·.serial)).getD []

/-- A hexadecimal digit in lower case. -/
def hexDigit (x : Nat) : Byte := BitVec.ofNat 8 (if x < 10 then 48 + x else 87 + x)

/-- A serial as 16 lowercase hexadecimal digits (R544). -/
def serialText (serial : W64) : List Byte := (List.range 16).map fun i => hexDigit (serial.toNat / 16 ^ (15 - i) % 16)

end Sys2Proof.Machine
end

