-- ==== Sys2Proof/Machine/Keys.lean ====
section
/-! DEFINITION. The security block's keys as other blocks use them: labels, the identity key pair, fresh nonces and shares, envelopes and
binding sets, and the keys of ports 14 to 17 (R397, R539 to R543, R547 to R553, R559). -/

namespace Sys2Proof.Machine

/-! ### Labels (R543) -/

/-- A fixed label of R543 as bytes. -/
def asciiBytes (l : List Nat) : List Byte := l.map (BitVec.ofNat 8)
def labelLink : List Byte := asciiBytes [0x5a, 0x47, 0x38, 0x2d, 0x4c, 0x49, 0x4e, 0x4b]
def labelLH : List Byte := labelLink ++ asciiBytes [0x2d, 0x4c, 0x48]
def labelHL : List Byte := labelLink ++ asciiBytes [0x2d, 0x48, 0x4c]
def labelKcv : List Byte := asciiBytes [0x5a, 0x47, 0x38, 0x2d, 0x4b, 0x43, 0x56]
def labelBind : List Byte := asciiBytes [0x5a, 0x47, 0x38, 0x2d, 0x42, 0x49, 0x4e, 0x44]
def labelEnv : List Byte := asciiBytes [0x5a, 0x47, 0x38, 0x2d, 0x45, 0x4e, 0x56]
def labelImage : List Byte := asciiBytes [0x5a, 0x47, 0x38, 0x2d, 0x49, 0x4d, 0x41, 0x47, 0x45]

/-- Bytes `[a, a + n)` of a list. -/
def seg (l : List Byte) (a n : Nat) : List Byte := (l.drop a).take n
def segZero (l : List Byte) (a n : Nat) : Bool := (seg l a n).all fun b => b == 0

/-- A list of exactly `n` bytes: cut, or filled with zeros. -/
def fitBytes (n : Nat) (l : List Byte) : List Byte := l.take n ++ List.replicate (n - l.length) 0

/-! ### The identity key pair (R539, R540) -/

/-- The module's signature over a message, r then s, of 96 bytes; the `n`th free value gives the per-signature number. Before the key pair is
derived there is none (R540, R546, R563). -/
def State.sign (s : State) (msg : List Byte) : List Byte :=
  match s.sec.identity with
  | none => List.replicate 96 0
  | some d => ecdsaSign d (privateKey (Config.freshKey s.free).toNat) msg

/-- The x-coordinate of the ECDH product of the identity private key and a public key; none where that is no point of the curve (R550). -/
def State.identityEcdh (s : State) (pub : List Byte) : Option (List Byte) := s.sec.identity.bind fun d => ecdh d pub

/-- A fresh nonce of 32 bytes, and a fresh ephemeral private number and its public key of 97 bytes (R542, R547, R548). -/
def freshNonce (n : Nat) : List Byte := wordBytes (Config.freshNonce n)
def freshPrivate (n : Nat) : Nat := privateKey (Config.freshKey n).toNat
def freshShare (n : Nat) : List Byte := publicKey (freshPrivate n)

/-! ### Envelopes (R552, R553) -/

/-- An envelope of a partition. -/
def State.env (s : State) (part idx : Nat) : Option Env := SMap.get none s.sec.envs (envKey part idx)

/-- Put or remove an envelope. -/
def State.setEnv (s : State) (part idx : Nat) (e : Option Env) : State :=
  { s with sec := { s.sec with envs := SMap.set none s.sec.envs (envKey part idx) e } }

/-- Tenant envelopes free, of 16,384 (R552, R568). -/
def State.envFree (s : State) : Nat := 16384 - (s.sec.envs.filter fun e => decide (e.1 % 16384 ≠ 0)).length

/-- A binding set in the table (R549). -/
def State.binding (s : State) (ident : BitVec 128) : Option Binding := s.sec.bindings.find? fun b => b.ident == ident

/-- The key that a binding set gives under a label, data half first (R553). -/
def Binding.envKey (b : Binding) (label : List Byte) : BitVec 512 :=
  BitVec.ofNat 512 (natLE (hkdf384 (wordBytes b.ident) (wordBytes b.w) (labelEnv ++ label) 64))

/-- The image key-encryption key of a binding set for images of a source serial (R559). -/
def Binding.imageKek (b : Binding) (serial : W64) : List Byte :=
  hkdf384 (wordBytes b.ident) (wordBytes b.w) (labelImage ++ wordBytes serial) 32

/-! ### Frame keys (R397, R548) -/

/-- The key and salt that HKDF gives for a direction: 32 bytes and 4 bytes. -/
def linkKeyOf (salt ikm label : List Byte) : BitVec 256 × W32 :=
  let k := hkdf384 salt ikm label 36
  (BitVec.ofNat 256 (natLE (k.take 32)), BitVec.ofNat 32 (natLE (k.drop 32)))

/-- The label of the direction from the side at `src` to the side at `dst`: L is the side of the lower position (R547, R548). -/
def dirLabel (src dst : W32) : List Byte := if src.toNat < dst.toNat then labelLH else labelHL

/-- The 12-byte nonce of a frame: the salt, then the count of codewords since the key took effect (R397). -/
def LinkKey.nonce (k : LinkKey) : List Byte := wordBytes k.salt ++ bytesLE k.count 8

/-- A codeword slot goes by in a direction: the count moves on, and a new key takes effect at the count its sender announced (R397). -/
def LinkKey.tick (k : LinkKey) : LinkKey :=
  match k.next with
  | some n => if n.1 = k.count + 1 then { key := n.2.1, salt := n.2.2 } else { k with count := k.count + 1 }
  | none => { k with count := k.count + 1 }

end Sys2Proof.Machine
end

