-- ==== Sys2Proof/Machine/Rs.lean ====
section
/-! DEFINITION. The Reed–Solomon codes of the tiers (R317): GF(2^8) with field polynomial x^8 + x^4 + x^3 + x^2 + 1, four check symbols,
any two symbol errors corrected. The codes are linear, so what a decoder does depends on the errors alone. -/

namespace Sys2Proof.Machine

/-- Twice a field element. -/
def rsDouble (a : Byte) : Byte := if a.getLsbD 7 then (a <<< 1) ^^^ 0x1d#8 else a <<< 1

/-- A field element times a number below 2^n, the highest bit first. -/
def rsTimes (a : Byte) (b : Nat) : Nat → Byte
  | 0 => 0
  | n + 1 => rsDouble (rsTimes a (b / 2) n) ^^^ (if b % 2 = 1 then a else 0)

/-- A product. -/
def rsMul (a b : Byte) : Byte := rsTimes a b.toNat 8

/-- A power. -/
def rsPow (a : Byte) : Nat → Byte
  | 0 => 1
  | n + 1 => rsMul a (rsPow a n)

/-- The inverse of an element that is not 0. -/
def rsInv (a : Byte) : Byte := rsPow a 254

/-- The locator of a symbol: the power of x that it is. -/
def rsLocator (p : Nat) : Byte := rsPow 2 (p % 255)

/-- A syndrome of an error pattern, a list of positions and differences; the roots are four powers in a row, from a first one that the manual
does not give (R317). -/
def rsSyndrome (e : List (Nat × Byte)) (j : Nat) : Byte :=
  e.foldl (fun a x => a ^^^ rsMul x.2 (rsPow (rsLocator x.1) ((Config.rsFirst + j) % 255))) 0

/-- The four syndromes. -/
def rsSyndromes (e : List (Nat × Byte)) : List Byte := (List.range 4).map (rsSyndrome e)

/-- The difference at position `p` that, with one at position `q`, gives the first two syndromes. -/
def rsDiff (s0 s1 : Byte) (p q : Nat) : Byte :=
  let x := rsLocator p
  let y := rsLocator q
  rsMul (rsMul (s1 ^^^ rsMul s0 y) (rsInv (x ^^^ y))) (rsInv (rsPow x (Config.rsFirst % 255)))

/-- The one pattern of at most two errors in `n` symbols with the same syndromes, if there is one. -/
def rsFind (n : Nat) (e : List (Nat × Byte)) : Option (List (Nat × Byte)) :=
  let s := rsSyndromes e
  let pairs := (List.range n).flatMap fun p => (List.range p).map fun q =>
    [(p, rsDiff (s.getD 0 0) (s.getD 1 0) p q), (q, rsDiff (s.getD 0 0) (s.getD 1 0) q p)].filter fun x => x.2 ≠ 0
  if s = [0, 0, 0, 0] then some [] else pairs.find? fun f => decide (rsSyndromes f = s)

/-- What a decoder makes of a codeword: clean, corrected, wrong with the differences that stay, whether it saw any error, or
uncorrectable. -/
inductive Decoded where
  | clean
  | corrected
  | wrong (seen : Bool) (left : List (Nat × Byte))
  | lost
deriving DecidableEq, Repr

/-- Decode a codeword of `n` symbols received with the errors `e`, positions without repeats and differences not 0 (R317, R318). -/
def rsDecode (n : Nat) (e : List (Nat × Byte)) : Decoded :=
  if e = [] then .clean
  else if e.length ≤ 2 then .corrected
  else match rsFind n e with
    | none => .lost
    | some f => .wrong (!f.isEmpty) (e ++ f)

/-- The differences at the symbols of a codeword of `n` symbols: one for each position, those of 0 left out. -/
def rsPattern (n : Nat) (e : List (Nat × Byte)) : List (Nat × Byte) :=
  (List.range n).filterMap fun p =>
    let x := (e.filter fun y => decide (y.1 = p)).foldl (fun a y => a ^^^ y.2) (0 : Byte)
    if x = 0 then none else some (p, x)

/-- What the codewords of a tile give, read together: how many were corrected, whether one was uncorrectable, and the differences that stay in
the tile's stored bytes. -/
structure TileDecoded where
  corrected : Nat := 0
  lost : Bool := false
  left : List (Nat × Byte) := []
deriving DecidableEq, Repr

/-- Symbols of a tier's codeword that hold data (R317). -/
def dataSymbols (tier2 : Bool) : Nat := if tier2 then 60 else 64

/-- Decode the codewords of `len` stored bytes of a tier; `errs` gives errors by codeword. Assumption 84: codeword i covers the data symbols'
worth of stored bytes from i times as many on, and the check symbols come last. -/
def decodeTile (tier2 : Bool) (len : Nat) (errs : List (Nat × List (Nat × Byte))) : TileDecoded :=
  let d := dataSymbols tier2
  errs.foldl (fun r x =>
    if len ≤ d * x.1 then r
    else match rsDecode (d + 4) (rsPattern (d + 4) x.2) with
      | .clean => r
      | .corrected => { r with corrected := r.corrected + 1 }
      | .wrong seen l => { r with corrected := if seen then r.corrected + 1 else r.corrected, left := r.left ++ (l.filter fun y => decide (y.1 < d)).map fun y => (d * x.1 + y.1, y.2) }
      | .lost => { r with lost := true }) {}

end Sys2Proof.Machine
end

