-- ==== Sys2Proof/Machine/SpanOps.lean ====
section
/-! DEFINITION. Operations on the span: what an address names, reading and writing tiles and bytes, where tiles rest, near
copies, poison and scrubbing (R282 to R322). -/

namespace Sys2Proof.Machine

/-! ### Addresses (R282 to R284) -/

/-- The key of an extent of a partition. -/
def extKey (part ext : Nat) : Nat := 2 ^ 31 * part + ext

/-- The key of a tile slot of a partition; `slot` is the span address div 8,192. -/
def tileKey (part slot : Nat) : Nat := 2 ^ 39 * part + slot

/-- A partition's mapping of an extent. -/
def State.extent (s : State) (part ext : Nat) : Option Extent := SMap.get none s.spn.extents (extKey part ext)

/-- Set or remove a mapping. -/
def State.setExtent (s : State) (part ext : Nat) (e : Option Extent) : State :=
  { s with spn := { s.spn with extents := SMap.set none s.spn.extents (extKey part ext) e } }

/-- A tile slot of an owner. -/
def State.tile (s : State) (owner slot : Nat) : Tile := SMap.get Tile.blank s.spn.tiles (tileKey owner slot)

/-- Replace a tile slot's entry. -/
def State.setTile (s : State) (owner slot : Nat) (t : Tile) : State :=
  { s with spn := { s.spn with tiles := SMap.set Tile.blank s.spn.tiles (tileKey owner slot) t } }

/-- What a slot of a partition's span names: the owner whose storage it is, the owner's mapping, and whether this partition
maps it read-only (R283, R294). -/
structure SlotRef where
  owner : Nat
  ext : Extent
  ro : Bool
deriving DecidableEq, Repr, Inhabited

/-- What a slot number names in a partition's span; none where its extent is not mapped. -/
def State.slotRef (s : State) (part slot : Nat) : Option SlotRef :=
  if slot < 2 ^ 39 then
    match s.extent part (slot / 256) with
    | none => none
    | some e =>
      if e.ro then
        match s.extent e.owner (slot / 256) with
        | none => none
        | some o => some ⟨e.owner, o, true⟩
      else some ⟨part, e, false⟩
  else none

/-- What the slot of a tile address names; an address that is not a multiple of 8,192 is unmapped (R284). -/
def State.addrRef (s : State) (part : Nat) (addr : W64) : Option SlotRef :=
  if addr.toNat % 8192 = 0 then s.slotRef part (addr.toNat / 8192) else none

/-- The mappings of a partition, with their extent numbers. -/
def State.mappings (s : State) (part : Nat) : List (Nat × Extent) :=
  s.spn.extents.filterMap fun e =>
    if e.1 / 2 ^ 31 = part then e.2.map fun x => (e.1 % 2 ^ 31, x) else none

/-- The extents a partition owns. -/
def State.ownExtents (s : State) (part : Nat) : List (Nat × Extent) := (s.mappings part).filter fun e => !e.2.ro

/-- An extent of `part` is mapped read-only by some other partition (R294). -/
def State.sharedRo (s : State) (part ext : Nat) : Bool :=
  (List.range 32).any fun m => m != part &&
    (match s.extent m ext with
      | some e => e.ro && decide (e.owner = part)
      | none => false)

/-- Extent entries that are free, of 524,288 (R295). -/
def State.extFree (s : State) : Nat := 524288 - s.spn.extents.length

/-- The tile entries of a partition, with their slot numbers. -/
def State.tilesOf (s : State) (part : Nat) : List (Nat × Tile) :=
  (s.spn.tiles.filter fun e => decide (e.1 / 2 ^ 39 = part)).map fun e => (e.1 % 2 ^ 39, e.2)

/-! ### Envelopes and stored units (R304, R305, R311, R312) -/

/-- The key of a tile slot's extent's envelope (R311). -/
def State.slotKey (s : State) (owner slot : Nat) : BitVec 512 :=
  match s.extent owner (slot / 256) with
  | none => 0
  | some e => ((s.env owner e.env.toNat).map (·.key)).getD 0

/-- The trim under which a tile was stored. -/
def Tile.trimN (t : Tile) : Option Nat := if t.mode = 1 then some t.trim.toNat else none

/-- A tile's stream (R304, R309). -/
def Tile.stream (t : Tile) : List Byte := (tileStream t.isSealed t.trimN t.data).1

/-- A stream padded with zeros to its units, in units. -/
def streamUnits (units : Nat) (l : List Byte) : List (List Byte) := cutInto 512 (l ++ List.replicate (512 * units - l.length) 0) units

/-- The units of a tile in a slot encrypted, unit `u` under the tweak address / 256 + u (R311). -/
def sealUnits (key : BitVec 512) (slot : Nat) (l : List (List Byte)) : List Byte :=
  l.zipIdx.flatMap fun u => xtsEncrypt (wordBytes key) (32 * slot + u.2) u.1

/-- The units decrypted. -/
def openUnits (key : BitVec 512) (slot : Nat) (l : List (List Byte)) : List Byte :=
  l.zipIdx.flatMap fun u => xtsDecrypt (wordBytes key) (32 * slot + u.2) u.1

/-- The stored units of a written tile as its tier holds them: ciphertext (R288, R311, R312). -/
def State.storedUnits (s : State) (owner slot : Nat) : List Byte :=
  let t := s.tile owner slot
  t.raw.getD (sealUnits (s.slotKey owner slot) slot (streamUnits t.units t.stream))

/-- The content that stored units give under a key, with a format code, a side-data length, a fold state and a CRC-64; none where the stream
does not parse or fails its CRC-64 (R305, R318, R555). -/
def openTile (key : BitVec 512) (slot fmt sideLen : Nat) (isFolded : Bool) (crc : W64) (stored : List Byte) : Option TileData :=
  let plain := openUnits key slot (cutInto 512 stored (stored.length / 512))
  match tileOfStream fmt sideLen isFolded plain with
  | none => none
  | some (d, n) => if crc64 (plain.take n) = crc then some d else none

/-- Where a stored tile rests: its physical location, and the pseudo-channel that the keyed hash gives it (R313, R316). -/
def State.location (s : State) (owner slot : Nat) : Nat := Config.location owner slot (s.tile owner slot).placed
def State.pseudoChannel (s : State) (owner slot : Nat) : Nat := Config.channelHash s.spn.hashKey (s.location owner slot) % 384

/-! ### Near regions (R139, R290 to R292) -/

/-- The sum of a core's channel depths (R139). -/
def Core.depthSum (c : Core) : Nat := (c.chans.map fun e => e.2.depth).sum

/-- The start of the message area for a sum of depths (R139). -/
def msgAreaStart (d : Nat) : Nat := 0x400000 - 4096 * ceilDiv (9232 * d) 4096

/-- The start of a core's message area. -/
def Core.msgStart (c : Core) : Nat := msgAreaStart c.depthSum

/-- The start of a near region of `n` places (R290). -/
def Core.nearStart (c : Core) (n : Nat) : Nat := c.msgStart - 4096 * ceilDiv (9216 * n) 4096

/-- The local address of a near place of a core, for `n` places. -/
def Core.placeAddr (c : Core) (n place : Nat) : Nat := c.nearStart n + 9216 * place

/-- The near places per core of a partition in force. -/
def State.nearPlaces (s : State) (part : Nat) : Nat := (s.part part).nearEff.toNat

/-- Where a tile's near copy lies, if it has one: the core and the local address. -/
def State.nearAddr (s : State) (t : Tile) : Option (Nat × Nat) :=
  match t.nearCore with
  | none => none
  | some (k, place) =>
    match s.partOf k with
    | none => none
    | some p => some (k, (s.core k).placeAddr (s.nearPlaces p) place)

/-- The tile in a slot as a read returns it: from the near place that holds it, or from its tier (R288, R291). -/
def State.tileData (s : State) (owner slot : Nat) : TileData :=
  let t := s.tile owner slot
  match s.nearAddr t with
  | none => t.data
  | some (k, a) =>
    let st := (s.core k).store
    { t.data with payload := st.slice a 8192, side := st.slice (a + 8192) t.data.sideLen }

/-- Write a tile's content into its near place, if it has one. -/
def State.writeNear (s : State) (t : Tile) : State :=
  match s.nearAddr t with
  | none => s
  | some (k, a) =>
    s.modCore k fun c => { c with
      store := (c.store.splice a 8192 t.data.payload).splice (a + 8192) 1024 t.data.side
      poison := c.poison.filter fun l => !(decide (a ≤ 64 * l) && decide (64 * l < a + 9216)) }

/-- The near place that holds a tile has a poisoned line (R110). -/
def State.nearPoison (s : State) (t : Tile) : Bool :=
  match s.nearAddr t with
  | none => false
  | some (k, a) => (List.range 144).any fun i => (s.core k).poison.contains (a / 64 + i)

/-- The near places of a core that hold a tile. -/
def State.usedPlaces (s : State) (k : Nat) : List Nat :=
  s.spn.tiles.filterMap fun e => match e.2.nearCore with
    | some (j, place) => if j = k then some place else none
    | none => none

/-- The lowest free near place of a core, of `n` (R298; which free place is taken is assumption 14). -/
def State.freePlace (s : State) (k n : Nat) : Option Nat :=
  let used := s.usedPlaces k
  (List.range n).find? fun i => !(used.contains i)

/-! ### Where tiles rest (R293 to R298) -/

/-- A share of 1/64 of tier 1 and of tier 2, in bytes (R287, R293). -/
def hbmUnit : Nat := 6750000000
def ballastUnit : Nat := 7500000000

/-- Bytes an extent reserves (R293). -/
def extentBytes : Nat := 2359296

/-- The hint of a tile: its own, else its extent's (R296, R322). -/
def Tile.hintIn (t : Tile) (e : Extent) : Nat := (t.hint.getD e.hint).toNat

/-- A tile counts in tier 2: it rests there or moves there. -/
def Tile.inTier2 (t : Tile) : Bool := t.moving.getD t.tier2

/-- A partition's tier-1 stored bytes (R297). -/
def State.tier1Bytes (s : State) (part : Nat) : Nat :=
  (s.tilesOf part).foldl (fun a e => if !e.2.fresh && !e.2.inTier2 then a + 512 * e.2.units else a) 0

/-- A partition's tier-2 stored bytes. -/
def State.tier2Bytes (s : State) (part : Nat) : Nat :=
  (s.tilesOf part).foldl (fun a e => if !e.2.fresh && e.2.inTier2 then a + 512 * e.2.units else a) 0

/-- The HBM share of a partition in bytes. -/
def State.hbmBytes (s : State) (part : Nat) : Nat := (s.part part).hbm.toNat * hbmUnit

/-- The hint of a tile entry of an owner. -/
def State.hintOf (s : State) (owner slot : Nat) (t : Tile) : Nat :=
  match s.extent owner (slot / 256) with
  | none => 0
  | some e => t.hintIn e

/-- The better of two tiles to sink, by a key that is lowest for the tile to sink first. -/
def sinkFirst (f : Tile → Nat) (a : Option (Nat × Tile)) (b : Nat × Tile) : Option (Nat × Tile) :=
  match a with
  | none => some b
  | some x => if f b.2 < f x.2 then some b else some x

/-- The tile R297 sinks first: let-sink tiles, oldest read first; then none tiles, least use count first. A keep-near tile's
backing follows the none rule (R296). The slot being written is not a candidate. -/
def State.toSink (s : State) (part except : Nat) : Option Nat :=
  let here := (s.tilesOf part).filter fun e => !e.2.fresh && !e.2.inTier2 && decide (e.1 ≠ except)
  let lets := here.filter fun e => decide (s.hintOf part e.1 e.2 = 1)
  let nones := here.filter fun e => decide (s.hintOf part e.1 e.2 = 0 ∨ s.hintOf part e.1 e.2 = 3)
  match lets.foldl (sinkFirst (·.lastRead)) none with
  | some e => some e.1
  | none => (nones.foldl (sinkFirst (·.uses)) none).map (·.1)

/-- Sink tiles until `need` more tier-1 bytes fit in the HBM share; the flag says whether they do (R297). -/
def State.makeRoom (s : State) (part need except : Nat) : Nat → State × Bool
  | 0 => (s, decide (s.tier1Bytes part + need ≤ s.hbmBytes part))
  | fuel + 1 =>
    if s.tier1Bytes part + need ≤ s.hbmBytes part then (s, true)
    else if (s.part part).ballast = 0 then (s, true)
    else match s.toSink part except with
      | none => (s, false)
      | some slot => (s.setTile part slot { s.tile part slot with moving := some true }).makeRoom part need except fuel

/-- Make room for a tile of an owner, as far as its tiles allow. -/
def State.roomFor (s : State) (part need except : Nat) : State × Bool :=
  s.makeRoom part need except ((s.tilesOf part).length + 1)

/-- The trim of an extent, if its mode trims (R307). -/
def Extent.trimN (e : Extent) : Option Nat := if e.mode = 1 then some e.trim.toNat else none

/-- A tile as its extent stores it: trimmed, with the mode, units, fold state and CRC-64 of its stream (R305, R307, R309). -/
def Tile.store (t : Tile) (e : Extent) (d : TileData) : Tile :=
  let d := match e.trimN with
    | some n => { d with payload := trimPayload d.fmt n d.payload }
    | none => d
  let st := tileStream e.isSealed e.trimN d
  { t with
    data := d, fresh := false, poisoned := false, moving := none, savedMark := false
    mode := e.mode, isSealed := e.isSealed, trim := e.trim
    units := unitsOf e.isSealed st.1.length, isFolded := st.2, crc := crc64 st.1, raw := none }

/-- A stored tile comes to rest in its slot where R297 places it, at a fresh location; a keep-warm tile in tier 1 always (R296, R313). -/
def State.restTile (s : State) (owner slot : Nat) (t : Tile) : State :=
  let r := (s.setTile owner slot { s.tile owner slot with fresh := true }).roomFor owner (512 * t.units) slot
  r.1.setTile owner slot { t with tier2 := !r.2 && decide (s.hintOf owner slot t ≠ 2), moving := none, placed := t.placed + 1 }

/-- No tile of a job's range is still moving. -/
def State.jobSettled (s : State) (j : SpanJob) : Bool :=
  (s.tilesOf j.part).all fun e => !(decide (j.lo ≤ e.1) && decide (e.1 < j.hi) && e.2.moving.isSome)

/-- A job waits only for tiles to rest. -/
def SpanJob.forMoves (j : SpanJob) : Bool := j.kind == .hint || j.kind == .rehome || j.kind == .resize

/-- The status a job ends with: 0x0318 where a keep-near HINT met a tile that its migration had poisoned (R301, R319). -/
def State.jobStatus (s : State) (j : SpanJob) : Nat :=
  if j.kind == .hint && (s.tilesOf j.part).any (fun e => decide (j.lo ≤ e.1) && decide (e.1 < j.hi) && e.2.poisoned && e.2.hint == some 3
      && e.2.nearCore.isNone) then 0x0318 else 0

/-- Complete the commands that waited for tiles that now rest, or whose migration has been abandoned (R301, R324, R523). -/
def State.settleJobs (s : State) : State :=
  let done := s.spn.jobs.filter fun j => j.forMoves && s.jobSettled j
  let t := { s with spn := { s.spn with jobs := s.spn.jobs.filter fun j => !(j.forMoves && s.jobSettled j) } }
  done.foldl (fun t j => t.completeOpt j.ref (s.jobStatus j)) t

/-- Scrub a tile: its entry is cleared, a near copy is overwritten with zeros, and a migration is abandoned (R301, R322). -/
def State.scrubTile (s : State) (owner slot : Nat) : State :=
  let t := s.tile owner slot
  ((s.writeNear { t with data := {} }).setTile owner slot {}).settleJobs

/-! ### Poison and counters (R318 to R320, R326) -/

/-- A counter of the span reached its largest value: CESTUCK and event 0x0323, once (R326). -/
def State.spnStuck (s : State) (before after : W32) (offset : Nat) : State :=
  if after = BitVec.allOnes 32 && before ≠ BitVec.allOnes 32 then s.spnEvent 4 { status := 0x0323, words := [offset] } else s

/-- Corrected codewords of a tier are counted and logged (R318, R607). -/
def State.corrected (s : State) (tier2 : Bool) (n : Nat) : State :=
  if tier2 then
    let v := stickAdd s.spn.balCe n
    (({ s with spn := { s.spn with balCe := v } }).spnStuck s.spn.balCe v 0x01c).logCorrected 0x2001c 0xff v.toNat
  else
    let v := stickAdd s.spn.hbmCe n
    (({ s with spn := { s.spn with hbmCe := v } }).spnStuck s.spn.hbmCe v 0x018).logCorrected 0x20018 0xff v.toNat

/-- A tile becomes poisoned; SPN_UE counts it once (R318). -/
def State.poisonTile (s : State) (owner slot : Nat) : State :=
  let t := s.tile owner slot
  if t.poisoned then s
  else
    let v := stick s.spn.ue
    let u := s.setTile owner slot { t with poisoned := true, fresh := false }
    ({ u with spn := { u.spn with ue := v } }).spnStuck s.spn.ue v 0x020

/-- What the codewords of a tile's tier gave on an access, by the errors of each: corrected ones are counted, an uncorrectable one or a
stream that then fails its CRC-64 poisons the tile (R317, R318). -/
def State.codewords (s : State) (owner slot : Nat) (errs : CodeErrs) : State :=
  let t := s.tile owner slot
  if t.fresh then s
  else
    let r := decodeTile t.tier2 (512 * t.units) errs
    let u := if r.corrected = 0 then s else s.corrected t.tier2 r.corrected
    if r.lost then u.poisonTile owner slot
    else if r.left = [] then u
    else
      let stored := r.left.foldl (fun l x => l.modify x.1 (· ^^^ x.2)) (s.storedUnits owner slot)
      match openTile (s.slotKey owner slot) slot t.data.fmt t.data.sideLen t.isFolded t.crc stored with
      | none => u.poisonTile owner slot
      | some d => u.setTile owner slot { t with data := d, raw := some stored }

/-- The traffic of a tile access in the performance counters: its stored size, on the tier it rests in; a near copy moves nothing, and a tile
never written has nothing stored (R286, R606). -/
def State.countTier (s : State) (part : Nat) (t : Tile) : State :=
  if t.nearCore.isSome || t.fresh then s else s.modPart part fun p => p.count (if t.tier2 then 4 else 3) (512 * t.units)

/-- The extent of a slot as its tile was stored under it: with the tile's own mode and sealing, if it has been written (R310). -/
def Tile.storedAs (t : Tile) (e : Extent) : Extent :=
  if t.fresh then e else { e with mode := t.mode, isSealed := t.isSealed, trim := t.trim }

/-- A tile leaves its near place: it is written back to tier 1 as a write is, its values kept under the mode it was stored with, and the place is
free; poison goes with it (R110, R288, R290, R292, R310). -/
def State.putBack (s : State) (owner slot : Nat) : State :=
  let t := s.tile owner slot
  match t.nearCore, s.extent owner (slot / 256) with
  | none, _ => s
  | some _, none => s.setTile owner slot { t with nearCore := none }
  | some _, some e =>
    if t.fresh && decide (s.tileData owner slot = t.data) then s.setTile owner slot { t with nearCore := none } else
    let u := s.restTile owner slot { ({ t with nearCore := none }).store (t.storedAs e) (s.tileData owner slot) with poisoned := t.poisoned }
    let u := u.countTier owner (u.tile owner slot)
    (if s.nearPoison t then u.poisonTile owner slot else u).settleJobs

/-- A partition read a poisoned tile: POISON_READ and event 0x0320 (R319). -/
def State.poisonRead (s : State) (part slot : Nat) : State :=
  (s.modPart part fun p => { p with poisonRead := true }).spnEvent 0
    { status := 0x0320, part := some part, words := [part, 8192 * slot] }

/-- A read by a partition is counted: the tile's use count, the time of its read, the partition's reads (R296). A sunk tile whose count
reaches 2, or one the ladder saved, starts to move to tier 1 where room can be made; reads of a near copy, or of a tile hinted let-sink or
keep-near, promote nothing (R296, R297, R582). -/
def State.countRead (s : State) (part : Nat) (r : SlotRef) (slot : Nat) : State :=
  let t := s.tile r.owner slot
  let t := { t with uses := min 7 (t.uses + 1), lastRead := s.spn.clock }
  let s := { s with spn := { s.spn with clock := s.spn.clock + 1 } }
  let s := (s.modPart part fun p => { p with reads := p.reads + 1 }).setTile r.owner slot t
  let h := t.hintIn r.ext
  if !t.fresh && t.tier2 && t.moving.isNone && t.nearCore.isNone && (t.savedMark || (h % 2 == 0 && decide (2 ≤ t.uses))) then
    let m := s.roomFor r.owner (512 * t.units) slot
    if m.2 then m.1.setTile r.owner slot { t with moving := some false } else m.1
  else s

/-! ### Slots that are ports (R384, R405, R455) -/

/-- What a slot of an owner is besides storage: a reel's header or append port, a step-done slot, a post port, a training context's step
port or record. -/
inductive SlotKind where
  | plain | reelHeader | reelPort (i : Nat) | stepDone | postPort | stepPort | ctxRecord
deriving DecidableEq, Repr

/-- The open reel whose slot at an offset from its base is the slot of an owner. -/
def State.reelAt (s : State) (owner slot off : Nat) : Option Nat :=
  (s.gon.reels.find? fun e => e.2.isOpen && decide (e.2.holder = owner) && decide (e.2.base.toNat + 8192 * off = 8192 * slot)).map (·.1)

/-- What a slot of an owner is. -/
def State.slotKind (s : State) (owner slot : Nat) : SlotKind :=
  let p := s.part owner
  match s.reelAt owner slot 1, s.reelAt owner slot 0 with
  | some i, _ => .reelPort i
  | none, some _ => .reelHeader
  | none, none =>
    if p.postPort.any fun a => decide (a.toNat = 8192 * slot) then .postPort
    else if p.ctx.any fun x => decide (x.geo.base.toNat = 8192 * slot) then .stepPort
    else if p.ctx.any fun x => decide (x.geo.base.toNat + 8192 = 8192 * slot) then .ctxRecord
    else if p.batcher.on && decide (p.batcher.ring.toNat + 8192 = 8192 * slot) then .stepDone
    else .plain

/-- A slot that keeps nothing: a read returns zeros, and a write that no routine makes of the whole slot is discarded. -/
def State.isPort (s : State) (owner slot : Nat) : Bool :=
  match s.slotKind owner slot with
  | .reelPort _ | .postPort | .stepPort => true
  | _ => false

/-- The tile a read of a slot returns. -/
def State.readTile (s : State) (owner slot : Nat) : TileData := if s.isPort owner slot then {} else s.tileData owner slot

/-! ### Hints, and writing a tile (R285, R296 to R298, R301) -/

/-- A sunk tile hinted keep-warm starts to move to tier 1 (R296). -/
def State.promoteWarm (s : State) (part slot : Nat) : State :=
  let t := s.tile part slot
  if !t.fresh && t.tier2 && t.moving.isNone && decide (s.hintOf part slot t = 2) then
    let r := s.roomFor part (512 * t.units) slot
    r.1.setTile part slot { t with moving := some false }
  else s

/-- A tile takes a near place of a core, the lowest free one, which then holds its content (R298); a poisoned one cannot be read (R319). -/
def State.takeNear (s : State) (part slot core : Nat) : State :=
  if (s.tile part slot).poisoned then s.poisonRead part slot
  else match s.freePlace core (s.nearPlaces part) with
  | none => s
  | some place =>
    let d := s.readTile part slot
    let t := { s.tile part slot with nearCore := some (core, place) }
    ((s.countTier part (s.tile part slot)).setTile part slot t).writeNear { t with data := d }

/-- Hint a tile at rest, and place it as the hint asks (R296, R298). -/
def State.hintNow (s : State) (part hint core slot : Nat) : State :=
  let t := s.setTile part slot { s.tile part slot with hint := some (BitVec.ofNat 8 hint), nextHint := none }
  let there := (t.tile part slot).nearCore.any fun p => decide (p.1 = core)
  if hint = 3 then (if there then t else (t.putBack part slot).takeNear part slot core)
  else (t.putBack part slot).promoteWarm part slot

/-- Hint a tile: the migration of one that migrates finishes before its new hint applies (R301). -/
def State.hintTile (s : State) (part hint core slot : Nat) : State :=
  let t := s.tile part slot
  if t.moving.isSome then s.setTile part slot { t with nextHint := some (BitVec.ofNat 8 hint, core) } else s.hintNow part hint core slot

/-- The hint that waited for a tile's migration applies, once it is at rest (R301). -/
def State.applyHint (s : State) (owner slot : Nat) : State :=
  let t := s.tile owner slot
  match t.nextHint with
  | none => s
  | some (h, core) => if t.moving.isSome then s else s.hintNow owner h.toNat core slot

/-- Write a whole tile into a slot of its owner: any migration is abandoned, and the tile lands as R297 places it (R285, R296, R301). -/
def State.writeTile (s : State) (owner slot : Nat) (e : Extent) (d : TileData) : State :=
  let t := (s.tile owner slot).store e d
  (((s.restTile owner slot t).writeNear t).applyHint owner slot).settleJobs

/-- Every near copy that a test on the core and the place accepts is written back (R290, R292). -/
def State.writeBack (s : State) (p : Nat → Nat → Bool) : State :=
  (s.spn.tiles.filter fun e => e.2.nearCore.any fun x => p x.1 x.2).foldl (fun u e =>
    (u.putBack (e.1 / 2 ^ 39) (e.1 % 2 ^ 39)).applyHint (e.1 / 2 ^ 39) (e.1 % 2 ^ 39)) s

/-! ### Byte accesses (R286, R320, R520) -/

/-- The slots a byte range touches: the first slot number and how many. -/
def slotRange (addr len : Nat) : Nat × Nat := (addr / 8192, if len = 0 then 0 else (addr + len - 1) / 8192 - addr / 8192 + 1)

/-- The first fault a byte range meets: an unmapped slot, a poisoned tile read or written in part, a write to a read-only
mapping. -/
def State.rangeFault (s : State) (part addr len : Nat) (write : Bool) (slot : Nat) : Nat → Option Nat
  | 0 => none
  | n + 1 =>
    match s.slotRef part slot with
    | none => some 0x0313
    | some r =>
      let whole := decide (addr ≤ 8192 * slot) && decide (8192 * (slot + 1) ≤ addr + len)
      if write && r.ro then some 0x0106
      else if (s.tile r.owner slot).poisoned && !(write && whole) && !s.isPort r.owner slot then some 0x0318
      else s.rangeFault part addr len write (slot + 1) n

/-- The fault a byte access meets, if any. -/
def State.bytesFault (s : State) (part addr len : Nat) (write : Bool) : Option Nat :=
  s.rangeFault part addr len write (slotRange addr len).1 (slotRange addr len).2

/-- The bytes of a range of a partition's span from slot `slot` on, moved to start at the range's start. -/
def State.readSlots (s : State) (part addr len slot : Nat) : Nat → Mem
  | 0 => []
  | n + 1 =>
    let lo := max addr (8192 * slot)
    let hi := min (addr + len) (8192 * (slot + 1))
    let d := match s.slotRef part slot with
      | none => ([] : Mem)
      | some r => (s.readTile r.owner slot).payload.slice (lo - 8192 * slot) (hi - lo)
    (d.map fun e => (e.1 + (lo - addr), e.2)) ++ s.readSlots part addr len (slot + 1) n

/-- The bytes of a range of a partition's span, the first at 0. -/
def State.spanRead (s : State) (part addr len : Nat) : Mem :=
  s.readSlots part addr len (slotRange addr len).1 (slotRange addr len).2

/-- Write bytes into the slots of a range: a whole slot becomes a tile of format code 0 without side data, a part of one
keeps its other bytes, its side data and its format code (R286). Nothing is written where the partition's mapping is read-only, nor to a port. -/
def State.writeSlots (s : State) (part addr len : Nat) (m : Mem) (slot : Nat) : Nat → State
  | 0 => s
  | n + 1 =>
    let lo := max addr (8192 * slot)
    let hi := min (addr + len) (8192 * (slot + 1))
    let x := m.slice (lo - addr) (hi - lo)
    let t := match s.slotRef part slot with
      | none => s
      | some r => if r.ro || s.isPort r.owner slot then s else
        let old := s.tileData r.owner slot
        let d : TileData := if hi - lo = 8192 then { payload := x }
          else { old with payload := old.payload.splice (lo - 8192 * slot) (hi - lo) x }
        let u := s.writeTile r.owner slot r.ext d
        u.countTier part (u.tile r.owner slot)
    t.writeSlots part addr len m (slot + 1) n

/-- A byte write of `len` bytes to a partition's span, the first from `m` at 0. -/
def State.spanWrite (s : State) (part addr len : Nat) (m : Mem) : State :=
  s.writeSlots part addr len m (slotRange addr len).1 (slotRange addr len).2

/-- Store a tile in a slot of a partition's own span, if it is still mapped; the traffic is counted (R305, R606). -/
def State.putTile (s : State) (part slot : Nat) (d : TileData) : State :=
  match s.slotRef part slot with
  | none => s
  | some r =>
    if r.ro then s
    else
      let t := s.writeTile r.owner slot r.ext d
      t.countTier part (t.tile r.owner slot)

/-- A read of a slot of a partition's span meets the codewords of its tile in tier 1 or 2 (R318); a near copy has none. -/
def State.meetSlot (s : State) (part slot : Nat) (errs : CodeErrs) : State :=
  match s.slotRef part slot with
  | none => s
  | some r => if (s.tile r.owner slot).nearCore.isNone then s.codewords r.owner slot errs else s

/-- A command that reads slots of a partition's span meets their codewords, given by slot (R318). -/
def State.meetSlots (s : State) (part : Nat) (slots : List Nat) (errs : List (Nat × CodeErrs)) : State :=
  errs.foldl (fun s e => if slots.contains e.1 then s.meetSlot part e.1 e.2 else s) s

/-- A byte access of a partition meets the codewords of the tiles in its range, given by slot (R318). -/
def State.meetCodewords (s : State) (part addr len : Nat) (errs : List (Nat × CodeErrs)) : State :=
  errs.foldl (fun s e =>
    if decide ((slotRange addr len).1 ≤ e.1) && decide (e.1 < (slotRange addr len).1 + (slotRange addr len).2) then s.meetSlot part e.1 e.2 else s) s

/-- What a command reads meets its codewords only where the checks before the read let it come to that (R318). -/
def State.afterChecks (s : State) (before : List (Bool × Nat)) (read : State → State) : State := if (firstFail before).isSome then s else read s

/-- An engine of the module reads a slot of a partition's span for itself: its codewords are met, and a poisoned tile is reported and gives
nothing (R318, R319, assumption 99). -/
def State.fetchTile (s : State) (part slot : Nat) : State × Option TileData :=
  let t := (s.meetSlot part slot (Config.readErrs s.free part slot)).tick
  let x := t.tile part slot
  if x.poisoned then (t.poisonRead part slot, none)
  else if t.nearPoison x then (t, none)
  else (t.countTier part x, some (t.readTile part slot))

/-- Several slots read so, in order; nothing where one of them gives nothing. -/
def State.fetchTiles (s : State) (part : Nat) : List Nat → State × Option (List TileData)
  | [] => (s, some [])
  | a :: l =>
    let u := s.fetchTile part a
    let v := u.1.fetchTiles part l
    (v.1, match u.2, v.2 with
      | some d, some r => some (d :: r)
      | _, _ => none)

/-- The slots of a byte range that hold poisoned tiles. -/
def State.poisonedIn (s : State) (part addr len : Nat) : List Nat :=
  ((List.range (slotRange addr len).2).map fun i => (slotRange addr len).1 + i).filter fun slot =>
    match s.slotRef part slot with
    | none => false
    | some r => (s.tile r.owner slot).poisoned

/-- A command that reads tiles is refused with the first failing check's status, or carried out; with the status `met` it says that it read
each of the poisoned slots `bad` (R319). -/
def State.checkedMeeting (s : State) (ref : CmdRef) (part met : Nat) (bad : List Nat) (checks : List (Bool × Nat)) (f : State → State) : State :=
  match firstFail checks with
  | some st => (if st = met then bad.foldl (fun t slot => t.poisonRead part slot) s else s).complete ref st
  | none => f s

/-- A command that reads a range (R319). -/
def State.checkedRead (s : State) (ref : CmdRef) (part addr len : Nat) (checks : List (Bool × Nat)) (f : State → State) : State :=
  s.checkedMeeting ref part 0x0318 (s.poisonedIn part addr len) checks f

/-- A command that has to read the tiles of `bad`, which are poisoned, is refused after its other checks (R319). -/
def State.meeting (s : State) (ref : CmdRef) (part : Nat) (bad : List Nat) (checks : List (Bool × Nat)) (f : State → State) : State :=
  s.checkedMeeting ref part 0x0318 bad (checks ++ [(!bad.isEmpty, 0x0318)]) f

/-- A byte read of a range counts as reads of its tiles (R296). -/
def State.countReads (s : State) (part addr len : Nat) : State :=
  ((List.range (slotRange addr len).2).map fun i => (slotRange addr len).1 + i).foldl (fun s slot =>
    match s.slotRef part slot with
    | none => s
    | some r => (s.countRead part r slot).countTier part (s.tile r.owner slot)) s

/-! ### Ranges of extents and tiles -/

/-- Scrub every tile entry of a partition whose slot lies in `[lo, hi)` (R322). -/
def State.scrubRange (s : State) (part lo hi : Nat) : State :=
  ((s.tilesOf part).filter fun e => decide (lo ≤ e.1) && decide (e.1 < hi)).foldl (fun s e => s.scrubTile part e.1) s

/-- Remove the mappings of a partition of extents `[lo, hi)`. -/
def State.unmapRange (s : State) (part lo hi : Nat) : State :=
  let extents := SMap.keep (fun key _ => !(decide (extKey part lo ≤ key) && decide (key < extKey part hi))) s.spn.extents
  { s with spn := { s.spn with extents } }

/-- The hint that a tile has, or is to have once its migration finishes (R301). -/
def Tile.asked (t : Tile) : Option Byte := match t.nextHint with
  | some h => some h.1
  | none => t.hint

/-- The keep-warm slots of a partition: those hinted so, and those of its keep-warm extents that no hint of their own changes
(R298). -/
def State.keepWarmTiles (s : State) (part : Nat) : Nat :=
  let warm := ((s.ownExtents part).filter fun e => e.2.hint = 2).map (·.1)
  let own := s.tilesOf part
  256 * warm.length
    + (own.filter fun e => e.2.asked = some 2 && !(warm.contains (e.1 / 256))).length
    - (own.filter fun e => e.2.asked.isSome && e.2.asked ≠ some 2 && warm.contains (e.1 / 256)).length

/-- The most bytes a partition's keep-warm tiles may count: 7/8 of its HBM share (R298). -/
def keepWarmLimit (hbm : Nat) : Nat := hbm * hbmUnit * 7 / 8

end Sys2Proof.Machine
end

