-- ==== Sys2Proof/Machine/SeqOps.lean ====
section
/-! DEFINITION. Operations on sequence slots and on the references they hold to gondolas (R328 to R335, R354, R358 to R364). -/

namespace Sys2Proof.Machine

/-- The slot of a slot number: slot j of core i has number 6i + j (R328). -/
def State.seq (s : State) (n : Nat) : SeqSlot := SMap.get SeqSlot.blank (s.core (n / 6)).slots (n % 6)

/-- Replace a sequence slot. -/
def State.setSeq (s : State) (n : Nat) (x : SeqSlot) : State :=
  s.modCore (n / 6) fun c => { c with slots := SMap.set SeqSlot.blank c.slots (n % 6) x }

/-- A slot number that exists (R328). -/
def slotOk (n : Nat) : Bool := decide (n < 1536)

/-- The slot numbers of a partition's cores. -/
def State.slotsIn (s : State) (part : Nat) : List Nat :=
  (s.coresIn part).flatMap fun k => (List.range 6).map fun j => 6 * k + j

/-- Every slot number that is occupied. -/
def State.occupied (s : State) : List Nat :=
  s.cores.flatMap fun e => e.2.slots.map fun x => 6 * e.1 + x.1

/-- A slot references a gondola: open or ending, and its index names it (R354). -/
def SeqSlot.references (x : SeqSlot) (g : Nat) : Bool :=
  (x.st == .opened || x.st == .ending) && decide (x.gondola.toNat = g)

/-- The slots that reference a gondola. -/
def State.refsOf (s : State) (g : Nat) : List Nat := s.occupied.filter fun n => (s.seq n).references g

/-- A gondola that is cut or withdrawing goes to Releasing when both reference counts are 0 (R358). -/
def Gondola.settleRefs (d : Gondola) : Gondola :=
  if (d.st == .cut || d.st == .withdrawing) && d.refs == 0 && d.retRefs == 0 then { d with st := .releasing } else d

/-- A reference of a slot ends as it enters Scrubbing (R354). -/
def State.dropRef (s : State) (x : SeqSlot) : State :=
  if x.gondola = 0xffff then s
  else
    let d := s.gondola x.gondola.toNat
    let d := if d.hasRetiring && decide (x.version = d.retVersion) then { d with retRefs := d.retRefs - 1 }
      else { d with refs := d.refs - 1 }
    s.setGondola x.gondola.toNat d.settleRefs

/-- A token boundary of a sequence: an ending slot that no running step includes passes to Scrubbing (R330, R331). -/
def State.tokenBoundary (s : State) (n : Nat) : State :=
  let x := s.seq n
  if x.st = .ending ∧ x.inStep = false then (s.setSeq n { x with st := .scrubbing }).dropRef x else s

/-- An open sequence becomes ending with a status, kept over later ones, and is no longer ready; at a token boundary it goes
on to Scrubbing at once (R330, R362, R363). A sequence that ends with 0x0501 sets GON_EVENT.WITHDRAWN and raises its event (R389; assumption 85). -/
def State.endSeq (s : State) (n : Nat) (status : W16) : State :=
  let x := s.seq n
  if x.st = .opened then
    let t := s.setSeq n { x with st := .ending, endStatus := status, fed := none }
    let t := if status = 0x0501 then t.gonEvent 0 { status := 0x0501, part := some x.part, words := [n] } else t
    t.tokenBoundary n
  else s

/-- A sequence is cut: under the bounded policy it has so many tokens left (R361). -/
def State.graceCheck (s : State) (n : Nat) : State :=
  let x := s.seq n
  let d := s.gondola x.gondola.toNat
  match x.cutAt with
  | some a =>
    if x.st = .opened ∧ d.st = .cut ∧ d.policy = 1 ∧ a.toNat + d.grace.toNat ≤ x.n.toNat then s.endSeq n 0x0501 else s
  | none => s

/-- Every referencing sequence ends with 0x0501 at its next token boundary (R362). -/
def State.withdraw (s : State) (g : Nat) : State := (s.refsOf g).foldl (fun s n => s.endSeq n 0x0501) s

/-- The extent of a span byte address. -/
def extentOf (addr : Nat) : Nat := addr / 2 ^ 21

/-- Scrub `n` tile slots from a span address, skipping those whose extent the partition has not mapped; through a read-only mapping it is the
owner's tile that is scrubbed (R335, R364). -/
def State.scrubSlots (s : State) (part slot : Nat) : Nat → State
  | 0 => s
  | k + 1 =>
    let t := match s.slotRef part slot with
      | none => s
      | some r => s.scrubTile r.owner slot
    t.scrubSlots part (slot + 1) k

/-- Tiles per quarter of a page: r / 64 for Z16 latents, r / 128 for Z8 (R336). -/
def SeqSlot.quarterTiles (x : SeqSlot) : Nat := x.width.toNat / (if x.latent = 0 then 64 else 128)

/-- Tile slots of a page table (R338). -/
def tableSlots (p l : Nat) : Nat := ceilDiv (8 * p * l) 8192

/-- Scrub the pages that entries `i` on of a page table name. -/
def State.scrubPages (s : State) (x : SeqSlot) (table : Mem) (i : Nat) : Nat → State
  | 0 => s
  | k + 1 =>
    let page := table.readNat (8 * i) 8
    let t := if page = 0 then s else s.scrubSlots x.part (page / 8192) (4 * x.quarterTiles)
    t.scrubPages x table (i + 1) k

/-- Scrub a sequence: every tile of every page a non-zero entry names, then the page table (R335). -/
def State.scrubSeq (s : State) (x : SeqSlot) : State :=
  let n := x.pages.toNat * x.layers.toNat
  let table := s.spanRead x.part x.table.toNat (8 * n)
  (s.scrubPages x table 0 n).scrubSlots x.part (x.table.toNat / 8192) (tableSlots x.pages.toNat x.layers.toNat)

/-- The kind 5 entry of a sequence (R514). -/
def seqEntry (n part : Nat) (x : SeqSlot) : CplEntry :=
  { kind := 5, status := x.endStatus, part := BitVec.ofNat 8 part
    detail := BitVec.ofNat 384 (n + x.endStatus.toNat * 2 ^ 16 + x.ident.toNat * 2 ^ 32 + x.n.toNat * 2 ^ 64) }

/-- The result of SEQ_CLOSE: the end status in bytes 0x10 and 0x11, the final n in bytes 0x14 to 0x17 (R514). -/
def seqResult (x : SeqSlot) : Nat := x.endStatus.toNat + x.n.toNat * 2 ^ 32

/-- The scrub of a sequence is complete: the slot is free, the SEQ_CLOSE commands that wait complete, and a sequence that did
not end by SEQ_CLOSE is reported by a kind 5 entry (R330, R335, R515). -/
def State.freeSeq (s : State) (n : Nat) : State :=
  let x := s.seq n
  let t := (s.scrubSeq x).setSeq n {}
  let t := x.closers.foldl (fun t r => t.complete r 0 (seqResult x)) t
  if x.closed then t else t.post (some x.part) (seqEntry n x.part x)

end Sys2Proof.Machine
end

