-- ==== Sys2Proof/Machine/CoreOps.lean ====
section
/-! DEFINITION. Operations on cores that bundles, tethers and messages share: registers, the core store, channels and credits,
banks and routines, the end of a routine, taking a spool and the spool boundary (R108 to R154, R158 to R166). -/

namespace Sys2Proof.Machine

/-! ### Registers (R163) -/

def Core.areg (c : Core) (i : Nat) : AddrReg := SMap.get AddrReg.blank c.a i
def Core.creg (c : Core) (i : Nat) : W64 := SMap.get 0 c.c i
def Core.sreg (c : Core) (i : Nat) : W64 := SMap.get 0 c.s i
def Core.vreg (c : Core) (i : Nat) : BitVec 8192 := SMap.get 0 c.v i
def Core.treg (c : Core) (i : Nat) : Handle := SMap.get Handle.blank c.t i

/-- Write one register. -/
def Core.write (c : Core) : RegWrite → Core
  | .a i x => { c with a := SMap.set AddrReg.blank c.a i x }
  | .c i x => { c with c := SMap.set 0 c.c i x }
  | .s i x => { c with s := SMap.set 0 c.s i x }
  | .v i x => { c with v := SMap.set 0 c.v i x }
  | .t i x => { c with t := SMap.set Handle.blank c.t i x }

/-- Write registers in order. -/
def Core.writeAll (c : Core) (l : List RegWrite) : Core := l.foldl Core.write c

/-- value := (value + stride) mod bound, a bound of 0 meaning 2^64; the stride is signed (R164). -/
def AddrReg.increment (r : AddrReg) : AddrReg :=
  if r.bound = 0 then { r with value := r.value + r.stride }
  else { r with value := BitVec.ofNat 64 (((r.value.toNat : Int) + r.stride.toInt) % (r.bound.toNat : Int)).toNat }

/-- A pending `seta` of an address register steps on; other writes stay. -/
def RegWrite.stepA (i : Nat) : RegWrite → RegWrite
  | .a j x => if j = i then .a j x.increment else .a j x
  | w => w

/-- Whether a write is to address register `i`. -/
def RegWrite.isA (i : Nat) : RegWrite → Bool
  | .a j _ => decide (j = i)
  | _ => false

/-- Auto-increment address register `i`: the value a `seta` in flight will give it, or the one it holds (R160, R164). -/
def Core.autoInc (c : Core) (i : Nat) : Core :=
  if c.ops.any fun o => o.writes.any (RegWrite.isA i) then
    { c with ops := c.ops.map fun o => { o with writes := o.writes.map (RegWrite.stepA i) } }
  else c.write (.a i (c.areg i).increment)

/-! ### The active bank (R118 to R122) -/

/-- The active bank. -/
def Core.bank (c : Core) : Mem := if c.activeB then c.bankB else c.bankA

/-- The bundle count of the running spool (R118). -/
def Core.bundles (c : Core) : Nat := c.bank.readNat 0x00c 2

/-- Bundle `j` of the running spool (R122). -/
def Core.bundleAt (c : Core) (j : Nat) : Nat := c.bank.readNat (0x1000 + 16 * j) 16

/-- The running spool carries a stop mark (R118, R149). -/
def Core.stopMarked (c : Core) : Bool := c.gen.isSome && c.bank.readNat 0x007 1 % 2 == 1

/-- The stop bundle and the stop pass of the running spool (R118). -/
def Core.stopBundle (c : Core) : Nat := c.bank.readNat 0x010 2
def Core.stopPass (c : Core) : Nat := c.bank.readNat 0x028 4

/-- The core has come to the stop bundle on the stop pass (R149). -/
def Core.atStop (c : Core) : Bool :=
  c.stopMarked && decide (c.pc = c.stopBundle) && decide (c.passes.toNat + 1 = c.stopPass)

/-- The next bundle, decoded; none past the last bundle or where it is invalid. -/
def Core.next (c : Core) : Option Bundle := if c.pc < c.bundles then decodeBundle (c.bundleAt c.pc) else none

/-! ### The core store (R109, R110, R161) -/

/-- A 64-byte line touches the bytes `[a, a + n)`. -/
def lineMeets (l a n : Nat) : Bool := decide (64 * l < a + n) && decide (a < 64 * (l + 1))

/-- A 64-byte line lies wholly within `[a, a + n)`. -/
def lineWithin (l a n : Nat) : Bool := decide (a ≤ 64 * l) && decide (64 * (l + 1) ≤ a + n)

/-- A read of `[a, a + n)` meets a poisoned line. -/
def Core.readPoison (c : Core) (a n : Nat) : Bool := c.poison.any fun l => lineMeets l a n

/-- A write of `[a, a + n)` covers only a part of a poisoned line. -/
def Core.writePoison (c : Core) (a n : Nat) : Bool := c.poison.any fun l => lineMeets l a n && !lineWithin l a n

/-- Write bytes to the core store; a line that is covered whole is poisoned no longer. -/
def Core.storeBytes (c : Core) (a n : Nat) (m : Mem) : Core :=
  { c with store := c.store.splice a n m, poison := c.poison.filter fun l => !lineWithin l a n }

/-- Two byte ranges share a 64-byte line. -/
def linesMeet (a n b m : Nat) : Bool :=
  decide (0 < n) && decide (0 < m) && decide (a / 64 ≤ (b + m - 1) / 64) && decide (b / 64 ≤ (a + n - 1) / 64)

/-- The handles a drain writes (R192). -/
def DrainOp.handles (d : DrainOp) : List Reg := if d.fmt = 0 then [.t d.t, .t (d.t + 1)] else [.t d.t]

/-- The core-store ranges that operations in flight will still write. -/
def Core.pendingRanges (c : Core) : List (Nat × Nat) :=
  (c.ops.map fun o => o.lines) ++
  ((c.arrA.drains ++ c.arrB.drains).flatMap fun d => if d.fmt = 0 then [(d.addr0, 8192), (d.addr1, 8192)] else [(d.addr0, 8192)])

/-- No operation in flight will still write a line of `[a, a + n)`, so that an access keeps issue order (R161). -/
def Core.rangeFree (c : Core) (a n : Nat) : Bool := c.pendingRanges.all fun r => !linesMeet a n r.1 r.2

/-- The tile a local handle names, as the store holds it: payload and side data. -/
def Core.tileAt (c : Core) (h : Handle) : TileData :=
  { fmt := h.fmt.toNat, payload := c.store.slice h.addr.toNat 8192, side := c.store.slice (h.addr.toNat + 8192) h.side.toNat
    sideLen := h.side.toNat }

/-- The bytes a handle's tile takes. -/
def Handle.size (h : Handle) : Nat := 8192 + h.side.toNat

/-- The handle is local; it names a span tile (R165). -/
def Handle.isLocal (h : Handle) : Bool := h.st == 1
def Handle.isSpan (h : Handle) : Bool := h.st == 2

/-! ### Arrays and work in flight (R158, R169, R194) -/

/-- Operations of an array not yet complete (R194, R249). -/
def ArrayState.load (x : ArrayState) : Nat := x.bridles.length + x.streams.length + x.drains.length

/-- No operation and no product of an array is under way. -/
def ArrayState.quiet (x : ArrayState) : Bool := x.load == 0 && x.landing.isEmpty

/-- Array A or B of a core. -/
def Core.array (c : Core) (b : Bool) : ArrayState := if b then c.arrB else c.arrA

/-- Replace array A or B. -/
def Core.setArray (c : Core) (b : Bool) (x : ArrayState) : Core := if b then { c with arrB := x } else { c with arrA := x }

/-- Registers and handles that an operation in flight is still writing (R158). -/
def Core.busyRegs (c : Core) : List Reg :=
  c.ops.flatMap (·.busy) ++ (c.arrA.drains ++ c.arrB.drains).flatMap DrainOp.handles

/-- A register is ready. -/
def Core.isReady (c : Core) (r : Reg) : Bool := !(c.busyRegs.contains r)

/-- Every operation issued has completed. -/
def Core.quiet (c : Core) : Bool := c.ops.isEmpty && c.arrA.quiet && c.arrB.quiet

/-! ### Channels and credits (R137 to R144) -/

/-- A channel of a core. -/
def Core.chan (c : Core) (i : Nat) : Channel := SMap.get Channel.blank c.chans i

/-- Replace a channel. -/
def Core.setChan (c : Core) (i : Nat) (x : Channel) : Core := { c with chans := SMap.set Channel.blank c.chans i x }

/-- The local address of buffer `i` of a channel (R139, R153). -/
def Core.bufAddr (c : Core) (ch i : Nat) : Nat :=
  c.msgStart + 9232 * (((List.range ch).map fun j => (c.chan j).depth).sum + i)

/-- A channel is empty: no message held, no credit outstanding (R144). -/
def Channel.empty (x : Channel) : Bool := x.held == 0 && x.granted == 0

/-- The length of a message's payload (R138). -/
def MeshMsg.len (m : MeshMsg) : Nat :=
  match m.data with
  | none => 0
  | some d => 8192 + d.sideLen

/-- The 16-byte header of a message (R138). -/
def MeshMsg.header (m : MeshMsg) : Nat :=
  m.srcByte.toNat + m.hint.toNat * 2 ^ 8 + m.len * 2 ^ 16 + m.word0.toNat * 2 ^ 32 + m.word1.toNat * 2 ^ 64

/-- A message's header and payload as the bytes of its buffer (R138, R153). -/
def MeshMsg.image (m : MeshMsg) : Mem :=
  let h := Mem.ofList (bytesLE m.header 16)
  match m.data with
  | none => h
  | some d => (h.splice 16 8192 d.payload).splice (16 + 8192) d.sideLen d.side

/-- A message lands in its channel: in the buffer behind those held; bytes beyond its payload stay (R141, R153), and lines that it covers
whole are poisoned no longer (R110). One that was sent before the core left its partition reaches the core and is dropped there, since no channel
has granted it a credit any longer: the manual does not say what becomes of it (R114, assumption 23). -/
def Core.land (c : Core) (m : MeshMsg) : Core :=
  let x := c.chan m.chan
  if m.stale then c
  else (c.storeBytes (c.bufAddr m.chan ((x.headBuf + x.held) % max 1 x.depth)) (16 + m.len) m.image).setChan m.chan { x with held := x.held + 1 }

/-- The message that a batcher of partition `n` holds for a core, if any (R376). -/
def State.batchMsg (s : State) (n dst : Nat) : Option MeshMsg :=
  if n < 32 then (s.part n).batcher.toSend.find? fun m => m.dst = dst else none

/-- A sender is given its credit: a core may issue its `send`; a batcher, number 256 + n, sends its message (R140, R376). -/
def State.giveCredit (s : State) (src dst ch : Nat) : State :=
  if src < 256 then s.modCore src fun c => { c with request := none, credit := some (dst, ch) }
  else match s.batchMsg (src - 256) dst with
    | none => s
    | some m =>
      let t := s.modPart (src - 256) fun p =>
        { p with batcher := { p.batcher with toSend := p.batcher.toSend.filter fun x => x.dst ≠ dst } }
      { t with mesh := t.mesh ++ [m] }

/-- Grant credits of a channel to its waiting senders, in order, while it has any (R140). -/
def State.grant (s : State) (dst ch : Nat) : Nat → State
  | 0 => s
  | fuel + 1 =>
    let x := (s.core dst).chan ch
    match x.waiters with
    | [] => s
    | w :: rest =>
      if x.granted < x.depth then
        ((s.modCore dst fun c => c.setChan ch { x with granted := x.granted + 1, waiters := rest }).giveCredit w dst ch).grant dst ch fuel
      else s

/-- Grant what may be granted. -/
def State.grantAll (s : State) (dst ch : Nat) : State := s.grant dst ch (((s.core dst).chan ch).waiters.length)

/-- A credit returns to its channel (R140). -/
def State.returnCredit (s : State) (dst ch : Nat) : State :=
  (s.modCore dst fun c => c.setChan ch { c.chan ch with granted := (c.chan ch).granted - 1 }).grantAll dst ch

/-- A core gives up its credit or its request for one (R140, R147, R151). -/
def State.dropCredit (s : State) (k : Nat) : State :=
  let c := s.core k
  let t := match c.request with
    | none => s
    | some (dst, ch) =>
      (s.modCore dst fun d => d.setChan ch { d.chan ch with waiters := (d.chan ch).waiters.filter (· ≠ k) }).modCore k
        fun c => { c with request := none }
  match c.credit with
  | none => t
  | some (dst, ch) => (t.modCore k fun c => { c with credit := none }).returnCredit dst ch

/-! ### Routine ends and reports (R132, R135, R514) -/

/-- The kind 6 entry of a routine end (R514). -/
def routineEnd (part k idx : Nat) (gen : W32) (st : Nat) : CplEntry :=
  { kind := 6, status := BitVec.ofNat 16 st, part := BitVec.ofNat 8 part
    detail := BitVec.ofNat 384 (k + idx * 2 ^ 16 + gen.toNat * 2 ^ 32) }

/-- Report a routine end. -/
def State.reportEnd (s : State) (k st idx : Nat) (gen : W32) : State :=
  match s.partOf k with
  | none => s
  | some p => s.post (some p) (routineEnd p k idx gen st)

/-- The kind 2 entry of a spool report (R135, R514). -/
def spoolReport (part : Nat) (g : GenRec) : CplEntry :=
  { kind := 2, status := 0, part := BitVec.ofNat 8 part
    detail := BitVec.ofNat 384 (g.gen.toNat + popCount g.took * 2 ^ 32 + popCount g.dropped * 2 ^ 48 + g.dropped.toNat * 2 ^ 128) }

/-- Some core of the partition still holds generation `g` ready. -/
def State.holdsReady (s : State) (part : Nat) (g : W32) : Bool :=
  (s.coresIn part).any fun k => decide ((s.core k).inactive = .ready) && decide ((s.core k).readyGen = g)

/-- A generation that some core runs, or holds ready or filling, or that has not been reported, is kept (R126). -/
def State.keepsGen (s : State) (part : Nat) (g : GenRec) : Bool :=
  !g.reported || (s.coresIn part).any fun k =>
    decide ((s.core k).gen = some g.gen) || (decide ((s.core k).inactive ≠ .empty) && decide ((s.core k).readyGen = g.gen))

/-- Post the spool reports that are due, oldest first, and forget generations that no core runs or holds (R135). -/
def State.checkReports (s : State) (part : Nat) : State :=
  let due := (s.part part).gens.filter fun g => !g.reported && (g.boundary || (g.dropped != 0 && !s.holdsReady part g.gen))
  let t := s.modPart part fun p => { p with gens := p.gens.map fun g => if due.contains g then { g with reported := true } else g }
  let t := t.modPart part fun p => { p with gens := p.gens.filter (t.keepsGen part) }
  due.foldl (fun t g => t.post (some part) (spoolReport part g)) t

/-! ### Supply (R15, R571, R573) -/

/-- A core is in Aloft: it runs a routine; else it is in Slack (R578). -/
def Core.aloft (c : Core) : Bool :=
  match c.run with
  | .running | .waitBank => true
  | _ => false

/-- The policy of a core: that of its partition; idle cores and those of no partition are balanced; 3 acts as 1 (R573, R594). -/
def State.policyOf (s : State) (k : Nat) : Nat :=
  match s.partOf k with
  | none => 0
  | some p => if (s.core k).aloft then (if (s.part p).policy = 3 then 1 else (s.part p).policy.toNat) else 0

/-- The floor of a core's supply, in steps of 10 mV above 0.55 V (R573). -/
def State.floorOf (s : State) (k : Nat) : Nat := if s.policyOf k = 1 then 10 else 0

/-- The ceiling of a core's supply: its policy's, lowered for temperature, never below its floor (R573, R575). -/
def State.ceilingOf (s : State) (k : Nat) : Nat :=
  let v := min 35 s.pwr.vmax.toNat
  let c := if s.policyOf k = 2 then min 10 v else v
  max (s.floorOf k) (c - (s.core k).ceilingCut.toNat)

/-- A core's supply comes within the range of its policy (R15, R573). -/
def State.fitSupply (s : State) (k : Nat) : State :=
  s.modCore k fun c => { c with supply := BitVec.ofNat 6 (max (s.floorOf k) (min (s.ceilingOf k) c.supply.toNat)) }

/-! ### Near regions and the boundary (R116, R134, R146, R290, R292) -/

/-- The near copies: key of the tile, core, local address, content. -/
def State.nearCopies (s : State) : List (Nat × Nat × Nat × TileData) :=
  s.spn.tiles.filterMap fun e => match s.nearAddr e.2 with
    | none => none
    | some (k, a) => some (e.1, k, a, s.tileData (e.1 / 2 ^ 39) (e.1 % 2 ^ 39))

/-- Near copies keep their content where a change moves their places: each is written at its new address. The near region lies below the message
area, which other channel depths move, and R131 says that the core store keeps its contents; that the copies move with their places is the
model's choice (assumption 14). -/
def State.keepNear (before after : State) : State :=
  before.nearCopies.foldl (fun t e =>
    let tile := t.tile (e.1 / 2 ^ 39) (e.1 % 2 ^ 39)
    match t.nearAddr tile with
    | none => t
    | some (k, a) => if k = e.2.1 ∧ a = e.2.2.1 then t else t.writeNear { tile with data := e.2.2.2 }) after

/-- The kites of a partition at its coming spool boundary (R123). -/
def State.comingKites (s : State) (part : Nat) : W32 :=
  match (s.part part).resize with
  | none => (s.part part).kites
  | some r => r.kites

/-- A core that leaves its partition: idle, with no spool, no channel and nothing in flight; its sequence slots stay. -/
def Core.leave (c : Core) : Core :=
  { c with
    run := .idle, gen := none, inactive := .empty, chans := [], pc := 0, passes := 0, loops := [], ops := [], arrA := {}, arrB := {}
    request := none, credit := none, ended := 0, endedAt := 0 }

/-- The messages on the mesh to cores that leave their partition. -/
def State.staleMesh (s : State) (ks : List Nat) : State :=
  { s with mesh := s.mesh.map fun m => if ks.contains m.dst then { m with stale := true } else m }

/-- A core that joins a partition at a boundary keeps the spool it holds ready (R116). -/
def Core.joinHere (c : Core) (rank n : Nat) : Core := { c with rank, n }

/-- A held resize takes effect: kites leave with their sequences ended by 0x0906 and their near copies written back, kites
join, and ranks and N take their new values (R116, R146, R292, R523). A core that leaves is of no partition, and its supply follows the balanced
rule (R573). -/
def State.moveKites (s : State) (part : Nat) (new : W32) : State :=
  let old := (s.part part).kites
  let leaving := coresOf (old &&& ~~~new)
  let t := leaving.foldl (fun t k => (List.range 6).foldl (fun t j => t.endSeq (6 * k + j) 0x0906) t) s
  let t := t.writeBack fun k _ => leaving.contains k
  let t := leaving.foldl State.dropCredit t
  let t := t.staleMesh leaving
  let t := t.modCores leaving fun _ c => c.leave
  let t := t.modPart part fun p => { p with kites := new, resize := none }
  let t := leaving.foldl State.fitSupply t
  t.modCores (coresOf new) fun k c => c.joinHere (rankIn new k) (coreCount new)

/-- What waits for the kites to move: the resize completes once no tile of the partition migrates (R523). -/
def State.resizeMoved (s : State) (part : Nat) (r : Resize) : State :=
  let j : SpanJob := { kind := .resize, ref := r.ref, part, lo := 0, hi := 2 ^ 39 }
  if s.jobSettled j then s.completeOpt r.ref 0 else { s with spn := { s.spn with jobs := s.spn.jobs ++ [j] } }

/-- The near setting asked for takes effect; places that it removes are written back first (R290). -/
def State.moveNear (s : State) (part : Nat) : State :=
  let n := (s.part part).nearReq
  let ks := s.coresIn part
  let t := s.writeBack fun k place => ks.contains k && decide (n.toNat ≤ place)
  t.keepNear (t.modPart part fun p => { p with nearEff := n })

/-- The spool boundary of a generation (R134): a held resize moves kites, the near setting changes, the batcher may start
steps again (R374, R379). -/
def State.boundary (s : State) (part : Nat) : State :=
  let t := match (s.part part).resize with
    | none => s
    | some r => (s.moveKites part r.kites).resizeMoved part r
  (t.moveNear part).modPart part fun p => { p with batcher := { p.batcher with blocked := false } }

/-! ### Taking a spool (R130, R131, R144) -/

/-- The channel depths of a spool header (R118). -/
def headerDepth (bank : Mem) (ch : Nat) : Nat := bank.readNat 0x020 8 / 16 ^ ch % 16

/-- A core's channel depths are those of a header. -/
def Core.sameDepths (c : Core) (bank : Mem) : Bool :=
  (List.range 16).all fun ch => decide ((c.chan ch).depth = headerDepth bank ch)

/-- The channels of a header; every channel of the core is empty, and senders that wait for a credit keep waiting. -/
def Core.newChannels (c : Core) (bank : Mem) : SMap Channel :=
  (List.range 16).foldl (fun m ch =>
    SMap.set Channel.blank m ch { depth := headerDepth bank ch, waiters := (c.chan ch).waiters }) []

/-- The entry bundle of the routine a core runs: the lowest-numbered entry whose mask has its core index (R119, R120). -/
def routineFor (bank : Mem) (k : Nat) : Option Nat :=
  ((List.range (bank.readNat 0x006 1)).find? fun i => bank.readNat (0x040 + 48 * i + k / 8) 1 / 2 ^ (k % 8) % 2 = 1).map
    fun i => bank.readNat (0x040 + 48 * i + 0x20) 2

/-- The registers of a core that starts in a new generation (R131). -/
def Core.freshRegs (c : Core) (k : Nat) (g : W32) : Core :=
  { c with
    a := [], c := [], v := [], t := [], loops := [], flags := 0
    s := [(0, BitVec.ofNat 64 k), (1, BitVec.ofNat 64 c.rank), (2, BitVec.ofNat 64 c.n), (3, g.setWidth 64)].filter fun e => e.2 ≠ 0 }

/-- The banks exchanged: the core holds the spool it took, and its inactive bank is Empty (R127, R130, R238). -/
def Core.exchange (c : Core) : Core :=
  { c with
    activeB := !c.activeB, inactive := .empty, gen := some c.readyGen, snapped := false, passes := 0, ended := 0, endedAt := 0, pc := 0
    arrA := {}, arrB := {}, ops := [], request := none, credit := none }

/-- A core takes the generation its inactive bank holds ready, and whether it ends at once with 0x0904 (R130, R131, R144). A routine that ends
so has not set the core's registers: R131 speaks of a core that starts, and that this one does not is the model's choice (assumption 28). -/
def Core.takeSpool (c : Core) (k : Nat) : Core × Bool :=
  let c := c.exchange
  let same := c.sameDepths c.bank
  if !same && !((List.range 16).all fun ch => (c.chan ch).empty) then ({ c with run := .idle }, true)
  else
    let c := if same then c else { c with chans := c.newChannels c.bank }
    match routineFor c.bank k with
    | none => ({ c with run := .idle }, false)
    | some e => ({ c.freshRegs k c.readyGen with run := .running, pc := e }, false)

/-- A core's own part of taking a spool: its routine begins, or its end with 0x0904 is reported; senders that wait may be
granted credits of the new depths. -/
def State.startCore (s : State) (k : Nat) : State :=
  let r := (s.core k).takeSpool k
  let t := (s.keepNear (s.setCore k r.1)).fitSupply k
  let t := (List.range 16).foldl (fun t ch => t.grantAll k ch) t
  if r.2 then t.reportEnd k 0x0904 0xffff r.1.readyGen else t

/-- Record that cores took a generation. -/
def Part.tookGen (p : Part) (g : W32) (ks : List Nat) : Part :=
  { p with gens := p.gens.map fun r =>
      if r.gen = g && !r.reported then { r with took := ks.foldl setBit r.took } else r }

/-- Every core of the partition has taken a generation that has not had its boundary (R134). A core that a held resize drops is not waited for where
it does not hold the generation: it was broadcast to the cores of the coming kites alone (R123, assumption 23). -/
def State.allTook (s : State) (part : Nat) (g : W32) : Bool :=
  let gets (k : Nat) : Bool :=
    bit (s.comingKites part) (k / 8) || (decide ((s.core k).inactive ≠ .empty) && decide ((s.core k).readyGen = g))
  (s.part part).gens.any fun r => r.gen = g && !r.boundary && (s.coresIn part).all fun k => bit r.took k || !gets k

/-- A core runs, or is idle in, a stop-marked spool whose snapshot has not ended (R149 to R152). -/
def Core.underStop (c : Core) : Bool := c.stopMarked && !c.snapped

/-- A core that is idle, with what it issued before complete, and that holds a spool ready takes it (R130), but for one that counts as halted
in a stop-marked spool before its snapshot is written (R149, R152). -/
def Core.mayTake (c : Core) : Bool := decide (c.run = .idle) && decide (c.inactive = .ready) && c.quiet && !c.underStop

/-- The idle cores of a partition that may take a spool. -/
def State.idleReady (s : State) (part : Nat) : List Nat := (s.coresIn part).filter fun k => (s.core k).mayTake

/-- Cores of a partition take generation `g`, which they hold ready. Where the last of them takes it, the boundary comes first, so that ranks
and N have their new values, and the cores that join take it too; a core that leaves with that boundary does not start (R116, R130, R134). -/
def State.takeGen (s : State) (part : Nat) (g : W32) (ks : List Nat) : State :=
  let t := s.modPart part fun p => p.tookGen g ks
  let all := t.allTook part g
  let t := if all then t.boundary part else t
  let joined := if all then (t.idleReady part).filter fun k => !(ks.contains k) else []
  let t := t.modPart part fun p => p.tookGen g joined
  let t := if all then t.modPart part fun p =>
      { p with boundaryGen := some g, gens := p.gens.map fun r => if r.gen = g then { r with boundary := true } else r } else t
  (((ks ++ joined).filter fun k => (t.coresIn part).contains k).foldl State.startCore t).checkReports part

/-- Cores of a partition take the spool they hold ready (R130): those that hold the first one's generation, then those that hold another. -/
def State.take (s : State) (part : Nat) (ks : List Nat) : State :=
  match ks with
  | [] => s
  | k0 :: _ =>
    let g := (s.core k0).readyGen
    let t := s.takeGen part g (ks.filter fun k => (s.core k).readyGen = g)
    match ks.filter fun k => (s.core k).readyGen ≠ g with
    | [] => t
    | k1 :: r => t.takeGen part (s.core k1).readyGen (k1 :: r)

/-- A core at `swap` with its earlier work done changes banks as its inactive bank's state gives (R130). -/
def State.swapBanks (s : State) (k : Nat) : State :=
  match s.partOf k with
  | none => s
  | some p =>
    let c := s.core k
    let s := s.setCore k { c with ended := 0, endedAt := 0, loops := [], arrA := {}, arrB := {} }
    match c.inactive with
    | .ready => s.take p [k]
    | .filling => s.modCore k fun c => { c with run := .waitBank }
    | .empty => (s.modCore k fun c => { c with run := .idle }).fitSupply k

/-! ### The end of a routine (R132, R151, R196) -/

/-- STOP_NOW or a stop mark has halted a core. -/
def Core.isStopped (c : Core) : Bool :=
  match c.run with
  | .halted _ _ => true
  | _ => false

/-- A core whose work may have completed: a routine that has ended does as at `swap`, so it halts in a stop-marked spool or where STOP_NOW has
halted it, and swaps otherwise (R132, R149, R151); an idle core may take the spool it holds ready. A core that halts with cause 2 shows wait 0,
also where STOP_NOW had found it waiting: R151 gives the cause and not the wait (assumption 29). -/
def State.settleCore (s : State) (k : Nat) : State :=
  let c := s.core k
  if c.mayTake then
    match s.partOf k with
    | none => s
    | some p => s.take p [k]
  else if c.ended = 0 || !c.quiet then s
  else if c.stopMarked || c.isStopped then
    (s.setCore k { c with run := .halted 2 0, pc := c.endedAt, ended := 0, endedAt := 0 }).fitSupply k
  else s.swapBanks k

/-- The core runs a routine, or STOP_NOW has halted it with operations under way (R151). -/
def Core.mayEnd (c : Core) : Bool :=
  match c.run with
  | .running => c.ended == 0
  | .halted 3 _ => c.ended == 0
  | _ => false

/-- A routine ends with a status at a bundle; only its first status is reported (R132, R196). -/
def State.endRoutine (s : State) (k st idx : Nat) : State :=
  let c := s.core k
  if c.mayEnd then
    let t := (s.dropCredit k).modCore k fun c => { c with ended := BitVec.ofNat 16 st, endedAt := idx }
    (t.reportEnd k st idx (c.gen.getD 0)).settleCore k
  else s

end Sys2Proof.Machine
end

