-- ==== Sys2Proof/Machine/Flags.lean ====
section
/-! DEFINITION. The sticky flags of R180 and the rounding attributes of R187. -/

namespace Sys2Proof.Machine

/-- The seven sticky flags, numbered as R180 numbers them. -/
abbrev Flags := BitVec 7

def Flags.inexact : Flags := 0x01
def Flags.underflow : Flags := 0x02
def Flags.overflow : Flags := 0x04
def Flags.divZero : Flags := 0x08
def Flags.invalid : Flags := 0x10
def Flags.saturate : Flags := 0x20
def Flags.flush : Flags := 0x40

/-- `f` if `b` holds, else no flag. -/
def Flags.when (b : Bool) (f : Flags) : Flags := if b then f else 0

/-- The rounding attributes, in the code order of RND (R187). -/
inductive Rnd where
  | tiesEven | towardZero | towardPos | towardNeg | tiesAway
deriving DecidableEq, Repr, Inhabited

/-- The rounding attribute a RND code selects; codes 5 to 7 are reserved (R187). -/
def Rnd.ofCode : Nat → Rnd
  | 1 => .towardZero
  | 2 => .towardPos
  | 3 => .towardNeg
  | 4 => .tiesAway
  | _ => .tiesEven

/-- The RND code of a rounding attribute (R187). -/
def Rnd.code : Rnd → Nat
  | .tiesEven => 0
  | .towardZero => 1
  | .towardPos => 2
  | .towardNeg => 3
  | .tiesAway => 4

/-- Whether a magnitude with `kept` above the rounding point and remainder `rem` below it, where a whole unit is `unit`, is
rounded up in magnitude (R200, R187). -/
def Rnd.up (rm : Rnd) (neg : Bool) (kept rem unit : Nat) : Bool :=
  match rm with
  | .tiesEven => decide (2 * rem > unit) || (decide (2 * rem = unit) && decide (kept % 2 = 1))
  | .towardZero => false
  | .towardPos => !neg && decide (rem ≠ 0)
  | .towardNeg => neg && decide (rem ≠ 0)
  | .tiesAway => decide (rem ≠ 0) && decide (2 * rem ≥ unit)

/-- Whether an overflowing magnitude becomes infinity rather than the greatest finite value (IEEE 754, R200, R214). -/
def Rnd.overflowsToInf (rm : Rnd) (neg : Bool) : Bool :=
  match rm with
  | .tiesEven | .tiesAway => true
  | .towardZero => false
  | .towardPos => !neg
  | .towardNeg => neg

end Sys2Proof.Machine
end

