-- ==== Sys2Proof/Machine/Ieee.lean ====
section
/-! DEFINITION. IEEE 754 binary32 and binary64 arithmetic as R200 to R203 give it: exact results, rounded once. -/

namespace Sys2Proof.Machine

/-- A binary interchange format: its exponent and mantissa widths; the bias is 2^(eb-1) - 1 (R199). -/
structure Fmt where
  eb : Nat
  mb : Nat
deriving DecidableEq, Repr

def Fmt.f32 : Fmt := ⟨8, 23⟩
def Fmt.f64 : Fmt := ⟨11, 52⟩
def Fmt.width (f : Fmt) : Nat := 1 + f.eb + f.mb
def Fmt.bias (f : Fmt) : Nat := 2 ^ (f.eb - 1) - 1
/-- The least normal exponent. -/
def Fmt.emin (f : Fmt) : Int := 1 - (f.bias : Int)
/-- The format W selects (R187). -/
def Fmt.ofW (w : Bool) : Fmt := if w then .f64 else .f32

/-- A decoded value: a NaN keeps its sign, quiet bit and the payload below it; a finite value is (-1)^neg · m · 2^e. -/
inductive Val where
  | nan (neg quiet : Bool) (payload : Nat)
  | inf (neg : Bool)
  | fin (neg : Bool) (m : Nat) (e : Int)
deriving DecidableEq, Repr

/-- The number of bits of `m`. -/
def bitLen (m : Nat) : Nat := if m = 0 then 0 else Nat.log2 m + 1

/-- Decode a code of format `f`. -/
def Fmt.decode (f : Fmt) (x : Nat) : Val :=
  let neg := decide (x / 2 ^ (f.eb + f.mb) % 2 = 1)
  let e := x / 2 ^ f.mb % 2 ^ f.eb
  let m := x % 2 ^ f.mb
  if e = 2 ^ f.eb - 1 then
    if m = 0 then .inf neg
    else .nan neg (decide (m / 2 ^ (f.mb - 1) = 1)) (m % 2 ^ (f.mb - 1))
  else if e = 0 then .fin neg m (f.emin - f.mb)
  else .fin neg (2 ^ f.mb + m) ((e : Int) - f.bias - f.mb)

/-- Assemble a code from sign, exponent field and mantissa field. -/
def Fmt.pack (f : Fmt) (neg : Bool) (e m : Nat) : Nat :=
  (if neg then 2 ^ (f.eb + f.mb) else 0) + e * 2 ^ f.mb + m

def Fmt.infCode (f : Fmt) (neg : Bool) : Nat := f.pack neg (2 ^ f.eb - 1) 0
def Fmt.zeroCode (f : Fmt) (neg : Bool) : Nat := f.pack neg 0 0
def Fmt.maxCode (f : Fmt) (neg : Bool) : Nat := f.pack neg (2 ^ f.eb - 2) (2 ^ f.mb - 1)
/-- A NaN with its quiet bit set (R201). -/
def Fmt.quietNan (f : Fmt) (neg : Bool) (payload : Nat) : Nat := f.pack neg (2 ^ f.eb - 1) (2 ^ (f.mb - 1) + payload)
/-- The canonical quiet NaN: 0x7fc00000 or 0x7ff8000000000000 (R201). -/
def Fmt.canonNan (f : Fmt) : Nat := f.quietNan false 0

/-- Round m · 2^e to a multiple of 2^q: the multiple, and whether it is inexact. -/
def roundAt (rm : Rnd) (neg : Bool) (m : Nat) (e q : Int) : Nat × Bool :=
  if q ≤ e then (m * 2 ^ (e - q).toNat, false)
  else
    let u := 2 ^ (q - e).toNat
    let kept := m / u
    let rem := m % u
    (if rm.up neg kept rem u then kept + 1 else kept, decide (rem ≠ 0))

/-- Round m · 2^e to `mb` mantissa bits with the exponent unbounded (R211, R214, R217): the significand in
[2^mb, 2^(mb+1)), its unit exponent, and whether it is inexact. `m` is not 0. -/
def roundUnbounded (mb : Nat) (rm : Rnd) (neg : Bool) (m : Nat) (e : Int) : Nat × Int × Bool :=
  let q : Int := e + (bitLen m : Int) - 1 - mb
  let r := roundAt rm neg m e q
  if r.1 ≥ 2 ^ (mb + 1) then (r.1 / 2, q + 1, r.2) else (r.1, q, r.2)

/-- Round a finite exact value into format `f`, with its flags; tininess is detected after rounding (R200, R201). -/
def Fmt.round (f : Fmt) (rm : Rnd) (neg : Bool) (m : Nat) (e : Int) : Nat × Flags :=
  if m = 0 then (f.zeroCode neg, 0)
  else
    let u := roundUnbounded f.mb rm neg m e
    let top : Int := u.2.1 + f.mb
    if top < f.emin then
      let r := roundAt rm neg m e (f.emin - f.mb)
      (f.pack neg 0 r.1, Flags.when r.2 (Flags.underflow ||| Flags.inexact))
    else if top > f.bias then
      (if rm.overflowsToInf neg then f.infCode neg else f.maxCode neg, Flags.overflow ||| Flags.inexact)
    else (f.pack neg (top + f.bias).toNat (u.1 - 2 ^ f.mb), Flags.when u.2.2 Flags.inexact)

/-- Whether a value is a NaN, or a signalling NaN. -/
def Val.isNan : Val → Bool
  | .nan _ _ _ => true
  | _ => false
def Val.isSnan : Val → Bool
  | .nan _ q _ => !q
  | _ => false
def Val.neg : Val → Bool
  | .nan s _ _ => s
  | .inf s => s
  | .fin s _ _ => s
def Val.isZero : Val → Bool
  | .fin _ m _ => decide (m = 0)
  | _ => false

/-- The NaN result of R201: the first NaN operand with its quiet bit set; Invalid where any operand signals. -/
def nanResult (f : Fmt) : List Val → Flags → Option (Nat × Flags)
  | l, extra =>
    let fl := extra ||| Flags.when (l.any Val.isSnan) Flags.invalid
    match l.find? Val.isNan with
    | some (.nan s _ p) => some (f.quietNan s p, fl)
    | _ => none

/-- The canonical NaN of an invalid operation without a NaN operand (R201). -/
def invalidResult (f : Fmt) : Nat × Flags := (f.canonNan, Flags.invalid)

/-- A signed magnitude as an integer. -/
def signedInt (neg : Bool) (m : Nat) : Int := if neg then -(m : Int) else m

/-- Round the exact sum of two finite values; an exact zero sum of unlike signs is -0 only toward negative (IEEE 754). -/
def addFin (f : Fmt) (rm : Rnd) (s1 : Bool) (m1 : Nat) (e1 : Int) (s2 : Bool) (m2 : Nat) (e2 : Int) : Nat × Flags :=
  let e := min e1 e2
  let x := signedInt s1 (m1 * 2 ^ (e1 - e).toNat) + signedInt s2 (m2 * 2 ^ (e2 - e).toNat)
  if x = 0 then (f.zeroCode (if s1 = s2 then s1 else decide (rm = .towardNeg)), 0)
  else f.round rm (decide (x < 0)) x.natAbs e

/-- Addition of decoded values that are not NaN. -/
def addVal (f : Fmt) (rm : Rnd) : Val → Val → Nat × Flags
  | .inf a, .inf b => if a = b then (f.infCode a, 0) else invalidResult f
  | .inf a, _ => (f.infCode a, 0)
  | _, .inf b => (f.infCode b, 0)
  | .fin s1 m1 e1, .fin s2 m2 e2 => addFin f rm s1 m1 e1 s2 m2 e2
  | _, _ => invalidResult f

/-- A value with its sign inverted. -/
def Val.negate : Val → Val
  | .nan s q p => .nan s q p
  | .inf s => .inf (!s)
  | .fin s m e => .fin (!s) m e

/-- a + b (R188). -/
def fadd (f : Fmt) (rm : Rnd) (a b : Nat) : Nat × Flags :=
  let x := f.decode a
  let y := f.decode b
  match nanResult f [x, y] 0 with
  | some r => r
  | none => addVal f rm x y

/-- a - b (R188). -/
def fsub (f : Fmt) (rm : Rnd) (a b : Nat) : Nat × Flags :=
  let x := f.decode a
  let y := f.decode b
  match nanResult f [x, y] 0 with
  | some r => r
  | none => addVal f rm x y.negate

/-- The exact product of two values that are not NaN; `none` for infinity times zero. -/
def mulVal : Val → Val → Option Val
  | .inf a, .inf b => some (.inf (a != b))
  | .inf a, .fin b m _ => if m = 0 then none else some (.inf (a != b))
  | .fin a m _, .inf b => if m = 0 then none else some (.inf (a != b))
  | .fin a m e, .fin b n k => some (.fin (a != b) (m * n) (e + k))
  | _, _ => none

/-- Round a value that is not NaN into a format. -/
def roundVal (f : Fmt) (rm : Rnd) : Val → Nat × Flags
  | .inf s => (f.infCode s, 0)
  | .fin s m e => f.round rm s m e
  | .nan _ _ _ => invalidResult f

/-- a × b (R188). -/
def fmul (f : Fmt) (rm : Rnd) (a b : Nat) : Nat × Flags :=
  let x := f.decode a
  let y := f.decode b
  match nanResult f [x, y] 0 with
  | some r => r
  | none =>
    match mulVal x y with
    | none => invalidResult f
    | some v => roundVal f rm v

/-- Whether a product is of an infinity and a zero (R201). -/
def infTimesZero : Val → Val → Bool
  | .inf _, .fin _ m _ => decide (m = 0)
  | .fin _ m _, .inf _ => decide (m = 0)
  | _, _ => false

/-- a × b + c, rounded once (R188, R201). -/
def ffma (f : Fmt) (rm : Rnd) (a b c : Nat) : Nat × Flags :=
  let x := f.decode a
  let y := f.decode b
  let z := f.decode c
  match nanResult f [x, y, z] (Flags.when (infTimesZero x y) Flags.invalid) with
  | some r => r
  | none =>
    match mulVal x y with
    | none => invalidResult f
    | some p => addVal f rm p z

/-- a / b, correctly rounded (R202). -/
def fdiv (f : Fmt) (rm : Rnd) (a b : Nat) : Nat × Flags :=
  let x := f.decode a
  let y := f.decode b
  match nanResult f [x, y] 0 with
  | some r => r
  | none =>
    match x, y with
    | .inf _, .inf _ => invalidResult f
    | .inf s, v => (f.infCode (s != v.neg), 0)
    | v, .inf s => (f.zeroCode (v.neg != s), 0)
    | .fin s m e, .fin t n k =>
      if n = 0 then (if m = 0 then invalidResult f else (f.infCode (s != t), Flags.divZero))
      else if m = 0 then (f.zeroCode (s != t), 0)
      else
        let sh := f.mb + 4 + bitLen n
        let q := m * 2 ^ sh / n
        let r := m * 2 ^ sh % n
        f.round rm (s != t) (2 * q + (if r = 0 then 0 else 1)) (e - k - sh - 1)
    | _, _ => invalidResult f

/-- The integer square root of `x`, found bit by bit from bit `n - 1` down. -/
def isqrtBits (x : Nat) : Nat → Nat → Nat
  | 0, acc => acc
  | n + 1, acc => let t := acc + 2 ^ n
                  isqrtBits x n (if t * t ≤ x then t else acc)
def isqrt (x : Nat) : Nat := isqrtBits x (bitLen x / 2 + 1) 0

/-- The square root of a, correctly rounded (R202). -/
def fsqrt (f : Fmt) (rm : Rnd) (a : Nat) : Nat × Flags :=
  let x := f.decode a
  match nanResult f [x] 0 with
  | some r => r
  | none =>
    match x with
    | .inf s => if s then invalidResult f else (f.infCode false, 0)
    | .fin s m e =>
      if m = 0 then (f.zeroCode s, 0)
      else if s then invalidResult f
      else
        let k : Nat := 2 * (f.mb + 4)
        let odd : Nat := if (e - k) % 2 = 0 then 0 else 1
        let n := m * 2 ^ (k + odd)
        let r := isqrt n
        f.round rm false (2 * r + (if r * r = n then 0 else 1)) ((e - k - odd) / 2 - 1)
    | _ => invalidResult f

/-- Compare two values that are not NaN: below, equal, above as -1, 0, 1. -/
def cmpVal : Val → Val → Int
  | .inf a, .inf b => if a = b then 0 else if a then -1 else 1
  | .inf a, _ => if a then -1 else 1
  | _, .inf b => if b then 1 else -1
  | .fin s m e, .fin t n k =>
    let q := min e k
    let d := signedInt s (m * 2 ^ (e - q).toNat) - signedInt t (n * 2 ^ (k - q).toNat)
    if d < 0 then -1 else if d = 0 then 0 else 1
  | _, _ => 0

/-- IEEE 754-2019 minimum (`mx` false) or maximum (`mx` true): a NaN gives NaN, -0 counts below +0 (R202). -/
def fminmax (f : Fmt) (mx : Bool) (a b : Nat) : Nat × Flags :=
  let x := f.decode a
  let y := f.decode b
  match nanResult f [x, y] 0 with
  | some r => r
  | none =>
    let c := cmpVal x y
    let aBelow := decide (c < 0) || (decide (c = 0) && x.neg && !y.neg)
    (if aBelow != mx then a else b, 0)

/-- The predicates of `vcmp` (R188): 0 equal, 1 less, 2 less or equal, 3 unordered. -/
def fcmp (f : Fmt) (func a b : Nat) : Bool × Flags :=
  let x := f.decode a
  let y := f.decode b
  if x.isNan || y.isNan then
    let quietPred := decide (func = 0) || decide (func = 3)
    (decide (func = 3), Flags.when (x.isSnan || y.isSnan || !quietPred) Flags.invalid)
  else
    let c := cmpVal x y
    (match func with
      | 0 => decide (c = 0)
      | 1 => decide (c < 0)
      | 2 => decide (c ≤ 0)
      | _ => false, 0)

/-- binary32 to binary64, exact; a NaN keeps its sign and payload at the top (R203). -/
def widen (a : Nat) : Nat × Flags :=
  match Fmt.f32.decode a with
  | .nan s q p => (Fmt.f64.quietNan s (p * 2 ^ 29), Flags.when (!q) Flags.invalid)
  | v => roundVal .f64 .tiesEven v

/-- binary64 to binary32, rounded once; a NaN keeps the 22 highest payload bits (R203). -/
def narrow (rm : Rnd) (a : Nat) : Nat × Flags :=
  match Fmt.f64.decode a with
  | .nan s q p => (Fmt.f32.quietNan s (p / 2 ^ 29), Flags.when (!q) Flags.invalid)
  | v => roundVal .f32 rm v

end Sys2Proof.Machine
end

