-- ==== Sys2Proof/Machine/Formats.lean ====
section
/-! DEFINITION. Marrandun's short formats and their conversions (R204 to R217), block scales (R437), and the lanes of a vector
register (R259). Codes are natural numbers; `Val` is the decoded value. -/

namespace Sys2Proof.Machine

/-- A signed magnitude m · 2^e as a binary32 code; used where the value is exact in binary32. -/
def f32Of (neg : Bool) (m : Nat) (e : Int) : Nat := (Fmt.f32.round .tiesEven neg m e).1

/-- The canonical NaN of the arrays and of widening conversions: 0x7fc00000 (R211, R214, R220). -/
def f32Nan : Nat := Fmt.f32.canonNan

/-- A decoded value as a binary32 code, where it is exact; every NaN becomes the canonical one. -/
def Val.toF32 : Val → Nat
  | .nan _ _ _ => f32Nan
  | .inf s => Fmt.f32.infCode s
  | .fin s m e => f32Of s m e

/-! ### Z4 (R204 to R207) -/

/-- A Z4 magnitude in quarters, by index (R204). -/
def z4Quarters (i : Nat) : Nat := [0, 1, 2, 4, 6, 8, 12, 16].getD i 0

/-- The value of a Z4 code in a block of exponent byte `E` and fine byte `f` (R205). -/
def z4Decode (code E f : Nat) : Val :=
  if E = 0xff then .nan false true 0
  else if E = 0 then .fin false 0 0
  else .fin (decide (8 ≤ code)) (z4Quarters (code % 8) * (256 + f)) ((E : Int) - 137)

/-! ### Z8 (R208 to R212) -/

/-- The value of a Z8 code under lift `L` (R208, R209). -/
def z8Decode (code L : Nat) : Val :=
  if code = 0x80 then .nan false true 0
  else
    let neg := decide (128 ≤ code)
    let e := code / 8 % 16
    let m := code % 8
    if e = 0 then .fin neg m ((L : Int) - 41)
    else .fin neg (8 + m) ((e : Int) + L - 42)

/-- Round m · 2^e to a Z8 code, with the flags Saturate, Flush and Inexact (R211 from `y` on). -/
def z8Round (rm : Rnd) (neg : Bool) (m : Nat) (e : Int) : Nat × Flags :=
  if m = 0 then (0, 0)
  else
    let sign := if neg then 128 else 0
    let u := roundUnbounded 3 rm neg m e
    if decide (u.2.1 > 5) then (sign + 0x7f, Flags.saturate ||| Flags.inexact)
    else if u.2.1 ≥ -9 then (sign + (u.2.1 + 10).toNat * 8 + (u.1 - 8), Flags.when u.2.2 Flags.inexact)
    else
      let r := roundAt rm neg m e (-9)
      if r.1 = 0 then (0, Flags.flush ||| Flags.inexact) else (sign + r.1, Flags.when r.2 Flags.inexact)

/-- Conversion from binary32 to Z8 under lift `L` (R211). -/
def z8Encode (rm : Rnd) (x L : Nat) : Nat × Flags :=
  match Fmt.f32.decode x with
  | .nan _ _ _ => (0x80, 0)
  | .inf s => ((if s then 0xff else 0x7f), Flags.saturate ||| Flags.inexact)
  | .fin s m e => z8Round rm s m (e + 32 - L)

/-! ### Z16 (R213 to R215) -/

/-- The value of a Z16 code (R213). -/
def z16Decode (code : Nat) : Val :=
  let neg := decide (0x8000 ≤ code)
  let e := code / 256 % 128
  let m := code % 256
  if e = 0 then .fin neg 0 0
  else if e = 127 then (if m = 0 then .inf neg else .nan false true 0)
  else .fin neg (256 + m) ((e : Int) - 71)

/-- Conversion from binary32 to Z16 (R214). -/
def z16Encode (rm : Rnd) (x : Nat) : Nat × Flags :=
  match Fmt.f32.decode x with
  | .nan _ _ _ => (0x7f80, 0)
  | .inf s => ((if s then 0xff00 else 0x7f00), 0)
  | .fin s m e =>
    let sign := if s then 0x8000 else 0
    if m = 0 then (sign, 0)
    else
      let u := roundUnbounded 8 rm s m e
      let top : Int := u.2.1 + 8
      if top ≥ 64 then (sign + (if rm.overflowsToInf s then 0x7f00 else 0x7eff), Flags.overflow ||| Flags.inexact)
      else if top < -62 then (sign, Flags.flush ||| Flags.inexact)
      else (sign + (top + 63).toNat * 256 + (u.1 - 256), Flags.when u.2.2 Flags.inexact)

/-! ### Z19 (R216, R217) -/

/-- Conversion from binary32 to Z19, by roundTiesToEven (`rne`) or truncation (R217). -/
def z19Of (rne : Bool) (x : Nat) : Val :=
  match Fmt.f32.decode x with
  | .nan s q p => .nan s q p
  | .inf s => .fin s 4095 52
  | .fin s m e =>
    if m = 0 then .fin s 0 0
    else
      let u := roundUnbounded 11 (if rne then .tiesEven else .towardZero) s m e
      let top : Int := u.2.1 + 11
      if top ≥ 64 then .fin s 4095 52
      else if top < -62 then .fin s 0 0
      else .fin s u.1 u.2.1

/-! ### Block scales (R437) -/

/-- The exponent k of σ = 2^k: the least at or above -126 with m · 2^e at most 480 · 2^k (R437). -/
def sigmaFor (m : Nat) (e : Int) : Int :=
  if m = 0 then -126
  else
    let k : Int := e + (bitLen m : Int) - 9
    let fits := decide (m * 2 ^ (max 0 (e - k - 5)).toNat ≤ 15 * 2 ^ (max 0 (k + 5 - e)).toNat)
    max (-126) (if fits then k else k + 1)

/-- The larger of two magnitudes m · 2^e. -/
def maxMag (a b : Nat × Int) : Nat × Int :=
  if a.1 = 0 then b else if b.1 = 0 then a
  else
    let q := min a.2 b.2
    if a.1 * 2 ^ (a.2 - q).toNat < b.1 * 2 ^ (b.2 - q).toNat then b else a

/-- The largest finite magnitude of a list of binary32 codes (R437). -/
def blockMax (l : List Nat) : Nat × Int :=
  l.foldl (fun a x => match Fmt.f32.decode x with
    | .fin _ m e => maxMag a (m, e)
    | _ => a) (0, 0)

/-- Encode a block: the exponent of σ, the codes, and the flags Flush and Inexact (R437, R443). -/
def blockEncode (l : List Nat) : Int × List Nat × Flags :=
  let mx := blockMax l
  let k := sigmaFor mx.1 mx.2
  let r := l.map fun x => match Fmt.f32.decode x with
    | .fin s m e => z8Round .tiesEven s m (e - k)
    | _ => (0x80, 0)
  (k, r.map (·.1), r.foldl (fun a y => a ||| (y.2 &&& (Flags.flush ||| Flags.inexact))) 0)

/-- The binary32 code of the scale 2^k. -/
def sigmaCode (k : Int) : Nat := Fmt.f32.pack false (k + 127).toNat 0

/-- The exact value of a block-scaled code: its Z8 value times its scale; NaN for 0x80 or a NaN scale, or zero times infinity (R437). -/
def blockVal (code scale : Nat) : Val := (mulVal (z8Decode code 32) (Fmt.f32.decode scale)).getD (.nan false true 0)

/-! ### Array arithmetic (R218 to R220) -/

/-- The product of two decoded operands rounded to binary32; none for a zero product (R218, R219, R220, R244). -/
def arrMul (a b : Val) : Option Nat :=
  if a.isNan || b.isNan || infTimesZero a b then some f32Nan
  else match mulVal a b with
    | none => some f32Nan
    | some v =>
      let r := (roundVal .f32 .tiesEven v).1
      if r % 2 ^ 31 = 0 then none else some r

/-- An array's addition: binary32, roundTiesToEven, every NaN canonical (R218, R220). -/
def arrAdd (a b : Nat) : Nat :=
  match Fmt.f32.decode a, Fmt.f32.decode b with
  | .nan _ _ _, _ => f32Nan
  | _, .nan _ _ _ => f32Nan
  | _, _ => (fadd .f32 .tiesEven a b).1

/-- An addition that zero products take no part in (R244). -/
def arrAddO : Option Nat → Option Nat → Option Nat
  | none, y => y
  | x, none => x
  | some x, some y => some (arrAdd x y)

/-! ### Lanes (R259) -/

/-- The lanes of `w` bits of a vector register, lane 0 first. -/
def lanes (w : Nat) (v : BitVec 8192) : List Nat :=
  (List.range (8192 / w)).map fun i => (v.extractLsb' (w * i) w).toNat

/-- The number whose `w`-bit digits, lowest first, are listed. -/
def ofDigits (w : Nat) (l : List Nat) : Nat := l.foldr (fun x a => x % 2 ^ w + 2 ^ w * a) 0

/-- A vector register from its lanes. -/
def ofLanes (w : Nat) (l : List Nat) : BitVec 8192 := BitVec.ofNat 8192 (ofDigits w l)

/-- The width of a lane (R187). -/
def laneBits (w : Bool) : Nat := if w then 64 else 32

end Sys2Proof.Machine
end

