-- ==== Sys2Proof/Machine/Operands.lean ====
section
/-! DEFINITION. The operands of bundles: scalar functions, branch conditions, core-store addresses, read sources, and the values
that arrays read from tiles (R168, R178 to R183, R230, R231). -/

namespace Sys2Proof.Machine

/-- The scalar functions (R178). -/
def scalarFn (f : Nat) (a b : W64) : W64 :=
  let sh := b.toNat % 64
  match f with
  | 0 => a + b
  | 1 => a - b
  | 2 => a * b
  | 3 => a &&& b
  | 4 => a ||| b
  | 5 => a ^^^ b
  | 6 => a <<< sh
  | 7 => a >>> sh
  | 8 => a.sshiftRight sh
  | 9 => ofFlag 64 (a.slt b)
  | 10 => ofFlag 64 (a.ult b)
  | 11 => if a.slt b then a else b
  | 12 => if a.slt b then b else a
  | 13 => BitVec.ofNat 64 (a.toNat * b.toNat / 2 ^ 64)
  | _ => 0

/-- The conditions of `br` on a signed 64-bit integer (R168). -/
def condHolds (cond : Nat) (x : W64) : Bool :=
  match cond with
  | 0 => x == 0
  | 1 => x != 0
  | 2 => x.slt 0
  | 3 => !x.slt 0
  | 4 => !x.slt 0 && x != 0
  | 5 => x.slt 0 || x == 0
  | _ => false

/-- The core-store address of a move-slot access: sb + an.value + imm · u modulo 2^64 (R181). -/
def Core.accessAddr (c : Core) (an sb imm u : Nat) : Nat :=
  (c.sreg sb + (c.areg an).value + BitVec.ofNat 64 (imm * u)).toNat

/-- An access of `n` bytes aligned to `u` and below the message area (R181). -/
def Core.accessOk (c : Core) (a n u : Nat) : Bool := decide (a % u = 0) && decide (a + n ≤ c.msgStart)

/-- A local tile of so many bytes at an address lies on a line boundary and below the message area (R183). -/
def Core.tileFits (c : Core) (a n : Nat) : Bool := decide (a % 64 = 0) && decide (a + n ≤ c.msgStart)

/-- What `rdx` reads (R174, R179). -/
def Core.rdxValue (c : Core) (src : Nat) : W64 :=
  if src ≤ 3 then (c.loops[src]?.map (·.live)).getD 0
  else if src = 4 then c.flags.setWidth 64
  else if src = 5 then BitVec.ofNat 64 c.loops.length
  else if src = 6 then ofFlag 64 c.activeB
  else if src = 7 then BitVec.ofNat 64 c.pc
  else BitVec.ofNat 64 (c.chan (src - 0x10)).held

/-- The part of an address register that `geta` reads (R177). -/
def AddrReg.part (r : AddrReg) (p : Nat) : W64 := if p = 0 then r.value else if p = 1 then r.stride else r.bound

/-! ### Array operands (R191, R230, R231) -/

/-- Stationary values per cell, q (R230). -/
def pairQ (fmt : Nat) : Nat := [1, 2, 4, 4, 1].getD fmt 1
/-- Stationary rows, K_s = 64 q (R230). -/
def pairKs (fmt : Nat) : Nat := 64 * pairQ fmt
/-- Steps per streaming vector, s (R230). -/
def pairSteps (fmt : Nat) : Nat := [1, 1, 1, 2, 2].getD fmt 1
/-- Streaming elements per stream operand, E (R230). -/
def pairE (fmt : Nat) : Nat := [4096, 8192, 8192, 4096, 4096].getD fmt 4096
/-- The depth factor f of a DEPTH (R233). -/
def depthF (d : Nat) : Nat := 2 ^ d

/-- The format codes a stationary and a streaming operand must carry (R191). -/
def stationaryFmtOk (fmt code : Nat) : Bool :=
  match fmt with
  | 0 => code == 4
  | 1 => code == 2 || code == 3
  | 2 | 3 => code == 1
  | _ => code == 5
def streamingFmtOk (fmt code : Nat) : Bool :=
  match fmt with
  | 0 | 3 => code == 4
  | 1 | 2 => code == 2 || code == 3
  | _ => code == 5

/-- The Z16 value at position x of a tile (R231). -/
def TileData.z16At (t : TileData) (x : Nat) : Val := z16Decode (t.payload.readNat (2 * x) 2)

/-- The lift of group g of a Z8 tile with lift; 32 in one without (R209, R210). -/
def TileData.lift (t : TileData) (g : Nat) : Nat := if t.fmt = 3 then t.side.readNat 0 96 / 64 ^ g % 64 else 32

/-- The Z8 value at position x (R231). -/
def TileData.z8At (t : TileData) (x : Nat) : Val := z8Decode (t.payload.byte x).toNat (t.lift (x / 64))

/-- The Z4 value at position x (R206, R231). -/
def TileData.z4At (t : TileData) (x : Nat) : Val :=
  z4Decode ((t.payload.byte (x / 2)).toNat / 16 ^ (x % 2) % 16) (t.side.byte (2 * (x / 32))).toNat (t.side.byte (2 * (x / 32) + 1)).toNat

/-- The binary32 code at position x of two tiles (R231). -/
def f32At (ts : List TileData) (x : Nat) : Nat := (ts.getD (x / 2048) {}).payload.readNat (4 * (x % 2048)) 4

/-- The stationary value at a position (R191, R217). -/
def Stationary.at (s : Stationary) (x : Nat) : Val :=
  let t := s.tiles.getD 0 {}
  match s.fmt with
  | 0 => t.z16At x
  | 1 => t.z8At x
  | 2 | 3 => t.z4At x
  | _ => z19Of s.rs (f32At s.tiles x)

/-- The streaming value at a position (R191, R217). -/
def StreamOp.at (s : StreamOp) (x : Nat) : Val :=
  let t := s.tiles.getD 0 {}
  match s.fmt with
  | 0 | 3 => t.z16At x
  | 1 | 2 => t.z8At x
  | _ => z19Of s.rq (f32At s.tiles x)

/-- The bytes of side data that an array reads with a tile of a format code (R206, R210). -/
def arraySide (code : Nat) : Nat := if code = 1 then 1024 else if code = 3 then 128 else 0

/-- The tile that an array reads through a local handle. -/
def Core.arrayTile (c : Core) (h : Handle) : TileData :=
  let n := arraySide h.fmt.toNat
  { fmt := h.fmt.toNat, payload := c.store.slice h.addr.toNat 8192, side := c.store.slice (h.addr.toNat + 8192) n, sideLen := n }

end Sys2Proof.Machine
end

