-- ==== Sys2Proof/Machine/ArrayOps.lean ====
section
/-! DEFINITION. What the matrix arrays compute and in what order they add (R234, R239 to R244), and the drain (R192, R240). -/

namespace Sys2Proof.Machine

/-- Vectors per stream, M (R234). -/
def StreamOp.vectors (s : StreamOp) : Nat :=
  match s.kind with
  | 0 => pairE s.fmt / (depthF (shapeDepth s.shape) * pairKs s.fmt)
  | 1 => 4096 / pairKs s.fmt
  | _ => 64

/-- One cell's term: the products of its stationary places, added as R242 gives. -/
def cellTerm : List (Option Nat) → Option Nat
  | [a] => a
  | [a, b] => arrAddO a b
  | [a, b, c, d] => arrAddO (arrAddO a b) (arrAddO c d)
  | _ => none

/-- Terms added one after another (R242). -/
def chain (l : List (Option Nat)) : Option Nat := l.foldl arrAddO none

/-- The product of streaming position x and stationary position y. -/
def StreamOp.product (s : StreamOp) (x y : Nat) : Option Nat := arrMul (s.at x) (s.stat.at y)

/-- KIND 0's element (m, n): the sum over column group g (R234, R242). -/
def StreamOp.forwardCol (s : StreamOp) (m n g : Nat) : Option Nat :=
  let f := depthF (shapeDepth s.shape)
  let ks := pairKs s.fmt
  let q := pairQ s.fmt
  chain ((List.range 64).map fun i => cellTerm ((List.range q).map fun u =>
    let k := g * ks + q * i + u
    s.product (f * ks * m + k) (64 / f * k + n)))

/-- KIND 0's element (m, n) of one stream (R242). -/
def StreamOp.forward (s : StreamOp) (m n : Nat) : Option Nat :=
  match shapeDepth s.shape with
  | 0 => s.forwardCol m n 0
  | 1 => arrAddO (s.forwardCol m n 0) (s.forwardCol m n 1)
  | _ => arrAddO (arrAddO (s.forwardCol m n 0) (s.forwardCol m n 1)) (arrAddO (s.forwardCol m n 2) (s.forwardCol m n 3))

/-- KIND 1's element (m, k) of one stream (R234, R242). -/
def StreamOp.inputGrad (s : StreamOp) (m k : Nat) : Option Nat :=
  chain ((List.range 64).map fun j => s.product (64 * (s.vectors * shapePart s.shape + m) + j) (64 * k + j))

/-- KIND 2's element (k, n) of one stream (R234, R242). -/
def StreamOp.weightGrad (s : StreamOp) (k n : Nat) : Option Nat :=
  let q := pairQ s.fmt
  chain ((List.range 64).map fun i => cellTerm ((List.range q).map fun u =>
    let t := q * i + u
    s.product (64 * t + k) (64 * t + n)))

/-- What one stream adds to accumulator a (R239). -/
def StreamOp.term (s : StreamOp) (a : Nat) : Option Nat :=
  match s.kind with
  | 0 =>
    let w := 64 / depthF (shapeDepth s.shape)
    if a / w < s.vectors then s.forward (a / w) (a % w) else none
  | 1 => s.inputGrad (a / pairKs s.fmt) (a % pairKs s.fmt)
  | _ => s.weightGrad (a / 64) (a % 64)

/-- An accumulator after a stream's term has been added (R242, R244). -/
def accumulate (acc : W32) : Option Nat → W32
  | none => acc
  | some v => BitVec.ofNat 32 (arrAdd acc.toNat v)

/-- The live set after a stream's products: *first* clears it before they are added (R195, R239). -/
def StreamOp.landIn (s : StreamOp) (live : SMap W32) : SMap W32 :=
  let live := if s.first then [] else live
  ((List.range 4096).map fun a => (a, accumulate (SMap.get 0 live a) (s.term a))).filter fun e => e.2 ≠ 0

/-- The products of an array's oldest landing stream reach the live set, and *last* moves it into the tail set (R195, R248). -/
def ArrayState.landNow (x : ArrayState) (s : StreamOp) (rest : List StreamOp) : ArrayState :=
  let live := s.landIn x.live
  if s.last then { x with landing := rest, live := [], tail := live, tailFull := true } else { x with landing := rest, live }

/-- An accumulator's bytes in a drain's output format (R192, R212, R215, R240). -/
def drainBytes (fmt : Nat) (v : W32) : List Byte :=
  match fmt with
  | 0 => bytesLE v.toNat 4
  | 1 => bytesLE (z16Encode .tiesEven v.toNat).1 2
  | _ => bytesLE (z8Encode .tiesEven v.toNat 32).1 1

/-- The payload that accumulators `[lo, lo + n)` of the tail set make (R240). -/
def drainPayload (tail : SMap W32) (fmt lo n : Nat) : Mem :=
  Mem.ofList ((List.range n).flatMap fun i => drainBytes fmt (SMap.get 0 tail (lo + i)))

/-- The format code a drained handle takes (R192). -/
def drainCode (fmt : Nat) : BitVec 4 := if fmt = 0 then 5 else if fmt = 1 then 4 else 2

/-- The tail set is free again, and the oldest drain is done. -/
def Core.freeTail (c : Core) (b : Bool) (rest : List DrainOp) : Core :=
  c.setArray b { c.array b with drains := rest, tail := [], tailFull := false }

/-- A drain writes the tail set's tile, its handles become ready, and the tail set is free (R192, R240, R248). -/
def Core.drainNow (c : Core) (b : Bool) (d : DrainOp) (rest : List DrainOp) : Core :=
  let x := c.array b
  let c := if d.fmt = 0 then
      ((c.storeBytes d.addr0 8192 (drainPayload x.tail 0 0 2048)).storeBytes d.addr1 8192 (drainPayload x.tail 0 2048 2048))
    else c.storeBytes d.addr0 8192 (drainPayload x.tail d.fmt 0 4096)
  let relabel (c : Core) (i : Nat) : Core := c.write (.t i { c.treg i with fmt := drainCode d.fmt, side := 0 })
  let c := relabel c d.t
  let c := if d.fmt = 0 then relabel c (d.t + 1) else c
  c.freeTail b rest

end Sys2Proof.Machine
end

