-- ==== Sys2Proof/Machine/Startup.lean ====
section
/-! DEFINITION. Input, pins and start-up: the events of the chapters on the module's connectors and on start-up (R38 to R107).
An event whose condition does not hold does not happen: it leaves the state as it was (assumption 6). -/

namespace Sys2Proof.Machine

/-! ### Shared steps -/

/-- The main rails are gone: only the management controller, the fuses, the flash and the security block's non-volatile
memory keep anything (R104, R105). A firmware update in progress ends: R612 says so where the input is lost and of MOD_RESET_N; that it ends
as well at a trip or a break of MATE_OK is the model's choice (assumption 65). -/
def State.dark (s : State) : State :=
  { s with
    su := { s.su with
      switchClosed := false, converters := false, rails := false, linksDriven := false, flashBusy := false, packed := false
      hxRail := false, wakeN := true, clkreqN := true, stageShown := none, published := none
      tries := [], image := [], imageLen := 0, testedOff := 0, withheld := 0, badTethers := 0, belowGrade := false
      retriedStacks := [], retriedBallast := false, slot := false, owner := false, degraded := false, fullTest := false }
    hif := {}, tetPsel := 0, tetCsel := 0, cores := [], mesh := [], parts := [], spn := {}, lnk := {}, gon := {}
    sec := { chain1 := s.sec.chain1 }
    pwr := {}
    mgt := { s.mgt with update := none } }

/-- Move to a start-up stage (R76). -/
def State.toStage (s : State) (st : Byte) : State := { s with su := { s.su with stage := st, stageShown := none } }

/-- The stages that there are (R76). -/
def stages : List Byte := [0x01, 0x02, 0x03, 0x04, 0x05, 0x06, 0x07, 0x08, 0x09, 0x0a, 0x0b, 0x0e, 0x0f]

/-- The management controller sees the input at a voltage: PWRFAIL_N is released once the input lies within the cut-offs. That it is not asserted on
the first rise, while the input is still below 51.0 V, is the model's choice (R40, R57, assumption 11). -/
def State.seeInput (s : State) (cv : W16) : State :=
  { s with su := { s.su with volts := cv, pwrfailN := s.su.pwrfailN || (decide (5100 ≤ cv.toNat) && decide (cv.toNat ≤ 6600)) } }

/-- Record a non-fatal start-up status in the start-up word and the log (R75, R607). -/
def State.note (s : State) (st : Nat) : State :=
  ({ s with su := { s.su with status := BitVec.ofNat 16 st } }).log { status := st } (classOf st)

/-- Halt with a fatal status: stage 0x0e, link lanes at high impedance; HX stays as it was. A start-up read of the flash ends; a firmware update
goes on (R59, R76, R106, R601, R610). -/
def State.halt (s : State) (st : Nat) : State :=
  ({ s with su := { s.su with
      stage := 0x0e, status := BitVec.ofNat 16 st, linksDriven := false, flashBusy := s.su.flashBusy && s.mgt.update.isSome } }).log
    { status := st } 5

/-- A thermal or overcurrent trip: the main switch opens, and the module halts with 0x0702 (R38, R43, R104). -/
def State.trip (s : State) : State := s.dark.halt 0x0702

/-- STAGE as the start-up word shows it (R75). -/
def State.shownStage (s : State) : Byte := s.su.stageShown.getD s.su.stage

/-- The start-up word (R75). -/
def State.startupWord (s : State) : W32 :=
  BitVec.ofNat 32 (
    s.shownStage.toNat * 2 ^ 24 + (if s.su.slot then 2 ^ 23 else 0) + (if s.su.owner then 2 ^ 22 else 0)
    + (if s.su.degraded then 2 ^ 21 else 0) + (if s.su.fullTest then 2 ^ 20 else 0) + s.su.status.toNat)

/-! ### The launch image (R82 to R92) -/

/-- A section type the vendor signs (R86). -/
def vendorType (t : Nat) : Bool := decide (1 ≤ t) && decide (t ≤ 4)

/-- A directory entry of an image: its type, offset and length (R85). -/
def dirEntry (img : Mem) (i : Nat) : Nat × Nat × Nat :=
  let a := 0x100 + 64 * i
  (img.readNat a 2, img.readNat (a + 4) 4, img.readNat (a + 8) 4)

/-- The directory entries of an image, one per section (R84, R85). -/
def dirEntries (img : Mem) : List (Nat × Nat × Nat) := (List.range (img.readNat 6 2)).map (dirEntry img)

/-- The bytes of the section of a type, if the image has one. -/
def sectionOf (img : Mem) (t : Nat) : Option (List Byte) :=
  ((dirEntries img).find? fun e => e.1 = t).map fun e => img.toList e.2.1 e.2.2

/-- The magic, format version, section count and image length are as R84 gives: the slot is a candidate (R92). -/
def candidate (img : Mem) : Bool :=
  img.readNat 0 4 == 0x4c38475a && img.readNat 4 2 == 1 && decide (1 ≤ img.readNat 6 2) && decide (img.readNat 6 2 ≤ 16)
    && decide (0 < img.readNat 8 4) && decide (img.readNat 8 4 ≤ 0x1000000) && img.readNat 8 4 % 4096 == 0

/-- The section directory is as R86 gives. -/
def directoryOk (img : Mem) : Bool :=
  let es := dirEntries img
  let len := img.readNat 8 4
  es.all (fun e => (vendorType e.1 || e.1 == 0x10) && decide (e.2.1 + e.2.2 ≤ len))
    && decide ((es.map (·.1)).Nodup) && [1, 2, 3, 4].all fun t => (es.map (·.1)).contains t

/-- Every section's digest agrees with its directory entry (R92). -/
def sectionDigestsOk (img : Mem) : Bool :=
  (List.range (img.readNat 6 2)).all fun i =>
    let e := dirEntry img i
    digestWord (sha384 (img.toList e.2.1 e.2.2)) == img.read 384 (0x100 + 64 * i + 16)

/-- The directory entries whose type passes a test, as bytes in directory order. -/
def dirBytes (img : Mem) (p : Nat → Bool) : List Byte :=
  (List.range (img.readNat 6 2)).flatMap fun i =>
    if p (dirEntry img i).1 then img.toList (0x100 + 64 * i) 64 else []

/-- The vendor message (R87). -/
def vendorMessage (img : Mem) : List Byte := img.toList 0x10 4 ++ img.toList 0x40 48 ++ dirBytes img vendorType

/-- The owner message (R87). -/
def ownerMessage (img : Mem) : List Byte := img.toList 0 256 ++ dirBytes img fun _ => true

/-- The owner flag of an image (R84). -/
def ownerFlag (img : Mem) : Bool := img.readNat 0x14 4 % 2 == 1

/-- The security version of an image (R84). -/
def securityVersion (img : Mem) : Nat := img.readNat 0x10 4

/-- The fused security floor: the number of bits set (R94). -/
def Fuses.floor (f : Fuses) : Nat := popCount f.floorBits

/-- The vendor signature verifies with the key of section 0x0003, whose digest equals the header's and the fused one (R92). -/
def vendorOk (f : Fuses) (img : Mem) : Bool :=
  let key := Config.sectionKey ((sectionOf img 3).getD [])
  let d := digestWord (sha384 key)
  d == img.read 384 0x40 && d == f.vendor
    && ecdsaVerify key (vendorMessage img) (img.toList (img.readNat 8 4 - 192) 96)

/-- The owner signature verifies, and the owner key digest equals the fused one, which is not blank (R92, R94). -/
def ownerOk (f : Fuses) (img : Mem) : Bool :=
  let key := Config.ownerKey (img.toList 0 (img.readNat 8 4))
  let d := digestWord (sha384 key)
  !ownerFlag img || (f.ownerLock && d == img.read 384 0x70 && d == f.owner
    && ecdsaVerify key (ownerMessage img) (img.toList (img.readNat 8 4 - 96) 96))

/-- The checks of R92 on an image, in order: the status of the first that fails. -/
def imageFault (f : Fuses) (img : Mem) : Option Nat :=
  firstFail [
    (!directoryOk img, 0x0803),
    (!sectionDigestsOk img, 0x0601),
    (!vendorOk f img, 0x0601),
    (!ownerOk f img, 0x0602),
    (decide (securityVersion img < f.floor), 0x0603)]

/-- The image in a flash slot (R82). -/
def slotImage (flash : Mem) (slot : Bool) : Mem := flash.slice (if slot then 0x1000000 else 0) 0x1000000

/-- The candidate slots in the order they are tried, newer first, otherwise slot 0 first (R92). -/
def candidates (flash : Mem) : List Bool :=
  let i0 := slotImage flash false
  let i1 := slotImage flash true
  let order := if newer (i1.read 32 12) (i0.read 32 12) then [true, false] else [false, true]
  order.filter fun b => candidate (slotImage flash b)

/-- The site configuration section of the running image, if an owner configuration is applied (R89). -/
def State.siteConfig (s : State) : Option Mem :=
  if s.su.owner then (sectionOf s.su.image 0x10).map Mem.ofList else none

/-! ### Input and power -/

/-- STANDBY_ON (R77): the input crosses 40.0 V rising and the standby converter starts. -/
def execStandbyOn (cv : W16) (s : State) : Res :=
  .next (if !s.su.standby && decide (4000 ≤ cv.toNat) then
    ({ s with su := { s.su with standby := true } }).seeInput cv
  else s)

/-- MANAGEMENT_WAKE (R61, R77): the controller wakes, reads the straps once and sets STAGE to 0x01, or 0x0f while MOD_RESET_N
is low. The wake count rises; of the log, what the non-volatile store kept is held (R608). SMB_ALERT_N becomes active, at a level that no rule
gives (R64, assumption 82). -/
def execManagementWake (site board : BitVec 3) (s : State) : Res :=
  .next (if s.su.standby && !s.su.awake then
    ({ s with
      su := { s.su with
        awake := true, site, board, stage := if s.su.modResetN then 0x01 else 0x0f, status := 0, smbAlertN := Config.pinLevel s.free 2 }
      mgt := { log := s.mgt.nvLog, nvLog := s.mgt.nvLog, logNext := s.mgt.logNext, wakes := s.mgt.wakes + 1 } }).tick
  else s)

/-- STANDBY_OFF (R40, R104): below 38.0 V the module is unpowered. Latched trips are released (R38), and the outputs with them. -/
def execStandbyOff (cv : W16) (s : State) : Res :=
  .next (if s.su.standby && decide (cv.toNat < 3800) then
    let t := s.dark
    { t with
      su := { t.su with
        standby := false, awake := false, volts := cv, thermalTrip := false, currentTrip := false, pwrfailN := true, thermN := true
        smbAlertN := true
        stage := 0x01, status := 0, site := 0, board := 0 }
      mgt := { log := s.mgt.nvLog, nvLog := s.mgt.nvLog, logNext := s.mgt.logNext, wakes := s.mgt.wakes } }
  else s)

/-- The conditions of R78 on the module's side: stage 0x01, MOD_RESET_N high, no trip latched, the switch not closed already. -/
def State.mayClose (s : State) : Bool :=
  s.su.awake && s.su.stage == 0x01 && s.su.modResetN && !s.su.thermalTrip && !s.su.currentTrip && !s.su.switchClosed && !s.su.packed

/-- MAIN_SWITCH_CLOSE (R78): the input at 53.0 to 65.0 V and both MATE_OK contacts mated. Where the switch may not close, the controller has
still seen the input (R57, assumption 11). -/
def execMainSwitchClose (cv : W16) (mated : Bool) (s : State) : Res :=
  .next (if s.mayClose && decide (5300 ≤ cv.toNat) && decide (cv.toNat ≤ 6500) && mated then
    (({ s with su := { s.su with switchClosed := true, mated := true } }).seeInput cv).toStage 0x02
  else if s.su.awake then s.seeInput cv
  else s)

/-- MAIN_CONVERTERS_START (R42): the bulk voltage is within 1.0 V of the input. -/
def execMainConvertersStart (cv bulk : W16) (s : State) : Res :=
  .next (if s.su.stage == 0x02 && s.su.switchClosed && !s.su.converters
      && decide (cv.toNat ≤ bulk.toNat + 100) && decide (bulk.toNat ≤ cv.toNat + 100) then
    ({ s with su := { s.su with converters := true } }).seeInput cv
  else s)

/-- The module needs the flash: it reads unless the carrier holds the flash (R59, R60, R76). -/
def State.wantFlash (s : State) : State :=
  if s.su.flashHoldN then ({ s with su := { s.su with flashBusy := true } }).toStage 0x03
  else ({ s with su := { s.su with flashBusy := false } }).toStage 0x04

/-- The host interface's rail has settled: HX presents its receivers, and WAKE_N and CLKREQ_N follow PCIe, at levels that no rule gives
(R64, R76, R106, assumption 82). -/
def State.presentHx (s : State) : State :=
  ({ s with su := { s.su with hxRail := true, wakeN := Config.pinLevel s.free 0, clkreqN := Config.pinLevel s.free 1 } }).tick

/-- RAILS_SETTLED (R79): stage 0x03, with both slot headers read and the candidates classed (R92). -/
def execRailsSettled (s : State) : Res :=
  .next (if s.su.stage == 0x02 && s.su.converters then
    ({ s.presentHx with su := { s.presentHx.su with rails := true, tries := candidates s.flash } }).wantFlash
  else s)

/-- RAIL_SETTLE_TIMEOUT (R79): a block has not reported. Which one is not told: that the host interface's own rail has settled, so that HX comes up
in the halted module (R106), is a free value (assumption 96). -/
def execRailSettleTimeout (s : State) : Res :=
  .next (if s.su.stage == 0x02 && s.su.converters then (if Config.hostRail s.free then s.tick.presentHx else s.tick).halt 0x0701 else s)

/-- The main switch opens under a cut-off (R104, R105). A halted module stays halted and one in reset stays there (R106). -/
def State.cutOff (s : State) (cv : W16) (st : Nat) : State :=
  let t := if s.su.switchClosed then s.dark else s
  let t := { t with su := { t.su with pwrfailN := false, volts := cv } }
  if t.su.stage == 0x0e || t.su.stage == 0x0f then t.log { status := st } (classOf st)
  else (t.toStage 0x01).note st

/-- MAIN_CUT_OFF (R40, R44, R105): the input falls below 51.0 V, whatever it was before: the row says that it was not below. -/
def execMainCutOff (cv : W16) (s : State) : Res :=
  .next (if s.su.awake && decide (cv.toNat < 5100) then s.cutOff cv 0x0806 else s)

/-- OVERVOLTAGE_CUT_OFF (R40, R105): the input rises above 66.0 V. -/
def execOvervoltageCutOff (cv : W16) (s : State) : Res :=
  .next (if s.su.awake && decide (6600 < cv.toNat) then s.cutOff cv 0x0807 else s)

/-- INPUT_RANGE_LOW (R41): between 51 V and 54 V a running module logs an input-range event, whose status the manual does not list. -/
def execInputRangeLow (cv : W16) (s : State) : Res :=
  .next (if s.su.awake && decide (5100 ≤ cv.toNat) && decide (cv.toNat < 5400) then
    let st := unlistedCode 0
    if s.su.switchClosed then (s.seeInput cv).log { status := st } (classOf st) else s.seeInput cv
  else s)

/-- THERMAL_TRIP (R38): a junction reaches 115 °C. -/
def execThermalTrip (core : Nat) (temp : Byte) (s : State) : Res :=
  onUnit (coreOk core) (if s.su.switchClosed && decide (115 ≤ temp.toNat) then
    let t := s.trip
    { t with su := { t.su with thermalTrip := true, thermN := false } }
  else s)

/-- The main switch's current limit trips (R43). -/
def State.overcurrent (s : State) : State :=
  if s.su.switchClosed then
    let t := s.trip
    { t with su := { t.su with currentTrip := true } }
  else s

/-- OVERCURRENT_TRIP_SLOW (R43): above 55 A for 2 ms. -/
def execOvercurrentTripSlow (s : State) : Res := .next s.overcurrent

/-- OVERCURRENT_TRIP_FAST (R43): above 110 A. -/
def execOvercurrentTripFast (s : State) : Res := .next s.overcurrent

/-- MATE_OK_BREAK (R47): the main switch opens; start-up can resume at R78 once mated again, and until it does the start-up word shows a stage
that the manual does not give (assumption 8). -/
def execMateOkBreak (s : State) : Res :=
  .next (if s.su.mated then
    let t := { s with su := { s.su with mated := false } }
    if s.su.switchClosed then
      let d := t.dark
      if d.su.stage == 0x0e then d
      else
        let e := d.toStage 0x01
        ({ e with su := { e.su with stageShown := stages[Config.mateStage e.free % stages.length]? } }).tick
    else t
  else s)

/-- MOD_RESET_N falls: the main switch opens and STAGE becomes 0x0f (R63, R104). -/
def State.modReset (s : State) : State :=
  let t := s.dark
  { t with su := { t.su with modResetN := false, stage := 0x0f, status := 0 } }

/-- MOD_RESET_FALL (R104). -/
def execModResetFall (s : State) : Res :=
  .next (if !s.su.modResetN then s
    else if s.su.awake then s.modReset
    else { s with su := { s.su with modResetN := false } })

/-- MOD_RESET_N rises after so many µs low: start-up resumes at R78; a pulse of 1 ms or more releases latched trips (R38, R43). R38 gives
THERM_N's assertion alone; that the pulse which releases the trip releases THERM_N too is the model's choice (assumption 11). -/
def State.modResetEnd (s : State) (lowUs : Nat) : State :=
  let long := decide (1000 ≤ lowUs)
  { s with su := { s.su with
      modResetN := true
      stage := if s.su.awake then 0x01 else s.su.stage
      thermalTrip := s.su.thermalTrip && !long
      currentTrip := s.su.currentTrip && !long
      thermN := s.su.thermN || long } }

/-- MOD_RESET_RISE (R63, R104). -/
def execModResetRise (lowUs : W32) (s : State) : Res :=
  .next (if s.su.modResetN then s else s.modResetEnd lowUs.toNat)

/-! ### Flash, fuses, self-test, memory -/

/-- FLASH_HOLD_ASSERT (R60): ignored while FLASH_BUSY is high, until the read of the slot being tried ends; a read that has not begun waits in
stage 0x04. -/
def execFlashHoldAssert (s : State) : Res :=
  .next (
    let t := { s with su := { s.su with flashHoldN := false } }
    if t.su.stage == 0x03 && !t.su.flashBusy then t.toStage 0x04 else t)

/-- FLASH_HOLD_RELEASE (R60, R93): the read that waited goes on. -/
def execFlashHoldRelease (s : State) : Res :=
  .next (
    let t := { s with su := { s.su with flashHoldN := true } }
    if t.su.stage == 0x04 then t.wantFlash
    else if t.mgt.update.isSome then { t with su := { t.su with flashBusy := true } }
    else t)

/-- A slot has failed with a status: the next candidate is read, or start-up halts with this status (R92, R93). Stage 0x05 is not shown, since
no chosen image is in on-chip memory yet and the stages do not go back (R76). That R60's current read is the read of one slot, so that a hold
asserted during it takes effect before the next candidate is read, is the model's choice (assumption 13). -/
def State.slotFailed (s : State) (st : Nat) : State :=
  match s.su.tries.drop 1 with
  | [] => s.halt st
  | rest => (({ s with su := { s.su with tries := rest } }).log { status := st } 2).wantFlash

/-- The status a start-up halts with when no slot is a candidate: 0x0801 where the flash could not be read (R92, R107). -/
def noCandidate (ok : Bool) : Nat := if ok then 0x0802 else 0x0801

/-- FLASH_READ_COMPLETE (R92): the candidate being tried has been read, or its read failed; it is checked, and taken if every
check passes. -/
def execFlashReadComplete (ok : Bool) (s : State) : Res :=
  .next (if !(s.su.flashBusy && s.su.rails && s.su.stage == 0x03) then s
    else match s.su.tries with
      | [] => s.halt (noCandidate ok)
      | slot :: _ =>
        if !ok then s.slotFailed 0x0801
        else
          let img := slotImage s.flash slot
          match imageFault s.fuses img with
          | some st => s.slotFailed st
          | none =>
            ({ s with su := { s.su with
                slot, image := img.slice 0 (img.readNat 8 4), imageLen := img.readNat 8 4, flashBusy := false, tries := []
                owner := ownerFlag img && (sectionOf img 0x10).isSome } }).toStage 0x06)

/-- The arrays a grade may lack (R3, R95); none for an unprogrammed grade. -/
def gradeSpare (g : BitVec 2) : Option Nat :=
  if g = 1 then some 0 else if g = 2 then some 32 else if g = 3 then some 64 else none

/-- A core has both arrays disabled in a mask (R4). -/
def bothOff (m : BitVec 512) (k : Nat) : Bool := bit m (2 * k) && bit m (2 * k + 1)

/-- The fuse map is consistent (R95). -/
def Fuses.consistent (f : Fuses) : Bool :=
  match gradeSpare f.grade with
  | none => false
  | some n => decide (popCount f.arrayOff ≤ n) && (List.range 256).all fun k => !bothOff f.arrayOff k

/-- The arrays that are disabled, by fuse or by self-test (R6, R96). -/
def State.arraysOff (s : State) : BitVec 512 := s.fuses.arrayOff ||| s.su.testedOff

/-- The module publishes how many arrays are enabled and which are not (R6, R95, R96). -/
def State.publishArrays (s : State) : State :=
  let off := s.arraysOff
  let n := 512 - popCount off
  ({ s with su := { s.su with published := some (n, off) } }).emit (.arrays n off)

/-- FUSE_MAP_READ (R94, R95, R540): the identity and sealing keys are derived, the entropy source is tested, and the arrays are published. -/
def execFuseMapRead (readable : Bool) (s : State) : Res :=
  .next (if s.su.stage != 0x06 then s
    else if !readable then s.halt 0x0604
    else if !s.fuses.consistent then s.halt 0x0605
    else (({ s with sec := { s.sec with
        ready := true, drbgOk := true
        identity := some (privateKey (Config.identityKey s.fuses.seed).toNat), sealing := some (Config.sealingKey s.fuses.seed) } }).publishArrays).toStage 0x07)

/-- A unit whose failure halts the module (R96). -/
def TestUnit.moduleWide : TestUnit → Bool
  | .router _ | .tether _ | .spanCtl | .security | .hostIf => true
  | _ => false

/-- A unit the module has. -/
def TestUnit.valid : TestUnit → Bool
  | .array k j => decide (k < 256) && decide (j < 2)
  | .vector k | .coreStore k | .instrStore k | .router k => decide (k < 256)
  | .link p => decide (p < 18)
  | .tether n => decide (n < 32)
  | .spanCtl | .security | .hostIf => true

/-- What a failing unit takes out of service: an array, a kite, a port (R96). `n` disabled arrays of one core withhold its kite. -/
def State.takeOut (s : State) (u : TestUnit) : State :=
  match u with
  | .array k j => 
    let off := setBit s.su.testedOff (2 * k + j)
    let su := { s.su with testedOff := off }
    { s with su := if bothOff (s.fuses.arrayOff ||| off) k then { su with withheld := setBit su.withheld (k / 8) } else su }
  | .vector k | .coreStore k | .instrStore k => { s with su := { s.su with withheld := setBit s.su.withheld (k / 8) } }
  | .link p => s.modPort p fun x => { x with testHold := true, st := .held, status := 0x0702 }
  | .tether n => { s with su := { s.su with badTethers := setBit s.su.badTethers n } }
  | _ => s

/-- Below grade after self-test (R97): the state is recorded, with status 0x0703 when it is so. -/
def State.gradeCheck (s : State) : State :=
  let below := decide (popCount s.arraysOff > (gradeSpare s.fuses.grade).getD 0)
  let t := { s with su := { s.su with belowGrade := below } }
  if below then t.note 0x0703 else t

/-- A unit that a self-test covers: of the arrays only the enabled ones (R96, R586). -/
def State.testable (s : State) : TestUnit → Bool
  | .array k j => !bit s.arraysOff (2 * k + j)
  | _ => true

/-- STARTUP_SELF_TEST_COMPLETE (R96, R97): `fails` are the units whose signature mismatched. -/
def execStartupSelfTestComplete (fails : List TestUnit) (s : State) : Res :=
  onUnit (fails.all TestUnit.valid) (if s.su.stage != 0x07 || !fails.all s.testable then s
    else
      let full := match s.siteConfig with
        | none => false
        | some m => m.byte 2 == 1
      let t := { s with su := { s.su with fullTest := full } }
      if fails.any TestUnit.moduleWide then t.halt 0x0701
      else if fails.isEmpty then (t.gradeCheck).toStage 0x08
      else
        let t := fails.foldl State.takeOut t
        let t := ({ t with su := { t.su with degraded := true } }).publishArrays
        ((t.note 0x0702).gradeCheck).toStage 0x08)

/-- The ports train, but those held by a register, a test or the ladder, and 14 to 17 without rack coordinates (R91, R577). -/
def State.openPorts (s : State) : State :=
  (List.range 18).foldl (fun s p =>
    s.modPort p fun x => if x.testHold || x.hold || x.ladderHold then { x with st := .held }
      else if decide (14 ≤ p) && s.siteConfig.isNone then { x with st := .held } else { x with st := .training }) s

/-- MEMORY_STAGE_COMPLETE (R99): a stack or the ballast that fails is retried once and then halts start-up; when both tiers are
trained every codeword is zero, the channel hash key has been drawn (R313), and stage 0x09 begins. -/
def execMemoryStageComplete (stack : Option Nat) (ballast : Bool) (s : State) : Res :=
  onUnit (decide (stack.getD 0 < 12)) (if s.su.stage != 0x08 then s
    else match stack with
      | some k =>
        if s.su.retriedStacks.contains k then s.halt 0x0301
        else { s with su := { s.su with retriedStacks := k :: s.su.retriedStacks } }
      | none =>
        if ballast then
          if s.su.retriedBallast then s.halt 0x0302 else { s with su := { s.su with retriedBallast := true } }
        else
          ((({ s with
              su := { s.su with linksDriven := true }
              spn := { s.spn with ready := true, tiles := [], hashKey := (Config.freshKey s.free).truncate 128 } }).openPorts).toStage 0x09).tick)

/-! ### The end of the link stage (R100 to R103) -/

/-- Entry `n` of the partition table: kite mask and shares (R90). -/
def siteEntry (m : Mem) (n : Nat) : W32 × Byte × Byte × Byte :=
  let a := 0x80 + 16 * n
  (m.read 32 a, m.byte (a + 4), m.byte (a + 5), m.byte (a + 6))

/-- The default partition table: kite masks and shares in partition order; without an owner section, one partition of every
kite not withheld with each share at 64 (R91). -/
def State.defaultTable (s : State) : List (W32 × Byte × Byte × Byte) :=
  match s.siteConfig with
  | none => [(~~~s.su.withheld, 64, 64, 64)]
  | some m => (List.range (min (m.byte 3).toNat 32)).map (siteEntry m)

/-- The masks of a list are pairwise disjoint. -/
def disjointMasks : List W32 → Bool
  | [] => true
  | m :: r => r.all (fun x => m &&& x == 0) && disjointMasks r

/-- The partition table is valid (R91). -/
def tableValid (t : List (W32 × Byte × Byte × Byte)) : Bool :=
  t.all (fun e => e.1 != 0) && disjointMasks (t.map (·.1))
    && decide ((t.map fun e => e.2.1.toNat).sum ≤ 64)
    && decide ((t.map fun e => e.2.2.1.toNat).sum ≤ 64)
    && decide ((t.map fun e => e.2.2.2.toNat).sum ≤ 64)

/-- Create the default partitions of a table from number `n` on; one left with no kites is not created (R98, R102). -/
def State.createDefaults (s : State) (n : Nat) : List (W32 × Byte × Byte × Byte) → State
  | [] => s
  | (kites, hbm, bal, link) :: r =>
    let k := kites &&& ~~~s.su.withheld
    let t := if k = 0 then s.note 0x0202 else s.createPartition n k hbm bal link
    t.createDefaults (n + 1) r

/-- Stages 0x0a and 0x0b: the default partitions, then Ready (R102, R103). Without an owner section and with every kite withheld the default mask
is zero; the model takes the table to be invalid then (0x0201, R91), not a partition left without kites (0x0202, R98) (assumption 17). -/
def State.finishStartup (s : State) : State :=
  let t := s.toStage 0x0a
  let t := { t with gon := { t.gon with ready := true } }
  let t := if tableValid t.defaultTable then t.createDefaults 0 t.defaultTable else t.note 0x0201
  let t := { t.toStage 0x0b with hif := { t.hif with vfsEnabled := true } }
  let t := t.fire 0 0
  if t.mgt.receiver.isSome then t.emit .pldmReady else t

/-- A port for which the link stage does not wait: up, held down or peerless (R100). -/
def Port.settled (p : Port) : Bool := p.st != .training && p.st != .authenticating && p.st != .lost

/-- LINK_STAGE_END (R100): every port is up, held down or peerless. -/
def execLinkStageEnd (s : State) : Res :=
  .next (if s.su.stage == 0x09 && (List.range 18).all (fun p => (s.port p).settled) then s.finishStartup else s)

/-- LINK_STAGE_TIMEOUT (R100, R101): after 2 s, ports still training continue; one that comes up later is reported. -/
def execLinkStageTimeout (s : State) : Res :=
  .next (if s.su.stage == 0x09 then
    ((List.range 18).foldl (fun s p => s.modPort p fun x => if x.settled then x else { x with wasAway := true }) s).finishStartup
  else s)

end Sys2Proof.Machine
end

