-- ==== Sys2Proof/Machine/LaneGen.lean ====
section
/-! DEFINITION. The generators of a core's lanes (R274 to R277): a linear recurrence of period 2^128 - 1 on states that are never 0, a non-linear
output, and conditioned bits mixed in. The manual leaves the algorithm open: its polynomial, its output, its seeds and its mixing are free values,
held to what binds. -/

namespace Sys2Proof.Machine

/-- x times an element of GF(2)[x] modulo x^128 + p. -/
def polyDouble (p st : BitVec 128) : BitVec 128 := if st.getLsbD 127 then (st <<< 1) ^^^ p else st <<< 1

/-- A product, by the bits of the second factor. -/
def polyTimes (p a : BitVec 128) (b : Nat) : Nat → BitVec 128
  | 0 => 0
  | n + 1 => polyDouble p (polyTimes p a (b / 2) n) ^^^ (if b % 2 = 1 then a else 0)

/-- A power of x, by the bits of the exponent. -/
def polyPow (p : BitVec 128) (e : Nat) : Nat → BitVec 128
  | 0 => 1
  | n + 1 =>
    let r := polyPow p (e / 2) n
    let q := polyTimes p r r.toNat 128
    if e % 2 = 1 then polyDouble p q else q

/-- x^128 + p is primitive: x has the order 2^128 - 1, whose prime factors are listed. -/
def polyPrimitive (p : BitVec 128) : Bool :=
  p.getLsbD 0 && polyPow p (2 ^ 128 - 1) 128 == 1
    && [3, 5, 17, 257, 641, 65537, 274177, 6700417, 67280421310721].all fun q => polyPow p ((2 ^ 128 - 1) / q) 128 != 1

/-- The recurrence's polynomial: a free one, if it is primitive; x^128 + x^7 + x^2 + x + 1, which is, otherwise. -/
def lanePoly : BitVec 128 := if polyPrimitive Config.lanePoly then Config.lanePoly else 0x87

/-- The linear recurrence (R274). Up to a change of the state's coordinates, which the free output and mixing absorb, every linear recurrence of
that period is of this form. -/
def laneNext (st : BitVec 128) : BitVec 128 := polyDouble lanePoly st

/-- A state of a generator, which is never 0: each of the others is the state of some number (R274). -/
def genState (n : Nat) : BitVec 128 := BitVec.ofNat 128 (n % (2 ^ 128 - 1) + 1)

/-- The output function (R274): a free function, changed at one point if it would be linear at a free pair of states. -/
def laneOut (st : BitVec 128) : W64 :=
  let x := genState Config.laneWitness.1
  let y := genState Config.laneWitness.2
  if st = x ^^^ y ∧ Config.laneBits (x ^^^ y) = Config.laneBits x ^^^ Config.laneBits y then Config.laneBits st ^^^ 1 else Config.laneBits st

/-- The state that the generator of lane `i` of core `k` holds; `n` numbers the draw (R274). -/
def LaneGen.state (g : LaneGen) (n k i : Nat) : BitVec 128 := if g.st = 0 then genState (Config.laneSeed n k i) else g.st

/-- 64 conditioned bits of the entropy source enter a lane's state (R277). -/
def LaneGen.mix (g : LaneGen) (n k i : Nat) : LaneGen :=
  { st := genState (Config.laneMix (g.state n k i) (Config.entropy n k i)), draws := 0 }

/-- A draw advances the generator and gives its output; after 2^20 draws bits are mixed in first, unless the source has failed
(R274, R275, R277, R279). -/
def LaneGen.draw (g : LaneGen) (fails : Bool) (n k i : Nat) : LaneGen × W64 :=
  let g := if !fails && decide (2 ^ 20 ≤ g.draws) then g.mix n k i else g
  let st := laneNext (g.state n k i)
  ({ st, draws := g.draws + 1 }, laneOut st)

end Sys2Proof.Machine
end

