-- ==== Sys2Proof/Machine/VFun.lean ====
section
/-! DEFINITION. `vfun` (R269 to R271): the exact values, and at every other operand a free choice among the values that lie
within the stated error of the exact one. The exact one is held between two numbers far closer together than a code's spacing,
so no value within the bound is shut out. -/

namespace Sys2Proof.Machine

/-! ### The exact values (R270) -/

/-- The code of 0.5, of 1, of minus 1. -/
def Fmt.half (f : Fmt) : Nat := f.pack false (f.bias - 1) 0
def Fmt.one (f : Fmt) (neg : Bool) : Nat := f.pack neg f.bias 0

/-- The results the manual gives exactly (R270). -/
def vfunExact (f : Fmt) (fn : Nat) (x : Nat) : Option (Nat × Flags) :=
  let below := some (f.canonNan, Flags.invalid)
  match fn, f.decode x with
  | 0, .inf s => some (if s then f.zeroCode false else f.infCode false, 0)
  | 1, .inf s => if s then below else some (f.infCode false, 0)
  | 2, .inf s => if s then below else some (f.zeroCode false, 0)
  | 3, .inf s => some (f.one s, 0)
  | 4, .inf s => some (if s then f.zeroCode false else f.one false, 0)
  | _, .inf s => some (if s then f.zeroCode true else f.infCode false, 0)
  | 0, .fin _ 0 _ => some (f.one false, 0)
  | 1, .fin _ 0 _ => some (f.infCode true, Flags.divZero)
  | 2, .fin s 0 _ => some (f.infCode s, Flags.divZero)
  | 3, .fin s 0 _ => some (f.zeroCode s, 0)
  | 4, .fin _ 0 _ => some (f.half, 0)
  | _, .fin s 0 _ => some (f.zeroCode s, 0)
  | 1, .fin s _ _ => if s then below else if x = f.one false then some (f.zeroCode false, 0) else none
  | 2, .fin s _ _ => if s then below else if x = f.one false then some (f.one false, 0) else none
  | _, _ => none

/-! ### Numbers held between two bounds -/

/-- A magnitude that lies between lo · 2^e and hi · 2^e. -/
structure Enc where
  lo : Nat
  hi : Nat
  e : Int
deriving DecidableEq, Repr

/-- m · 2^e itself. -/
def Enc.exact (m : Nat) (e : Int) : Enc := ⟨m, m, e⟩

/-- The bounds kept to `p` bits, moved outwards. -/
def Enc.trim (p : Nat) (a : Enc) : Enc :=
  let d := bitLen a.hi - p
  if d = 0 then a else ⟨a.lo / 2 ^ d, a.hi / 2 ^ d + 1, a.e + d⟩

/-- A sum. -/
def Enc.add (a b : Enc) : Enc :=
  let q := min a.e b.e
  ⟨a.lo * 2 ^ (a.e - q).toNat + b.lo * 2 ^ (b.e - q).toNat, a.hi * 2 ^ (a.e - q).toNat + b.hi * 2 ^ (b.e - q).toNat, q⟩

/-- A difference that is not negative. -/
def Enc.sub (a b : Enc) : Enc :=
  let q := min a.e b.e
  ⟨a.lo * 2 ^ (a.e - q).toNat - b.hi * 2 ^ (b.e - q).toNat, a.hi * 2 ^ (a.e - q).toNat - b.lo * 2 ^ (b.e - q).toNat, q⟩

/-- A product. -/
def Enc.mul (p : Nat) (a b : Enc) : Enc := Enc.trim p ⟨a.lo * b.lo, a.hi * b.hi, a.e + b.e⟩

/-- A quotient. -/
def Enc.div (p : Nat) (a b : Enc) : Enc :=
  let n := p + bitLen b.hi
  Enc.trim p ⟨a.lo * 2 ^ n / b.hi, a.hi * 2 ^ n / b.lo + 1, a.e - b.e - n⟩

/-- A product with the ratio of two integers. -/
def Enc.scale (p : Nat) (a : Enc) (num den : Nat) : Enc := Enc.div p (Enc.mul p a (.exact num 0)) (.exact den 0)

/-- A square root. -/
def Enc.root (p : Nat) (a : Enc) : Enc :=
  let n := 2 * p + (if (a.e - 2 * p) % 2 = 0 then 0 else 1)
  Enc.trim p ⟨isqrt (a.lo * 2 ^ n), isqrt (a.hi * 2 ^ n) + 1, (a.e - n) / 2⟩

/-- The sum of `n` more terms of a series of positive terms, in which each base term is at most half of the one before by the end and no
term exceeds its base term: what is left out adds to no more than the last base term. -/
def Enc.series (p : Nat) (step term : Nat → Enc → Enc) : Nat → Nat → Enc → Enc → Enc
  | 0, _, t, acc => Enc.trim p (Enc.add acc ⟨0, t.hi, t.e⟩)
  | n + 1, k, t, acc =>
    let t' := step k t
    Enc.series p step term n (k + 1) t' (Enc.trim p (Enc.add acc (term k t')))

/-! ### The functions, of a magnitude x = m · 2^e -/

/-- Whether m · 2^e is at least `n`. -/
def atLeast (m : Nat) (e : Int) (n : Nat) : Bool := decide (n * 2 ^ (-e).toNat ≤ m * 2 ^ e.toNat)

/-- Whether m · 2^e is below 2^k. -/
def belowPow (m : Nat) (e k : Int) : Bool := decide (e + bitLen m ≤ k)

/-- Just below 1, by less than a 2^128th; far below every code; far above every code. -/
def Enc.nearOne : Enc := ⟨2 ^ 128 - 1, 2 ^ 128, -128⟩
def Enc.tiny : Enc := .exact 1 (-3000)
def Enc.huge : Enc := .exact 1 3000

/-- e^x for x below 2^12: the power series at x / 2^20, squared 20 times. -/
def expOf (p m : Nat) (e : Int) : Enc :=
  let y := if belowPow m e (-p) then ⟨0, 1, -p⟩ else Enc.trim p (.exact m (e - 20))
  let s := Enc.series p (fun k t => Enc.scale p (Enc.mul p t y) 1 (k + 1)) (fun _ t => t) (p / 16 + 8) 0 (.exact 1 0) (.exact 1 0)
  (List.range 20).foldl (fun a _ => Enc.mul p a a) s

/-- Twice the inverse hyperbolic tangent of num / den, a ratio of at most 1/3. -/
def atanh2 (p num den : Nat) : Enc :=
  if num = 0 then .exact 0 0
  else
    let z := Enc.scale p (.exact 1 0) num den
    let zz := Enc.mul p z z
    Enc.mul p (.exact 2 0) (Enc.series p (fun _ t => Enc.mul p t zz) (fun k t => Enc.scale p t 1 (2 * k + 3)) (p / 3 + 8) 0 z z)

/-- The sign and magnitude of ln x: x = r · 2^n with r between 3/4 and 3/2. -/
def lnOf (p m : Nat) (e : Int) : Bool × Enc :=
  let b := bitLen m
  let up := decide (4 * m ≥ 3 * 2 ^ b)
  let one := if up then 2 ^ b else 2 ^ (b - 1)
  let n : Int := e + (if up then (b : Int) else (b : Int) - 1)
  let r := atanh2 p (max m one - min m one) (m + one)
  let l := Enc.mul p (.exact n.natAbs 0) (atanh2 p 1 3)
  if n = 0 then (decide (m < one), r)
  else (decide (n < 0), if decide (n < 0) = decide (m < one) then Enc.trim p (Enc.add l r) else Enc.trim p (Enc.sub l r))

/-- tanh x. -/
def tanhOf (p m : Nat) (e : Int) : Enc :=
  if atLeast m e 256 then .nearOne
  else if belowPow m e (-60) then ⟨m * (2 ^ 100 - 1), m * 2 ^ 100, e - 100⟩
  else
    let x := expOf p m (e + 1)
    Enc.div p (Enc.sub x (.exact 1 0)) (Enc.add x (.exact 1 0))

/-- Above 1/2, or below it, by less than 2^(-p-1). -/
def nearHalf (p : Nat) (neg : Bool) : Enc := if neg then ⟨2 ^ p - 1, 2 ^ p, -(p : Int) - 1⟩ else ⟨2 ^ p, 2 ^ p + 1, -(p : Int) - 1⟩

/-- The logistic sigmoid of x, or of -x. -/
def sigmoidOf (p : Nat) (neg : Bool) (m : Nat) (e : Int) : Enc :=
  if atLeast m e 2048 then (if neg then .tiny else .nearOne)
  else if belowPow m e (-150) then nearHalf 151 neg
  else
    let x := expOf p m e
    Enc.div p (if neg then .exact 1 0 else x) (Enc.add x (.exact 1 0))

/-- The root of 2π: π / 2 is the sum of the terms n! / (1 · 3 · … · (2n + 1)). -/
def rootTwoPi (p : Nat) : Enc :=
  Enc.root p (Enc.mul p (.exact 4 0)
    (Enc.series p (fun k t => Enc.scale p t (k + 1) (2 * k + 3)) (fun _ t => t) (p + 8) 0 (.exact 1 0) (.exact 1 0)))

/-- (1 + erf(x / √2)) / 2 at x, or at -x: 1/2 plus or minus e^(-x²/2) / √(2π) times the sum of x^(2n+1) / (1 · 3 · … · (2n + 1)). -/
def normalCdf (p : Nat) (neg : Bool) (m : Nat) (e : Int) : Enc :=
  if atLeast m e 40 then (if neg then .tiny else .nearOne)
  else if belowPow m e (-p) then nearHalf p neg
  else
    let x := Enc.trim p (.exact m e)
    let xx := Enc.mul p x x
    let s := Enc.series p (fun k t => Enc.scale p (Enc.mul p t xx) 1 (2 * k + 3)) (fun _ t => t) (p + 1600) 0 x x
    let d := Enc.div p s (Enc.mul p (expOf p (m * m) (2 * e - 1)) (rootTwoPi p))
    if neg then Enc.sub (.exact 1 (-1)) d else Enc.add (.exact 1 (-1)) d

/-- The sign and the magnitude of a function at (-1)^neg · m · 2^e, m not 0, where it is defined (R269). -/
def vfunReal (fn : Nat) (neg : Bool) (m : Nat) (e : Int) : Bool × Enc :=
  let p := 256
  match fn with
  | 0 =>
    if atLeast m e 2048 then (false, if neg then .tiny else .huge)
    else (false, if neg then Enc.div p (.exact 1 0) (expOf p m e) else expOf p m e)
  | 1 => lnOf p m e
  | 2 =>
    let t := e + bitLen m - 1
    if m = 2 ^ (bitLen m - 1) ∧ t % 2 = 0 then (false, .exact 1 (-t / 2))
    else (false, Enc.div p (.exact 1 0) (Enc.root p (.exact m e)))
  | 3 => (neg, tanhOf p m e)
  | 4 => (false, sigmoidOf p neg m e)
  | 5 => (neg, Enc.mul 1400 (.exact m e) (normalCdf 1400 neg m e))
  | _ => (neg, Enc.mul p (.exact m e) (sigmoidOf p neg m e))

/-! ### The values within the bound -/

/-- The error bound in ulp: R269's, and 1 more where RND is not roundTiesToEven. -/
def vfunUlps (fn : Nat) (rm : Rnd) : Nat :=
  (if fn ≤ 2 then 1 else if fn ≤ 4 then 2 else 3) + (if rm = .tiesEven then 0 else 1)

/-- The `pick`-th of the values of a format that lie within `k` ulp of an exact value of sign `neg`, whole and half ulps being tried so that
the codes of the next lower exponent count too; rounded to the format's range, with the flags of R271. The ulp is the spacing at the lower bound:
where the bounds of a function lie on both sides of a power of two, its exact value lies below. An exact value that is no code's lies strictly between
its bounds, since the functions take no binary fraction at the operands that R270 does not list but for the powers of 4 of FUNC 2, whose value is held
exactly. -/
def pickWithin (f : Fmt) (rm : Rnd) (k : Nat) (neg : Bool) (x : Enc) (pick : Nat) : Nat × Flags :=
  let q : Int := max (x.e + (bitLen x.lo : Int) - 1 - f.mb) (f.emin - f.mb)
  let h := q - 1
  let up := (x.e - h).toNat
  let down := (h - x.e).toNat
  let at0 : Int := (x.lo * 2 ^ up / 2 ^ down : Nat)
  -- the bounds of a value that is not exact are themselves not taken
  let open_ : Nat := if x.lo = x.hi then 0 else 1
  let a : Int := ((x.lo * 2 ^ up + (2 ^ down - 1) + open_) / 2 ^ down : Nat) - 2 * k
  let b : Int := ((x.hi * 2 ^ up - open_) / 2 ^ down : Nat) + 2 * k
  let n : Int := a + (pick : Int) % (b - a + 1)
  -- a half ulp that is no code goes to the neighbour on the exact value's side
  let dir : Rnd := if 0 ≤ n ∧ n ≤ at0 then .towardPos else .towardZero
  let u := if n = 0 then (0, h, false) else roundUnbounded f.mb dir false n.natAbs h
  let v := if u.2.1 < f.emin - f.mb then ((roundAt dir false n.natAbs h (f.emin - f.mb)).1, f.emin - f.mb) else (u.1, u.2.1)
  let r := f.round rm (if n < 0 ∧ v.1 ≠ 0 then !neg else neg) v.1 v.2
  (r.1, Flags.inexact ||| r.2 ||| Flags.when (decide (r.1 % 2 ^ (f.eb + f.mb) < 2 ^ f.mb)) Flags.underflow)

end Sys2Proof.Machine
end

