-- ==== Sys2Proof/Machine/VectorOps.lean ====
section
/-! DEFINITION. What the vector slot computes: the register writes and the flags of each operation (R187 to R189, R200 to R217,
R259 to R275, R437 to R443). -/

namespace Sys2Proof.Machine

/-- A lane's result and its flags. -/
abbrev Lane := Nat × Flags

/-- A register from lane results, and the flags they set. -/
def packLanes (w : Nat) (l : List Lane) : BitVec 8192 × Flags :=
  (ofLanes w (l.map (·.1)), l.foldl (fun a x => a ||| x.2) 0)

/-- A function of one, two or three operands, lane by lane. -/
def lanes1 (w : Nat) (f : Nat → Lane) (a : BitVec 8192) : BitVec 8192 × Flags := packLanes w ((lanes w a).map f)
def lanes2 (w : Nat) (f : Nat → Nat → Lane) (a b : BitVec 8192) : BitVec 8192 × Flags :=
  packLanes w (List.zipWith f (lanes w a) (lanes w b))
def lanes3 (w : Nat) (f : Nat → Nat → Nat → Lane) (a b c : BitVec 8192) : BitVec 8192 × Flags :=
  packLanes w (List.zipWith (fun x g => g x) (lanes w a) (List.zipWith (fun y z x => f x y z) (lanes w b) (lanes w c)))

/-! ### vred (R263 to R265) -/

/-- One level of the pairwise tree: neighbours added. -/
def pairUp (f : Fmt) (rm : Rnd) : List Lane → List Lane
  | x :: y :: r =>
    let z := fadd f rm x.1 y.1
    (z.1, x.2 ||| y.2 ||| z.2) :: pairUp f rm r
  | l => l

/-- The pairwise tree of so many levels (R263). -/
def pairTree (f : Fmt) (rm : Rnd) (l : List Lane) : Nat → Lane
  | 0 => l.headD (0, 0)
  | n + 1 => pairTree f rm (pairUp f rm l) n

/-- The maximum or minimum of the lanes; any NaN lane gives the lowest-numbered one, quiet (R264). -/
def redExtreme (f : Fmt) (mx : Bool) (l : List Nat) : Lane :=
  let fl := Flags.when ((l.map f.decode).any Val.isSnan) Flags.invalid
  match l.find? fun x => (f.decode x).isNan with
  | some x => ((fminmax f mx x x).1, fl)
  | none => match l with
    | [] => (0, 0)
    | x :: r => (r.foldl (fun a y => (fminmax f mx a y).1) x, 0)

/-- `vred`: sum, maximum, minimum, sum of squares (R188, R263). -/
def vredLane (w : Bool) (fn : Nat) (rm : Rnd) (a : BitVec 8192) : Lane :=
  let f := Fmt.ofW w
  let l := lanes (laneBits w) a
  let levels := if w then 7 else 8
  match fn with
  | 0 => pairTree f rm (l.map fun x => (x, 0)) levels
  | 1 => redExtreme f true l
  | 2 => redExtreme f false l
  | _ => pairTree f rm (l.map fun x => fmul f rm x x) levels

/-- `vfun` on a lane: R201 for NaN, R270's exact values, else a free choice among the values within R269's error. -/
def vfunLane (w : Bool) (fn : Nat) (rm : Rnd) (x : Nat) : Lane :=
  let f := Fmt.ofW w
  match nanResult f [f.decode x] 0, f.decode x with
  | some r, _ => r
  | none, v => match vfunExact f fn x, v with
    | some r, _ => r
    | none, .fin s m e =>
      let y := vfunReal fn s m e
      pickWithin f rm (vfunUlps fn rm) y.1 y.2 (Config.vfun (laneBits w) fn rm.code (BitVec.ofNat 64 x)).toNat
    | none, _ => invalidResult f

/-! ### vcvt (R189, R203, R209 to R217) -/

/-- The lift of element `i` of a `vcvt`: of the group b = i div 64 in S, or 32 without lift (R189, R209). -/
def cvtLiftOf (fn : Nat) (s : W64) (i : Nat) : Nat := if cvtLift fn then s.toNat / 64 ^ (i / 64) % 64 else 32

/-- A narrowing lane: the code and its flags; `i` is the element's number. -/
def narrowLane (fn : Nat) (rm : Rnd) (s : W64) (i x : Nat) : Lane :=
  match cvtDst fn with
  | 0 => narrow rm x
  | 2 => z16Encode rm x
  | _ => z8Encode rm x (cvtLiftOf fn s i)

/-- A widening lane. -/
def widenLane (fn : Nat) (s : W64) (i x : Nat) : Lane :=
  match cvtSrc fn with
  | 0 => widen x
  | 2 => ((z16Decode x).toF32, 0)
  | _ => ((z8Decode x (cvtLiftOf fn s i)).toF32, 0)

/-- Bits of a format of `vcvt` (R189). -/
def cvtBits (c : Nat) : Nat := if c = 1 then 64 else if c = 0 then 32 else if c = 2 then 16 else 8

/-- A pair narrows: its destination is the narrower format. -/
def cvtNarrows (fn : Nat) : Bool := decide (cvtBits (cvtDst fn) < cvtBits (cvtSrc fn))

/-- `vcvt`: a narrowing writes one part of VD and leaves the rest; a widening fills VD from one part of VA (R189). -/
def vcvtReg (fn : Nat) (rm : Rnd) (s : W64) (a d : BitVec 8192) : BitVec 8192 × Flags :=
  let db := cvtBits (cvtDst fn)
  let sb := cvtBits (cvtSrc fn)
  if cvtNarrows fn then
    let l := lanes sb a
    let n := l.length
    let r := List.zipWith (narrowLane fn rm s) (List.range n) l
    let part := ofDigits db (r.map (·.1))
    (putBits d (cvtPart fn * n * db) (BitVec.ofNat (n * db) part), r.foldl (fun x y => x ||| y.2) 0)
  else
    let n := 8192 / db
    let x := (lanes sb a).drop (cvtPart fn * n) |>.take n
    packLanes db (List.zipWith (widenLane fn s) (List.range n) x)

/-! ### vrand (R275) -/

/-- The generator of lane `i`. -/
def Core.lane (c : Core) (i : Nat) : LaneGen := c.lanes.getD i {}

/-- The draws of the first `count` lanes, and the core with their generators advanced (R275). Assumption 74: lane i of either width has generator i. -/
def Core.draw (c : Core) (n k count : Nat) : List (LaneGen × W64) :=
  (List.range count).map fun i => (c.lane i).draw c.entropyFail n k i
def Core.drawn (c : Core) (l : List LaneGen) : Core :=
  { c with lanes := l ++ c.lanes.drop l.length }

/-- A lane drawn by `vrand`: fresh random bits, or k · 2^-24 or 2^-53 for k uniform (R275). -/
def vrandLane (w : Bool) (fn : Nat) (bits : W64) : Nat :=
  let r := bits.toNat
  if fn = 0 then r % 2 ^ laneBits w
  else if w then (Fmt.f64.round .tiesEven false (r % 2 ^ 53) (-53)).1
  else (Fmt.f32.round .tiesEven false (r % 2 ^ 24) (-24)).1

/-! ### vupd (R437 to R443) -/

/-- A binary32 value with the flags raised so far. -/
def fop2 (f : Nat → Nat → Lane) (a b : Lane) : Lane :=
  let r := f a.1 b.1
  (r.1, a.2 ||| b.2 ||| r.2)

def madd : Lane → Lane → Lane := fop2 (fadd .f32 .tiesEven)
def msub : Lane → Lane → Lane := fop2 (fsub .f32 .tiesEven)
def mmul : Lane → Lane → Lane := fop2 (fmul .f32 .tiesEven)
def mdiv : Lane → Lane → Lane := fop2 (fdiv .f32 .tiesEven)
def msqrt (a : Lane) : Lane :=
  let r := fsqrt .f32 .tiesEven a.1
  (r.1, a.2 ||| r.2)

/-- The hyperparameters of `vupd` (R441). -/
structure Hyper where
  lr : Lane
  b1t : Lane
  b2t : Lane
  eps : Lane
  lam : Lane
  rho : Lane
  c1 : Lane
  c2 : Lane

/-- The low and the high binary32 of a scalar register. -/
def lowF (x : W64) : Lane := (x.toNat % 2 ^ 32, 0)
def highF (x : W64) : Lane := (x.toNat / 2 ^ 32, 0)

/-- The hyperparameters of s_S to s_S+3. -/
def Core.hyper (c : Core) (s : Nat) : Hyper :=
  let x := c.sreg s
  let y := c.sreg (s + 1)
  let z := c.sreg (s + 2)
  let u := c.sreg (s + 3)
  { lr := lowF x, b1t := highF x, b2t := lowF y, eps := highF y, lam := lowF z, rho := highF z, c1 := lowF u, c2 := highF u }

/-- The update of one lane: new m, v and w (R442). -/
def updLane (h : Hyper) (g m v w : Lane) : Lane × Lane × Lane :=
  let one : Lane := (Fmt.f32.one false, 0)
  let gg := mmul h.rho g
  let m' := madd (mmul h.b1t m) (mmul (msub one h.b1t) gg)
  let v' := madd (mmul h.b2t v) (mmul (msub one h.b2t) (mmul gg gg))
  let w' := msub w (mmul h.lr (madd (mdiv (mmul m' h.c1) (madd (msqrt (mmul v' h.c2)) h.eps)) (mmul h.lam w)))
  (m', v', w')

/-- The flags of a list of lanes. -/
def laneFlags (l : List Lane) : Flags := l.foldl (fun a x => a ||| x.2) 0

/-- Values of 64-lane blocks encoded: codes, scales and flags (R437). -/
def encodeBlocks (l : List Nat) : List Nat × List Nat × Flags :=
  let bs := (cutInto 64 l 4).map blockEncode
  (bs.flatMap (·.2.1), bs.map fun b => sigmaCode b.1, bs.foldl (fun a b => a ||| b.2.2) 0)

/-- The lanes of a compact line's codes and scales: each decoded code times its scale, one binary32 operation with its flags (R435, R442,
R443). -/
def decodeBlocks (codes scales : Nat) : List Lane :=
  (List.range 256).map fun i =>
    mmul ((z8Decode (codes / 256 ^ i % 256) 32).toF32, 0) (scales / 2 ^ (32 * (i / 64)) % 2 ^ 32, 0)

/-- The new error term of an element: q minus its code decoded exactly, rounded once; +0 where the code is NaN (R437, R438). -/
def errorTerm (code scale : Nat) (q : Lane) : Lane :=
  if code = 0x80 then (0, q.2)
  else
    let r := addVal .f32 .tiesEven (Fmt.f32.decode q.1) (blockVal code scale).negate
    (r.1, q.2 ||| r.2)

/-- Three lists of results of `updLane`. -/
def updAll (h : Hyper) (g m v w : List Lane) : List (Lane × Lane × Lane) :=
  List.zipWith (fun gm vw => updLane h gm.1 gm.2 vw.1 vw.2) (g.zip m) (v.zip w)

/-- A register's lanes as values without flags. -/
def plain (a : BitVec 8192) : List Lane := (lanes 32 a).map fun x => (x, 0)

/-- `vupd` OP 0, full class: w, m and v (R440, R442). -/
def vupdFull (h : Hyper) (a m v w : BitVec 8192) : BitVec 8192 × BitVec 8192 × BitVec 8192 × Flags :=
  let r := updAll h (plain a) (plain m) (plain v) (plain w)
  let ms := r.map (·.1)
  let vs := r.map (·.2.1)
  let ws := r.map (·.2.2)
  (ofLanes 32 (ws.map (·.1)), ofLanes 32 (ms.map (·.1)), ofLanes 32 (vs.map (·.1)), laneFlags (ms ++ vs ++ ws))

/-- `vupd` OP 1, compact class: w, and the moment line as R435 lays it out. -/
def vupdCompact (h : Hyper) (a line w : BitVec 8192) : BitVec 8192 × BitVec 8192 × Flags :=
  let x := line.toNat
  let m := decodeBlocks (x % 2 ^ 2048) (x / 2 ^ 4096 % 2 ^ 128)
  let v := decodeBlocks (x / 2 ^ 2048 % 2 ^ 2048) (x / 2 ^ 4224 % 2 ^ 128)
  let r := updAll h (plain a) m v (plain w)
  let ms := encodeBlocks (r.map fun e => e.1.1)
  let vs := encodeBlocks (r.map fun e => e.2.1.1)
  let y := ofDigits 8 ms.1 + 2 ^ 2048 * ofDigits 8 vs.1 + 2 ^ 4096 * ofDigits 32 ms.2.1 + 2 ^ 4224 * ofDigits 32 vs.2.1
  (ofLanes 32 (r.map fun e => e.2.2.1), BitVec.ofNat 8192 y,
    laneFlags (r.flatMap fun e => [e.1, e.2.1, e.2.2]) ||| ms.2.2 ||| vs.2.2)

/-- `vupd` OP 2, quantize: codes of one part into VD, scales of one slot into VC, the new error terms (R438, R440). -/
def vupdQuantize (part slot : Nat) (g e vc vd : BitVec 8192) : BitVec 8192 × BitVec 8192 × BitVec 8192 × Flags :=
  let q := List.zipWith madd (plain g) (plain e)
  let b := encodeBlocks (q.map (·.1))
  let err := List.zipWith (fun ci (q : Lane) => errorTerm ci.1 (b.2.1.getD (ci.2 / 64) 0) q) b.1.zipIdx q
  (putBits vd (2048 * part) (BitVec.ofNat 2048 (ofDigits 8 b.1)), ofLanes 32 (err.map (·.1)),
    putBits vc (256 + 128 * slot) (BitVec.ofNat 128 (ofDigits 32 b.2.1)), laneFlags err ||| b.2.2)

/-! ### The vector slot as a whole -/

/-- The register writes and the flags of a vector operation; `bits` are what the lanes draw for a `vrand` (R188). -/
def Core.vecResult (c : Core) (v : Vec) (bits : List W64) : List RegWrite × Flags :=
  let f := Fmt.ofW v.w
  let lb := laneBits v.w
  let rm := Rnd.ofCode v.rnd
  let a := c.vreg v.a
  let b := c.vreg v.b
  let x := c.vreg v.c
  let one (r : BitVec 8192 × Flags) : List RegWrite × Flags := ([.v v.d r.1], r.2)
  match v.op with
  | .nop => ([], 0)
  | .add => one (lanes2 lb (fadd f rm) a b)
  | .sub => one (lanes2 lb (fsub f rm) a b)
  | .mul => one (lanes2 lb (fmul f rm) a b)
  | .fma => one (lanes3 lb (ffma f rm) a b x)
  | .div => one (lanes2 lb (fdiv f rm) a b)
  | .sqrt => one (lanes1 lb (fsqrt f rm) a)
  | .min => one (lanes2 lb (fminmax f false) a b)
  | .max => one (lanes2 lb (fminmax f true) a b)
  | .cmp => one (lanes2 lb (fun p q => let r := fcmp f v.fn p q; (if r.1 then 2 ^ lb - 1 else 0, r.2)) a b)
  | .sel => one (lanes3 lb (fun p q m => (if m = 0 then q else p, 0)) a b x)
  | .bcs => one (packLanes lb (List.replicate (8192 / lb) ((c.sreg v.s).toNat % 2 ^ lb, 0)))
  | .red =>
    let r := vredLane v.w v.fn rm a
    ([.v v.d (BitVec.ofNat 8192 r.1), .s v.s (BitVec.ofNat 64 r.1)], r.2)
  | .cvt => one (vcvtReg v.fn rm (c.sreg v.s) a (c.vreg v.d))
  | .func => one (lanes1 lb (vfunLane v.w v.fn rm) a)
  | .rand => one (ofLanes lb (bits.map (vrandLane v.w v.fn)), 0)
  | .upd =>
    match updOp v.fn with
    | 0 =>
      let r := vupdFull (c.hyper v.s) a b x (c.vreg v.d)
      ([.v v.d r.1, .v v.b r.2.1, .v v.c r.2.2.1], r.2.2.2)
    | 1 =>
      let r := vupdCompact (c.hyper v.s) a b (c.vreg v.d)
      ([.v v.d r.1, .v v.b r.2.1], r.2.2)
    | _ =>
      let r := vupdQuantize (updPart v.fn) (updSlot v.fn) a b x (c.vreg v.d)
      ([.v v.d r.1, .v v.b r.2.1, .v v.c r.2.2.1], r.2.2.2)

/-- Steps a vector operation occupies the engine (R260, R444). -/
def Vec.occupancy (v : Vec) : Nat :=
  match v.op with
  | .nop => 0
  | .red => 2
  | .func => 4
  | .div | .sqrt => 8
  | .upd => if updOp v.fn = 0 then 16 else if updOp v.fn = 1 then 20 else 4
  | _ => 1

end Sys2Proof.Machine
end

