-- ==== Sys2Proof/Machine/Issue.lean ====
section
/-! DEFINITION. How a bundle issues: when it may, the statuses found at issue, and the effect of each slot (R155 to R197). -/

namespace Sys2Proof.Machine

/-! ### Waiting (R158, R161, R169, R180, R194) -/

/-- A core may issue: it runs a routine that has not ended, it is neither held nor off, its partition is Running (R525, R575). -/
def State.mayIssue (s : State) (k : Nat) : Bool :=
  let c := s.core k
  decide (c.run = .running) && c.ended == 0 && !c.held && !c.off &&
    match s.partOf k with
    | none => false
    | some p => decide ((s.part p).st = .running)

/-- No vector operation is under way, so the flags are settled (R180). -/
def Core.flagsSettled (c : Core) : Bool := c.ops.all fun o => !o.vec

/-- `wait` holds (R169, R249). -/
def Core.waitHolds (c : Core) (t what : Nat) : Bool :=
  match what with
  | 0 => c.isReady (.t t)
  | 1 => c.arrA.load == 0
  | 2 => c.arrB.load == 0
  | _ => c.ops.isEmpty && c.arrA.load == 0 && c.arrB.load == 0

/-- The head message of a channel: source, hint, length, user words (R138, R153). -/
def Core.headMsg (c : Core) (ch : Nat) : Nat × Nat × Nat × Nat × Nat :=
  let a := c.bufAddr ch (c.chan ch).headBuf
  (c.store.readNat a 1, c.store.readNat (a + 1) 1, c.store.readNat (a + 2) 2, c.store.readNat (a + 4) 4, c.store.readNat (a + 8) 8)

/-- The core-store ranges a move-slot operation reads or writes. -/
def Core.movRanges (c : Core) : Mov → List (Nat × Nat)
  | .sld _ an sb imm | .sst _ an sb imm => [(c.accessAddr an sb imm 8, 8)]
  | .vld _ an sb imm | .vst _ an sb imm => [(c.accessAddr an sb imm 64, 1024)]
  | .tcopy d s =>
    let td := c.treg d
    let ts := c.treg s
    (if ts.isLocal then [(ts.addr.toNat, ts.size)] else []) ++ (if td.isLocal then [(td.addr.toNat, ts.size)] else [])
  | .send _ _ _ t pay _ => if pay then [((c.treg t).addr.toNat, (c.treg t).size)] else []
  | .recv ch _ _ _ t =>
    let n := (c.headMsg ch).2.2.1
    if n = 0 then [] else [((c.treg t).addr.toNat, n)]
  | _ => []

/-- The core-store ranges an array operation reads or will write. -/
def Core.arrRanges (c : Core) (a : Arr) : List (Nat × Nat) :=
  a.tiles.map fun i => ((c.treg i).addr.toNat, 8192 + (if a.op = .drain then 0 else arraySide (c.treg i).fmt.toNat))

/-- The move slot's own condition: `clrf` and `rdx` of the flags wait for vector operations; `recv` waits for a message. -/
def Core.movReady (c : Core) : Mov → Bool
  | .clrf => c.flagsSettled
  | .rdx _ 4 => c.flagsSettled
  | .recv ch _ _ _ _ => decide (0 < (c.chan ch).held)
  | _ => true

/-- The control slot's own condition. -/
def Core.ctlReady (c : Core) : Ctl → Bool
  | .wait t what => c.waitHolds t what
  | .swap => c.quiet
  | _ => true

/-- Every register is ready, every engine accepts, and no line it accesses is still to be written by earlier work (R158). -/
def Core.bundleReady (c : Core) (b : Bundle) : Bool :=
  b.touches.all c.isReady && c.ctlReady b.ctl && c.movReady b.mov
    && (b.arr.op == .nop || decide ((c.array b.arr.arr).load < 4))
    && (c.movRanges b.mov ++ c.arrRanges b.arr).all fun r => c.rangeFree r.1 r.2

/-! ### Statuses found at issue (R196) -/

/-- The destination of a `send`: core and channel (R185). -/
def Core.sendDest (c : Core) (dst : Nat) : Nat × Nat := ((c.sreg dst).toNat % 256, (c.sreg dst).toNat / 256 % 16)

/-- What ends a routine at a `send` before it asks for a credit (R143, R185, R377). -/
def State.sendFault (s : State) (k : Nat) (c : Core) (dst t : Nat) (pay : Bool) : Option Nat :=
  let d := c.sendDest dst
  let p := s.partOf k
  firstFail [
    (decide (s.partOf d.1 ≠ p) || ((s.core d.1).chan d.2).depth == 0, 0x0903),
    (d.2 == 15 && (match p with
      | none => false
      | some n => (s.part n).batcher.on), 0x0917),
    (pay && !(c.treg t).isLocal, 0x0909)]

/-- The status the control slot finds at issue (R168, R171). -/
def Core.ctlFault (c : Core) : Ctl → Option Nat
  | .rep _ n _ =>
    firstFail [
      (c.loops.length == 4, 0x0908),
      ((match c.loops.getLast? with
        | none => false
        | some l => decide (l.p + l.n < c.pc + n)), 0x0908),
      (decide (c.bundles ≤ c.pc + n), 0x0902)]
  | .br sr cond target => if condHolds cond (c.sreg sr) && decide (c.bundles ≤ target) then some 0x0902 else none
  | .jmp target => if c.bundles ≤ target then some 0x0902 else none
  | _ => none

/-- The status the move slot finds at issue (R181, R183, R185). -/
def Core.movFault (c : Core) : Mov → Option Nat
  | .sld _ an sb imm | .sst _ an sb imm => if c.accessOk (c.accessAddr an sb imm 8) 8 8 then none else some 0x090a
  | .vld _ an sb imm | .vst _ an sb imm => if c.accessOk (c.accessAddr an sb imm 64) 1024 64 then none else some 0x090a
  | .tdef _ an sb _ side =>
    if c.tileFits (c.accessAddr an sb 0 0) (8192 + 64 * side) then none else some 0x090a
  | .tcopy d s =>
    let td := c.treg d
    let ts := c.treg s
    firstFail [
      (!(td.isLocal || td.isSpan) || !(ts.isLocal || ts.isSpan) || (td.isSpan && ts.isSpan), 0x0909),
      (td.isLocal && decide (c.msgStart < td.addr.toNat + ts.size), 0x090a)]
  | .recv ch _ _ _ t =>
    let n := (c.headMsg ch).2.2.1
    let h := c.treg t
    firstFail [
      (decide (n ≠ 0) && !h.isLocal, 0x0909),
      (decide (n ≠ 0) && decide (c.msgStart < h.addr.toNat + n), 0x090a)]
  | _ => none

/-- A `stream` has no stationary it may use, or does not match its bridle or its accumulation (R241). -/
def ArrayState.streamFault (x : ArrayState) (a : Arr) : Bool :=
  match x.latest with
  | none => true
  | some st =>
    decide (st.fmt ≠ a.fmt) || decide (st.depth ≠ shapeDepth a.shape) ||
      (!a.first && match x.acc with
        | none => false
        | some o => decide (o ≠ (a.fmt, a.kind, a.shape)))

/-- A handle an array operation names is of the wrong kind or format (R191, R193). -/
def Core.arrHandlesOk (c : Core) (a : Arr) : Bool :=
  a.tiles.all fun i =>
    let h := c.treg i
    h.isLocal && (match a.op with
      | .bridle => stationaryFmtOk a.fmt h.fmt.toNat
      | .stream => streamingFmtOk a.fmt h.fmt.toNat
      | _ => true)

/-- The status the array slot finds at issue (R7, R193, R241). -/
def State.arrFault (s : State) (k : Nat) (c : Core) (a : Arr) : Option Nat :=
  if a.op = .nop then none
  else firstFail [
    (bit s.arraysOff (2 * k + (if a.arr then 1 else 0)), 0x0901),
    (!c.arrHandlesOk a, 0x0909),
    (a.op == .stream && (c.array a.arr).streamFault a, 0x090f)]

/-- The first status that the slots of a bundle find at issue, in the order control, move, array. -/
def State.issueFault (s : State) (k : Nat) (c : Core) (b : Bundle) : Option Nat :=
  match c.ctlFault b.ctl with
  | some st => some st
  | none => match c.movFault b.mov with
    | some st => some st
    | none => s.arrFault k c b.arr

/-! ### Effects of the slots -/

/-- An operation is issued. -/
def Core.launch (c : Core) (o : InFlight) : Core := { c with ops := c.ops ++ [o] }

/-- An operation that writes registers of the move slot. -/
def movOp (c : Core) (m : Mov) (w : List RegWrite) (status : W16 := 0) : InFlight :=
  { bundle := c.pc, writes := if status = 0 then w else [], busy := m.writes, status }

/-- Poison met after issue (R110, R196). -/
def poisonStatus (b : Bool) : W16 := if b then 0x0905 else 0

/-- A load or store of `n` bytes at `a` (R181). -/
def Core.load (c : Core) (m : Mov) (a n : Nat) (w : Nat → RegWrite) : Core :=
  c.launch (movOp c m [w (c.store.readNat a n)] (poisonStatus (c.readPoison a n)))
def Core.storeWord (c : Core) (m : Mov) (a n x : Nat) : Core :=
  let bad := c.writePoison a n
  let c := c.launch (movOp c m [] (poisonStatus bad))
  if bad then c else c.storeBytes a n (Mem.ofList (bytesLE x n))

/-- `tcopy` (R183, R184): between local places at once; to or from the span as an access in flight. -/
def Core.tcopy (c : Core) (m : Mov) (d s : Nat) : Core :=
  let td := c.treg d
  let ts := c.treg s
  let w : List RegWrite := [.t d { td with fmt := ts.fmt, side := ts.side }]
  let src := c.tileAt ts
  if ts.isSpan then
    c.launch { movOp c m w with
      span := .read ts.addr td.addr.toNat ts.side.toNat, lines := (td.addr.toNat, ts.size), ready := false }
  else if c.readPoison ts.addr.toNat ts.size then c.launch (movOp c m w 0x0905)
  else if td.isSpan then c.launch { movOp c m w with span := .write td.addr src false, ready := false }
  else if c.writePoison td.addr.toNat ts.size then c.launch (movOp c m w 0x0905)
  else (c.launch (movOp c m w)).storeBytes td.addr.toNat ts.size (src.payload ++ src.side.map fun e => (e.1 + 8192, e.2))

/-- The message a `send` injects (R185). -/
def Core.message (c : Core) (k dst u0 u1 t : Nat) (pay : Bool) (hint : Nat) : MeshMsg :=
  let d := c.sendDest dst
  { src := k, dst := d.1, chan := d.2, word0 := (c.sreg u0).setWidth 32, word1 := c.sreg u1, hint := BitVec.ofNat 8 hint
    srcByte := BitVec.ofNat 8 k, data := if pay then some (c.tileAt (c.treg t)) else none }

/-- `send` with its credit at hand: the message enters the mesh; a payload read that meets poison sends nothing and returns the
credit (R110, R185). -/
def State.sendNow (s : State) (k : Nat) (m : Mov) (dst u0 u1 t : Nat) (pay : Bool) (hint : Nat) : State :=
  let c := s.core k
  let h := c.treg t
  if pay && c.readPoison h.addr.toNat h.size then (s.modCore k fun c => c.launch (movOp c m [] 0x0905)).dropCredit k
  else
    let u := s.modCore k fun c => { c with credit := none }
    { u with mesh := u.mesh ++ [c.message k dst u0 u1 t pay hint] }

/-- `recv` with a message there: registers, payload, and the credit returned; poison met in the payload leaves the message at the
head of its channel (R185). -/
def State.recvNow (s : State) (k : Nat) (m : Mov) (ch u0 u1 meta_ t : Nat) : State :=
  let c := s.core k
  let x := c.chan ch
  let (src, hint, n, w0, w1) := c.headMsg ch
  let h := c.treg t
  let a := c.bufAddr ch x.headBuf
  if c.readPoison a (16 + n) || (decide (n ≠ 0) && c.writePoison h.addr.toNat n) then
    s.setCore k (c.launch (movOp c m [] 0x0905))
  else
    let w : List RegWrite := [.s u0 (BitVec.ofNat 64 w0), .s u1 (BitVec.ofNat 64 w1)
      , .s meta_ (BitVec.ofNat 64 (n * 2 ^ 16 + hint * 2 ^ 8 + src))] ++
      (if n = 0 then [] else [.t t { h with side := BitVec.ofNat 11 (n - 8192) }])
    let c := c.launch (movOp c m w)
    let c := if n = 0 then c else c.storeBytes h.addr.toNat n (c.store.slice (a + 16) n)
    let c := c.setChan ch { x with held := x.held - 1, headBuf := (x.headBuf + 1) % max 1 x.depth }
    (s.setCore k c).returnCredit k ch

/-- The effect of the move slot (R177 to R185). -/
def State.movIssue (s : State) (k : Nat) (m : Mov) : State :=
  let c := s.core k
  let reg (w : RegWrite) : State := s.setCore k (c.launch (movOp c m [w]))
  match m with
  | .nop => s
  | .sset d imm => reg (.s d imm)
  | .salu d a b f => reg (.s d (scalarFn f (c.sreg a) (c.sreg b)))
  | .sali d a f imm => reg (.s d (scalarFn f (c.sreg a) imm))
  | .sld d an sb imm => s.setCore k (c.load m (c.accessAddr an sb imm 8) 8 fun x => .s d (BitVec.ofNat 64 x))
  | .sst x an sb imm => s.setCore k (c.storeWord m (c.accessAddr an sb imm 8) 8 (c.sreg x).toNat)
  | .vld d an sb imm => s.setCore k (c.load m (c.accessAddr an sb imm 64) 1024 fun x => .v d (BitVec.ofNat 8192 x))
  | .vst x an sb imm => s.setCore k (c.storeWord m (c.accessAddr an sb imm 64) 1024 (c.vreg x).toNat)
  | .pld d imm => reg (.s d (BitVec.ofNat 64 (c.bank.readNat (0x200 + 8 * imm) 8)))
  | .seta d v st w => reg (.a d { value := c.sreg v, stride := c.sreg st, bound := c.sreg w })
  | .geta d an p => reg (.s d ((c.areg an).part p))
  | .setc d v => reg (.c d (c.sreg v))
  | .getc d n => reg (.s d (c.creg n))
  | .rdx d src => reg (.s d (c.rdxValue src))
  | .clrf => s.setCore k { c with flags := 0 }
  | .tdef d an sb fmt side =>
    reg (.t d { addr := BitVec.ofNat 64 (c.accessAddr an sb 0 0), st := 1, fmt := BitVec.ofNat 4 fmt, side := BitVec.ofNat 11 (64 * side) })
  | .tspn d x fmt side => reg (.t d { addr := c.sreg x, st := 2, fmt := BitVec.ofNat 4 fmt, side := BitVec.ofNat 11 (64 * side) })
  | .tcopy d x => s.setCore k (c.tcopy m d x)
  | .tinv t => reg (.t t { c.treg t with st := 0 })
  | .send dst u0 u1 t pay hint => s.sendNow k m dst u0 u1 t pay hint
  | .recv ch u0 u1 meta_ t => s.recvNow k m ch u0 u1 meta_ t

/-- The effect of the vector slot (R188); `vrand` draws from the generators of the lanes it writes and advances them (R275). -/
def State.vecIssue (s : State) (k : Nat) (v : Vec) : State :=
  if v.op = .nop then s
  else
    let c := s.core k
    let d := if v.op = .rand then c.draw s.free k (8192 / laneBits v.w) else []
    let r := c.vecResult v (d.map (·.2))
    let t := s.setCore k ((c.drawn (d.map (·.1))).launch
      { bundle := c.pc, writes := r.1, busy := v.writes, flags := r.2, vec := true })
    let t := if v.op = .rand then t.tick else t
    t.count (s.partOf k) 1 v.occupancy

/-- A bridle is issued: its tiles are read (R232). -/
def ArrayState.addBridle (x : ArrayState) (st : Stationary) (bundle : Nat) (bad : W16) : ArrayState :=
  { x with bridles := x.bridles ++ [{ bundle, stat := st, bad }], latest := some st, issued := x.issued + 1 }

/-- A stream is issued: its tiles are read; the accumulation it belongs to is open until a *last* (R234, R239). -/
def ArrayState.addStream (x : ArrayState) (a : Arr) (bundle : Nat) (tiles : List TileData) (bad : W16) : ArrayState :=
  { x with
    streams := x.streams ++ [{
      bundle, fmt := a.fmt, kind := a.kind, shape := a.shape, first := a.first, last := a.last, rq := a.rq, tiles
      stat := x.latest.getD { fmt := 0, depth := 0, rs := false, tiles := [] }, bridlesBefore := x.issued, bad }]
    acc := if a.last then none
      else if a.first || x.acc.isNone then some (a.fmt, a.kind, a.shape) else x.acc
    tiles := if a.last then x.tiles + 1 else x.tiles }

/-- A drain is issued: it names the oldest tile that no drain names; where there is none it has found 0x090e (R195). -/
def ArrayState.addDrain (x : ArrayState) (d : DrainOp) : ArrayState :=
  { x with drains := x.drains ++ [if x.tiles = 0 then { d with bad := 0x090e } else d], tiles := x.tiles - 1 }

/-- The effect of the array slot (R190 to R195). An operation that meets a status after issue stands in its array's order like any other,
and ends the routine when the array performs it (R194, R196). -/
def Core.arrIssue (c : Core) (a : Arr) : Core :=
  let x := c.array a.arr
  let tiles := a.tiles.map fun i => c.arrayTile (c.treg i)
  let poisoned := a.tiles.any fun i => c.readPoison (c.treg i).addr.toNat (8192 + arraySide (c.treg i).fmt.toNat)
  match a.op with
  | .nop => c
  | .bridle =>
    c.setArray a.arr (x.addBridle { fmt := a.fmt, depth := shapeDepth a.shape, rs := a.rs, tiles } c.pc (poisonStatus poisoned))
  | .stream => c.setArray a.arr (x.addStream a c.pc tiles (poisonStatus poisoned))
  | .drain =>
    c.setArray a.arr (x.addDrain {
      bundle := c.pc, fmt := a.fmt, t := a.t, addr0 := (c.treg a.t).addr.toNat, addr1 := (c.treg (a.t + 1)).addr.toNat
      bad := poisonStatus (a.tiles.any fun i => c.writePoison (c.treg i).addr.toNat 8192) })

/-! ### Control flow (R168, R171 to R176) -/

/-- A taken branch leaves every level whose body does not hold the target, and those inside it (R175). -/
def leaveLoops (target : Nat) : List LoopLevel → List LoopLevel
  | [] => []
  | l :: r => if l.p < target && decide (target ≤ l.p + l.n) then l :: leaveLoops target r else []

/-- The address registers of a mask (R171). -/
def maskRegs (m : W32) : List Nat := (List.range 32).filter fun i => bit m i

/-- The end of a repeat: from the innermost level out, each level whose body ends at the bundle just issued counts down; a level that
goes on applies its auto-increments and returns to its first bundle; the result holds the levels, outermost first (R171). -/
def Core.endBody (c : Core) (p : Nat) : Nat → Core
  | 0 => { c with pc := p + 1 }
  | n + 1 =>
    match c.loops.getLast? with
    | none => { c with pc := p + 1 }
    | some l =>
      if l.p + l.n ≠ p then { c with pc := p + 1 }
      else if l.live = 1 then { c with loops := c.loops.dropLast }.endBody p n
      else
        let c := { c with loops := c.loops.dropLast ++ [{ l with live := l.live - 1 }], pc := l.p + 1 }
        (maskRegs l.mask).foldl Core.autoInc c

/-- The effect of the control slot: the next bundle and the loops (R168, R171). -/
def Core.ctlIssue (c : Core) : Ctl → Core
  | .rep k n sm =>
    if c.creg k = 0 then { c with pc := c.pc + n + 1 }
    else { c with
      loops := c.loops ++ [{ p := c.pc, n, mask := (c.sreg sm).setWidth 32, live := c.creg k }], pc := c.pc + 1 }
  | .br sr cond target =>
    if condHolds cond (c.sreg sr) then { c with loops := leaveLoops target c.loops, pc := target }
    else c.endBody c.pc 4
  | .jmp target => { c with loops := leaveLoops target c.loops, pc := target }
  | _ => c.endBody c.pc 4

/-! ### Issue of a bundle (R158, R159, R186, R196) -/

/-- A pass of the stop bundle is counted (R149, R153). -/
def Core.countPass (c : Core) : Core :=
  if c.stopMarked && decide (c.pc = c.stopBundle) then { c with passes := c.passes + 1 } else c

/-- A core that issues gates no engine (R578). -/
def Core.ungate (c : Core) : Core := { c with gatedA := false, gatedB := false, gatedV := false }

/-- Every slot of a bundle takes effect: the array slot reads the core store, then the vector and move slots, then control flow. -/
def State.issueSlots (s : State) (k : Nat) (b : Bundle) : State :=
  let t := s.modCore k fun c => c.ungate.countPass.arrIssue b.arr
  let t := (t.vecIssue k b.vec).movIssue k b.mov
  (t.modCore k fun c => c.ctlIssue b.ctl).count (s.partOf k) 2 1

/-- A bundle whose registers and engines are ready: it issues, ends the routine, or asks for a credit and waits. -/
def State.issueReady (s : State) (k : Nat) (b : Bundle) : State :=
  let c := s.core k
  let go : State := match s.issueFault k c b with
    | some st => s.endRoutine k st c.pc
    | none => if b.ctl = .swap then s.swapBanks k else s.issueSlots k b
  match b.mov with
  | .send dst _ _ t pay _ =>
    match s.sendFault k c dst t pay with
    | some st => s.endRoutine k st c.pc
    | none =>
      if c.credit.isSome then go
      else if c.request.isSome then s
      else s.setCore k { c with request := some (c.sendDest dst) }
  | _ => go

/-- A core is due to halt instead of issuing: at its stop bundle, or at `swap` in a stop-marked spool (R149). -/
def Core.stopDue (c : Core) : Bool :=
  c.atStop || (c.stopMarked && match c.next with
    | some b => b.ctl == .swap
    | none => false)

/-- A bundle that holds a `rep` and is invalid through the range of its `n` alone (R157, R171): with 1 for `n`, bits 107 to 118, it decodes. -/
def repCountBad (w : Nat) : Bool := fld w 122 6 == 1 && (decodeBundle (w - fld w 107 12 * 2 ^ 107 + 2 ^ 107)).isSome

/-- The status with which a bundle that cannot be decoded ends the routine: 0x0907 (R157). R171 tests the depth of a `rep` before its `n`, so one
that is invalid through `n` alone ends with 0x0908 where four levels are active. -/
def Core.invalidStatus (c : Core) (w : Nat) : Nat := if repCountBad w ∧ c.loops.length = 4 then 0x0908 else 0x0907

/-- The next bundle of a core, if it holds an operation that `has` picks out, issues as a whole (R158). A fetch past the last
bundle ends the routine with 0x0902 (R133), an invalid bundle with 0x0907 (R157). -/
def State.issue (s : State) (k : Nat) (has : Bundle → Bool) : State :=
  let c := s.core k
  if !s.mayIssue k || c.stopDue then s
  else if c.bundles ≤ c.pc then s.endRoutine k 0x0902 c.pc
  else match decodeBundle (c.bundleAt c.pc) with
    | none => s.endRoutine k (c.invalidStatus (c.bundleAt c.pc)) c.pc
    | some b => if has b && c.bundleReady b then s.issueReady k b else s

/-- The next bundle issues if it holds the operation; the core must exist. -/
def issueAt (k : Nat) (has : Bundle → Bool) (s : State) : Res := onUnit (coreOk k) (s.issue k has)

end Sys2Proof.Machine
end

