-- ==== Sys2Proof/Machine/Array.lean ====
section
/-! DEFINITION. The operations of the array slot and what the arrays then do (R190 to R195, R229 to R249). -/

namespace Sys2Proof.Machine

/-- BRIDLE (R232): queue the load of a stationary tile into an array. -/
def execBridle (core : Nat) (s : State) : Res := issueAt core (fun b => b.arr.op == .bridle) s

/-- STREAM (R234): queue a streaming operand through an array into its live set. -/
def execStream (core : Nat) (s : State) : Res := issueAt core (fun b => b.arr.op == .stream) s

/-- DRAIN (R240): queue the writing of the tail set as tiles. -/
def execDrain (core : Nat) (s : State) : Res := issueAt core (fun b => b.arr.op == .drain) s

/-- An event of one array of one core: A is 0, B is 1. -/
def arrayEvent (core arr : Nat) (s : State) (f : ArrayState → Core → Bool → State) : Res :=
  onUnit (coreOk core && decide (arr < 2)) (f ((s.core core).array (arr == 1)) (s.core core) (arr == 1))

/-- Bridles of an array that have completed. -/
def ArrayState.bridled (x : ArrayState) : Nat := x.issued - x.bridles.length

/-- The next stationary is free: it holds nothing, or nothing that an issued stream will take (R237, R248). -/
def ArrayState.nextFree (x : ArrayState) : Bool :=
  x.nextStat.isNone || x.streams.all fun st => st.started || decide (st.bridlesBefore ≠ x.bridled)

/-- BRIDLE_START (R248): the previous bridle of the array has completed, and the next stationary is free. -/
def execBridleStart (core arr : Nat) (s : State) : Res :=
  arrayEvent core arr s fun x c b =>
    match x.bridles with
    | [] => s
    | o :: rest =>
      if o.started || !x.nextFree then s
      else s.setCore core (c.setArray b { x with bridles := { o with started := true } :: rest, begun := x.begun + 1, nextStat := none })

/-- An array operation has been performed: the status it found after issue, if any, ends the routine (R196). -/
def State.arrayDone (s : State) (core bundle : Nat) (bad : W16) : State :=
  (if bad = 0 then s else s.endRoutine core bad.toNat bundle).settleCore core

/-- BRIDLE_COMPLETE (R232, R248): the next stationary holds the bridle's values, unless a stream has taken them as they came. -/
def execBridleComplete (core arr : Nat) (s : State) : Res :=
  arrayEvent core arr s fun x c b =>
    match x.bridles with
    | [] => s
    | o :: rest =>
      if o.started then
        let n := x.bridled + 1
        ((s.setCore core (c.setArray b { x with
            bridles := rest, nextStat := if n ≤ x.taken then none else some o.stat })).count (s.partOf core) 0 64).arrayDone core o.bundle o.bad
      else s

/-- The stationary a stream uses becomes the live one, if it is not already (R236). -/
def ArrayState.takeStationary (x : ArrayState) (st : StreamOp) : ArrayState :=
  if st.bridlesBefore ≤ x.taken then x
  else { x with
    liveStat := some st.stat, taken := st.bridlesBefore
    nextStat := if x.bridled = st.bridlesBefore then none else x.nextStat }

/-- STREAM_START (R236, R248): the previous stream has completed, and the bridle whose stationary it uses has started. -/
def execStreamStart (core arr : Nat) (s : State) : Res :=
  arrayEvent core arr s fun x c b =>
    match x.streams with
    | [] => s
    | st :: rest =>
      if st.started || decide (x.begun < st.bridlesBefore) then s
      else s.setCore core (c.setArray b { x.takeStationary st with streams := { st with started := true } :: rest })

/-- STREAM_COMPLETE (R248, R249): the operand has been read; the products move on to the live set. -/
def execStreamComplete (core arr : Nat) (s : State) : Res :=
  arrayEvent core arr s fun x c b =>
    match x.streams with
    | [] => s
    | st :: rest =>
      if st.started then
        ((s.setCore core (c.setArray b { x with streams := rest, landing := x.landing ++ [st] })).count (s.partOf core) 0
          (st.vectors * pairSteps st.fmt)).arrayDone core st.bundle st.bad
      else s

/-- PRODUCTS_LANDED (R195, R242, R248): a stream's products are in the live set. A *last* waits while the tail set holds a tile that
a drain names, and ends the routine with 0x090d where no drain names it. -/
def execProductsLanded (core arr : Nat) (s : State) : Res :=
  arrayEvent core arr s fun x c b =>
    match x.landing with
    | [] => s
    | st :: rest =>
      if st.last && x.tailFull then
        if x.drains.all fun d => d.bad = 0x090e then
          ((s.setCore core (c.setArray b { x with landing := rest })).endRoutine core 0x090d st.bundle).settleCore core
        else s
      else (s.setCore core (c.setArray b (x.landNow st rest))).settleCore core

/-- DRAIN_COMPLETE (R192, R240, R248): the oldest drain has written the tail set's tile; one that found a status writes nothing, and one that
found no tile waits for none (R195, R196). -/
def execDrainComplete (core arr : Nat) (s : State) : Res :=
  arrayEvent core arr s fun x c b =>
    match x.drains with
    | [] => s
    | d :: rest =>
      if d.bad = 0x090e then (s.setCore core (c.setArray b { x with drains := rest })).arrayDone core d.bundle d.bad
      else if x.tailFull then
        (s.setCore core (if d.bad = 0 then c.drainNow b d rest else c.freeTail b rest)).arrayDone core d.bundle d.bad
      else s

end Sys2Proof.Machine
end

