-- ==== Sys2Proof/Machine/Control.lean ====
section
/-! DEFINITION. The operations of the control slot: the next bundle issues if it holds the operation (R167 to R176). -/

namespace Sys2Proof.Machine

/-- NOP (R156): a slot that holds `nop` does nothing; the bundle issues. -/
def execNop (core : Nat) (s : State) : Res := issueAt core (fun b => b.ctl == .nop || b.mov == .nop || b.vec.op == .nop || b.arr.op == .nop) s

/-- REP (R171): enter a hardware loop, its live count and mask copied. -/
def execRep (core : Nat) (s : State) : Res := issueAt core (fun b => match b.ctl with | .rep .. => true | _ => false) s

/-- BR (R168): branch on a signed condition of a scalar register. -/
def execBr (core : Nat) (s : State) : Res := issueAt core (fun b => match b.ctl with | .br .. => true | _ => false) s

/-- JMP (R168): branch always. -/
def execJmp (core : Nat) (s : State) : Res := issueAt core (fun b => match b.ctl with | .jmp _ => true | _ => false) s

/-- WAIT (R169): issues once a handle, an array or all earlier work is done. -/
def execWait (core : Nat) (s : State) : Res := issueAt core (fun b => match b.ctl with | .wait .. => true | _ => false) s

/-- SWAP_BUNDLE (R130, R170): once earlier work is complete, change banks as the inactive bank's state gives. -/
def execSwapBundle (core : Nat) (s : State) : Res := issueAt core (fun b => b.ctl == .swap) s

end Sys2Proof.Machine
end

