-- ==== Sys2Proof/Machine/Sequence.lean ====
section
/-! DEFINITION. Opening, closing and freeing sequences (R328 to R338, R360). -/

namespace Sys2Proof.Machine

/-- The partition, slot number and identifier of a sequence command (R332). -/
def seqPart (c : BitVec 512) : Nat := cmdField c 0x1c 1
def seqNo (c : BitVec 512) : Nat := cmdField c 0x1e 2
def seqIdent (c : BitVec 512) : Nat := cmdField c 0x18 4

/-- The slot a SEQ_OPEN asks for (R329, R332). -/
def newSeq (c : BitVec 512) : SeqSlot :=
  { ident := BitVec.ofNat 32 (seqIdent c), st := .opened, latent := BitVec.ofNat 8 (cmdField c 0x1d 1)
    width := BitVec.ofNat 16 (cmdField c 0x20 2), layers := BitVec.ofNat 16 (cmdField c 0x22 2)
    pages := BitVec.ofNat 16 (cmdField c 0x24 2), gondola := BitVec.ofNat 16 (cmdField c 0x26 2)
    env := BitVec.ofNat 16 (cmdField c 0x28 2), table := BitVec.ofNat 64 (cmdField c 0x10 8)
    limit := BitVec.ofNat 32 (cmdField c 0x2c 4), part := seqPart c }

/-- The fields of a SEQ_OPEN are in range (R329, R332). -/
def seqFieldsOk (c : BitVec 512) : Bool :=
  let x := newSeq c
  let r := x.width.toNat
  x.ident != 0 && decide (x.latent.toNat ≤ 1)
    && decide (128 ≤ r) && decide (r ≤ 1024) && r % 128 == 0
    && decide (1 ≤ x.layers.toNat) && decide (x.layers.toNat ≤ 512) && decide (1 ≤ x.pages.toNat) && decide (x.pages.toNat ≤ 4096)
    && (x.gondola == 0xffff || decide (x.gondola.toNat < 16384)) && decide (x.env.toNat < 16384)
    && x.table.toNat % 8192 == 0 && decide (x.table.toNat < 2 ^ 52)
    && decide (1 ≤ x.limit.toNat) && decide (x.limit.toNat ≤ 256 * x.pages.toNat)
    && cmdZero c 0x2a 2 && cmdZero c 0x30 16

/-- A partition owns the extent of a slot, under an envelope index. -/
def State.ownsSlot (s : State) (part slot env : Nat) : Bool :=
  match s.slotRef part slot with
  | none => false
  | some r => !r.ro && decide (r.ext.env.toNat = env)

/-- The tile slots of a sequence's page table. -/
def SeqSlot.tableRange (x : SeqSlot) : List Nat :=
  (List.range (tableSlots x.pages.toNat x.layers.toNat)).map fun i => x.table.toNat / 8192 + i

/-- A page that an entry names is not 0, lies in an owned `latent` extent under the sequence's envelope, and does not cross an
extent boundary (R333, R336). -/
def State.pageOk (s : State) (x : SeqSlot) (page : Nat) : Bool :=
  page != 0 && page % 8192 == 0 && s.ownsSlot x.part (page / 8192) x.env.toNat
    && (match s.slotRef x.part (page / 8192) with
      | some r => r.ext.mode == 2
      | none => false)
    && decide (extentOf page = extentOf (page + 8192 * 4 * x.quarterTiles - 1))

/-- The entries in use of a page table: entry(l, i) for every layer and for the pages that the token limit needs (R333, R338). -/
def SeqSlot.entriesInUse (x : SeqSlot) : List Nat :=
  (List.range x.layers.toNat).flatMap fun l => (List.range (ceilDiv x.limit.toNat 256)).map fun i => x.pages.toNat * l + i

/-- The page table and every page in use are as R333 asks. -/
def State.pagesOk (s : State) (x : SeqSlot) : Bool :=
  x.tableRange.all (fun i => s.ownsSlot x.part i x.env.toNat) &&
    (let table := s.spanRead x.part x.table.toNat (8 * x.pages.toNat * x.layers.toNat)
     x.entriesInUse.all fun e => s.pageOk x (table.readNat (8 * e) 8))

/-- Two envelope indices name one envelope: the same index, or the same key (R312, R360). -/
def State.sameEnv (s : State) (p i q j : Nat) : Bool :=
  if p = q ∧ i = j then true
  else match SMap.get none s.sec.envs (envKey p i), SMap.get none s.sec.envs (envKey q j) with
    | some a, some b => a.key == b.key
    | _, _ => false

/-- The status with which a gondola refuses a sequence (R360). -/
def State.admission (s : State) (x : SeqSlot) : List (Bool × Nat) :=
  if x.gondola = 0xffff then []
  else
    let d := s.gondola x.gondola.toNat
    [(decide (d.st ≠ .moored), 0x0502), (decide (d.holder ≠ x.part) || !s.sameEnv x.part x.env.toNat d.holder d.env.toNat, 0x0503)]

/-- A counter of a descriptor moves on by `n`, sticking (R353). -/
def Gondola.progressBy (d : Gondola) (kind n : Nat) : Gondola :=
  if d.termKind.toNat = kind then { d with progress := stickAdd d.progress n } else d

/-- A sequence takes its slot and, if it names a gondola, references its current version (R354, R359, R360). -/
def State.enrol (s : State) (slot : Nat) (x : SeqSlot) : State :=
  if x.gondola = 0xffff then s.setSeq slot x
  else
    let d := s.gondola x.gondola.toNat
    (s.setSeq slot { x with version := d.version }).setGondola x.gondola.toNat ({ d with refs := d.refs + 1 }.progressBy 1 1)

/-- SEQ_OPEN (R318, R332, R333, R360). -/
def execSeqOpen (cmd : ReadCmd) (s : State) : Res :=
  hostCommand cmd.ring 0x38 s fun ref c s =>
    let x := newSeq c
    let slot := seqNo c
    let bytes := 8 * x.pages.toNat * x.layers.toNat
    let first := s.partChecks x.part (slotOk slot) 0x0914 ++ [
      (decide ((s.seq slot).st ≠ .free), 0x0913),
      (!seqFieldsOk c || decide (s.partOf (slot / 6) ≠ some x.part), 0x0914)]
    let s := s.afterChecks first fun s => s.meetCodewords x.part x.table.toNat bytes cmd.errs
    s.checkedRead ref x.part x.table.toNat bytes (first ++ [
      (!(s.poisonedIn x.part x.table.toNat bytes).isEmpty, 0x0318),
      (!s.pagesOk x, 0x0915)] ++ s.admission x)
      fun s => ((s.countReads x.part x.table.toNat bytes).enrol slot x).complete ref 0

/-- SEQ_CLOSE (R335): an open sequence becomes ending; the completion waits for the slot to be free. -/
def execSeqClose (o : RingId) (s : State) : Res :=
  hostCommand o 0x39 s fun ref c s =>
    let slot := seqNo c
    let x := s.seq slot
    let fieldsOk := slotOk slot && seqIdent c != 0 && cmdZero c 0x10 8 && cmdZero c 0x1d 1 && cmdZero c 0x20 32
    s.checked ref (s.partChecks (seqPart c) fieldsOk 0x0914 ++ [
      (decide (x.st = .free) || decide (x.ident.toNat ≠ seqIdent c) || decide (x.part ≠ seqPart c), 0x0916)])
      fun s =>
        let t := s.setSeq slot { x with closers := x.closers ++ [ref], closed := x.closed || decide (x.st = .opened) }
        t.endSeq slot 0

/-- SEQUENCE_SCRUB_COMPLETE (R330, R335): the slot becomes free and its completion is posted. -/
def execSequenceScrubComplete (slot : Nat) (s : State) : Res :=
  onUnit (slotOk slot) (if (s.seq slot).st = .scrubbing then s.freeSeq slot else s)

end Sys2Proof.Machine
end

