-- ==== Sys2Proof/Machine/Span.lean ====
section
/-! DEFINITION. The span commands, the accesses of cores to the span, migration, patrol and channels (R282 to R327). -/

namespace Sys2Proof.Machine

/-! ### Command fields (R323) -/

/-- The address, count and partition of a span command. -/
def spnAddr (c : BitVec 512) : Nat := cmdField c 0x10 8
def spnCount (c : BitVec 512) : Nat := cmdField c 0x18 4
def spnPart (c : BitVec 512) : Nat := cmdField c 0x1c 1

/-- The range is as R323 gives: aligned to `unit` bytes, 1 to `most` units, within the span. -/
def spnRangeOk (c : BitVec 512) (unit most : Nat) : Bool :=
  spnAddr c % unit == 0 && decide (1 ≤ spnCount c) && decide (spnCount c ≤ most) && decide (spnAddr c + unit * spnCount c ≤ 2 ^ 52)

/-- The mode and trim bytes are as R323 gives. -/
def spnModeOk (c : BitVec 512) : Bool :=
  let m := cmdField c 0x1d 1
  let n := cmdField c 0x1e 1
  decide (m < 8) && m % 4 != 3 && (if m % 4 = 1 then decide (1 ≤ n) && decide (n ≤ 51) else n == 0)

/-- The fields that only some span commands use, from mode on: mode and trim, hint, MAP's own, core, reserved bytes. -/
def spnUnused (c : BitVec 512) (mode hint map core : Bool) : Bool :=
  (mode || cmdZero c 0x1d 2) && (hint || cmdZero c 0x1f 1) && (map || cmdZero c 0x20 4) && (core || cmdZero c 0x24 2) && cmdZero c 0x26 26

/-- The extents of a range, and the tile slots of a range. -/
def spnExts (c : BitVec 512) : List Nat := (List.range (spnCount c)).map fun i => spnAddr c / 2 ^ 21 + i
def spnLo (c : BitVec 512) : Nat := spnAddr c / 8192
def spnHi (c : BitVec 512) : Nat := spnAddr c / 8192 + spnCount c

/-- The extents that hold the tile slots of a range. -/
def tileExts (c : BitVec 512) : List Nat :=
  (List.range ((spnHi c - 1) / 256 - spnLo c / 256 + 1)).map fun i => spnLo c / 256 + i

/-- Some extent of a list is not mapped; some is mapped read-only. -/
def State.anyUnmapped (s : State) (part : Nat) (l : List Nat) : Bool := l.any fun e => (s.extent part e).isNone
def State.anyRo (s : State) (part : Nat) (l : List Nat) : Bool :=
  l.any fun e => match s.extent part e with
    | some x => x.ro
    | none => false

/-- Some extent of a list that the partition owns is mapped read-only elsewhere (R294). -/
def State.anyShared (s : State) (part : Nat) (l : List Nat) : Bool :=
  l.any fun e => match s.extent part e with
    | some x => !x.ro && s.sharedRo part e
    | none => false

/-- Bytes a partition's shares hold (R293). -/
def State.shareBytes (s : State) (part : Nat) : Nat := (s.part part).hbm.toNat * hbmUnit + (s.part part).ballast.toNat * ballastUnit

/-- A command waits for a job; a job with nothing to wait for completes at once. -/
def State.addJob (s : State) (j : SpanJob) (done : Bool) : State :=
  if done then s.completeOpt j.ref 0 else { s with spn := { s.spn with jobs := s.spn.jobs ++ [j] } }

/-! ### MAP and UNMAP (R293 to R295, R298, R324) -/

/-- The mapping a MAP makes. -/
def mapExtent (c : BitVec 512) : Extent :=
  let m := cmdField c 0x1d 1
  if cmdField c 0x22 1 = 1 then { owner := cmdField c 0x23 1, ro := true }
  else { owner := spnPart c, mode := BitVec.ofNat 2 m, isSealed := decide (4 ≤ m), trim := BitVec.ofNat 8 (cmdField c 0x1e 1)
         hint := BitVec.ofNat 8 (cmdField c 0x1f 1), env := BitVec.ofNat 16 (cmdField c 0x20 2) }

/-- The fields of MAP are in range; a read-only MAP takes mode, trim, hint and envelope from the owner (R323). -/
def mapFieldsOk (c : BitVec 512) : Bool :=
  spnRangeOk c (2 ^ 21) 65536 && cmdZero c 0x24 28 &&
    (if cmdField c 0x22 1 = 1 then cmdZero c 0x1d 5 && partOk (cmdField c 0x23 1)
     else cmdField c 0x22 1 == 0 && spnModeOk c && decide (cmdField c 0x1f 1 ≤ 2) && cmdField c 0x23 1 == 0)

/-- The owner partition of a read-only MAP owns every extent named (R294). -/
def State.ownsAll (s : State) (owner : Nat) (l : List Nat) : Bool :=
  l.all fun e => match s.extent owner e with
    | some x => !x.ro
    | none => false

/-- MAP (R293 to R295, R298, R323): the mappings are visible at once. -/
def execMap (o : RingId) (s : State) : Res :=
  hostCommand o 0x30 s fun ref c s =>
    let n := spnPart c
    let ro := decide (cmdField c 0x22 1 = 1)
    let exts := spnExts c
    s.checked ref (s.partChecks n (mapFieldsOk c) 0x0316 ++ [
      (!s.envHeld n (cmdField c 0x20 2), 0x0316),
      (exts.any fun e => (s.extent n e).isSome, 0x0310),
      (!ro && decide (s.shareBytes n < ((s.ownExtents n).length + exts.length) * extentBytes), 0x0311),
      (decide (s.extFree < exts.length), 0x0312),
      (ro && !s.ownsAll (cmdField c 0x23 1) exts, 0x0313),
      (ro && s.shareBars (cmdField c 0x23 1) n, 0x061b),
      (cmdField c 0x1f 1 == 2 && decide (keepWarmLimit (s.part n).hbm.toNat < (s.keepWarmTiles n + 256 * exts.length) * 9216), 0x0314)])
      fun s => (exts.foldl (fun s e => s.setExtent n e (some (mapExtent c))) s).complete ref 0

/-- Scrub the tiles of an extent that the partition owns, and remove its mapping (R294, R322). -/
def State.unmapOne (s : State) (part ext : Nat) : State :=
  let t := match s.extent part ext with
    | some x => if x.ro then s else s.scrubRange part (256 * ext) (256 * ext + 256)
    | none => s
  t.setExtent part ext none

/-- UNMAP (R294, R322, R324): accesses that come later fail; the command completes when the scrubbing of owned extents ends. -/
def execUnmap (o : RingId) (s : State) : Res :=
  hostCommand o 0x31 s fun ref c s =>
    let n := spnPart c
    let exts := spnExts c
    s.checked ref (s.partChecks n (spnRangeOk c (2 ^ 21) 65536 && spnUnused c false false false false) 0x0316 ++ [
      (s.anyUnmapped n exts, 0x0313), (s.anyShared n exts, 0x0317)])
      fun s =>
        let owned := exts.any fun e => match s.extent n e with
          | some x => !x.ro
          | none => false
        (exts.foldl (fun s e => s.unmapOne n e) s).addJob
          { kind := .unmap, ref := some ref, part := n, lo := spnLo c, hi := spnLo c + 256 * exts.length } (!owned)

/-! ### MODE, HINT, SCRUB, REHOME (R296, R298, R310, R316, R322) -/

/-- Store a tile anew as a sealed extent does: unfolded, 18 units, its values kept; a tile of tier 1 is written again, which abandons its
migration (R301, R309, R310). -/
def State.sealTile (s : State) (part slot : Nat) : State :=
  let t := s.tile part slot
  if t.fresh then s
  else
    let u := { t with isSealed := true, units := 18, isFolded := false, crc := crc64 (tileStream true none t.data).1, raw := none }
    let v := (s.countTier part t).countTier part u
    if t.tier2 then v.setTile part slot u else (v.restTile part slot u).applyHint part slot

/-- Change an extent's mode and sealing; setting sealed stores every tile of it anew (R310), and what waited for one to rest completes (R324). -/
def State.setMode (s : State) (part ext m n : Nat) : State :=
  match s.extent part ext with
  | none => s
  | some x =>
    let t := s.setExtent part ext
      (some { x with mode := BitVec.ofNat 2 m, isSealed := decide (4 ≤ m), trim := BitVec.ofNat 8 n })
    if decide (4 ≤ m) && !x.isSealed then
      (((s.tilesOf part).filter fun e => decide (e.1 / 256 = ext)).foldl (fun t e => t.sealTile part e.1) t).settleJobs
    else t

/-- The slots of written tiles of a list of extents. -/
def State.writtenSlots (s : State) (part : Nat) (exts : List Nat) : List Nat :=
  ((s.tilesOf part).filter fun e => exts.contains (e.1 / 256) && !e.2.fresh).map (·.1)

/-- The poisoned slots of a list of extents. -/
def State.poisonedSlots (s : State) (part : Nat) (exts : List Nat) : List Nat :=
  ((s.tilesOf part).filter fun e => exts.contains (e.1 / 256) && e.2.poisoned).map (·.1)

/-- MODE (R310): setting sealed reads every tile that it stores anew (R318). -/
def execMode (cmd : ReadCmd) (s : State) : Res :=
  hostCommand cmd.ring 0x32 s fun ref c s =>
    let n := spnPart c
    let m := cmdField c 0x1d 1
    let exts := spnExts c
    let sealing := exts.filter fun e => decide (4 ≤ m) && (match s.extent n e with
      | some x => !x.isSealed
      | none => false)
    let checks := s.partChecks n (spnRangeOk c (2 ^ 21) 65536 && spnModeOk c && spnUnused c true false false false) 0x0316 ++ [
      (s.anyUnmapped n exts, 0x0313), (s.anyRo n exts, 0x0319), (s.anyShared n exts, 0x0317)]
    let s := s.afterChecks checks fun s => s.meetSlots n (s.writtenSlots n sealing) cmd.errs
    s.meeting ref n (s.poisonedSlots n sealing) checks
      fun s => (exts.foldl (fun s e => s.setMode n e m (cmdField c 0x1e 1)) s).complete ref 0

/-- The tile slots of a range. -/
def tileSlots (c : BitVec 512) : List Nat := (List.range (spnCount c)).map fun i => spnLo c + i

/-- A tile has a near place of a core, or is to take one once its migration finishes (R298, R301). -/
def Tile.boundFor (t : Tile) (core : Nat) : Bool :=
  t.nearCore.any (fun p => decide (p.1 = core)) || t.nextHint.any fun h => decide (h = (3, core))

/-- The near core of a keep-near HINT belongs to the partition and has a free place for each tile that has none there already (R298). -/
def State.nearFits (s : State) (part core : Nat) (slots : List Nat) : Bool :=
  (s.coresIn part).contains core && decide (
    (slots.filter fun x => !(s.tile part x).boundFor core).length
      ≤ s.nearPlaces part - (s.spn.tiles.filter fun e => e.2.boundFor core).length)

/-- The keep-warm tiles of a partition once a run of slots has a hint. -/
def State.warmAfter (s : State) (part hint : Nat) (slots : List Nat) : Nat :=
  (slots.foldl (fun s x => s.setTile part x { s.tile part x with hint := some (BitVec.ofNat 8 hint), nextHint := none }) s).keepWarmTiles part

/-- The tiles of a run of slots that a keep-near HINT reads at once: those at rest that the core does not hold (R301). -/
def State.nearReads (s : State) (part core : Nat) (slots : List Nat) : List Nat :=
  slots.filter fun x => (s.tile part x).moving.isNone && !(s.tile part x).boundFor core

/-- HINT (R296, R298, R301, R318): it completes when every named tile rests where its hint places it. -/
def execHint (cmd : ReadCmd) (s : State) : Res :=
  hostCommand cmd.ring 0x33 s fun ref c s =>
    let n := spnPart c
    let h := cmdField c 0x1f 1
    let core := cmdField c 0x24 2
    let fieldsOk := spnRangeOk c 8192 16777216 && decide (h ≤ 3) && spnUnused c false true false (h == 3)
    let checks := s.partChecks n fieldsOk 0x0316 ++ [
      (s.anyUnmapped n (tileExts c), 0x0313), (s.anyRo n (tileExts c), 0x0319),
      (h == 3 && !s.nearFits n core (tileSlots c), 0x0315),
      (h == 2 && decide (keepWarmLimit (s.part n).hbm.toNat < s.warmAfter n h (tileSlots c) * 9216), 0x0314)]
    let s := if h = 3 then s.afterChecks checks fun s => s.meetSlots n (s.nearReads n core (tileSlots c)) cmd.errs else s
    s.meeting ref n (if h = 3 then (tileSlots c).filter fun x => (s.tile n x).poisoned else []) checks
      fun s =>
        let t := (tileSlots c).foldl (fun s x => s.hintTile n h core x) s
        let j : SpanJob := { kind := .hint, ref := some ref, part := n, lo := spnLo c, hi := spnHi c }
        t.addJob j (t.jobSettled j)

/-- SCRUB (R322, R324): later accesses see zeros; the command completes when the scrubbing ends. -/
def execScrub (o : RingId) (s : State) : Res :=
  hostCommand o 0x34 s fun ref c s =>
    let n := spnPart c
    s.checked ref (s.partChecks n (spnRangeOk c 8192 16777216 && spnUnused c false false false false) 0x0316 ++ [
      (s.anyUnmapped n (tileExts c), 0x0313), (s.anyRo n (tileExts c), 0x0319)])
      fun s => (s.scrubRange n (spnLo c) (spnHi c)).addJob
        { kind := .scrub, ref := some ref, part := n, lo := spnLo c, hi := spnHi c } false

/-- REHOME (R316): every written tile of the extents moves; accesses go on. -/
def execRehome (o : RingId) (s : State) : Res :=
  hostCommand o 0x35 s fun ref c s =>
    let n := spnPart c
    let exts := spnExts c
    s.meeting ref n (s.poisonedSlots n exts) (s.partChecks n (spnRangeOk c (2 ^ 21) 65536 && spnUnused c false false false false) 0x0316 ++ [
      (s.anyUnmapped n exts, 0x0313), (s.anyRo n exts, 0x0319)])
      fun s =>
        let j : SpanJob := { kind := .rehome, ref := some ref, part := n, lo := spnLo c, hi := spnLo c + 256 * exts.length }
        let t := ((s.tilesOf n).filter fun e => decide (j.lo ≤ e.1) && decide (e.1 < j.hi) && !e.2.fresh && e.2.moving.isNone).foldl
          (fun t e => t.setTile n e.1 { t.tile n e.1 with moving := some e.2.tier2 }) s
        t.addJob j (t.jobSettled j)

/-! ### Accesses of cores (R183, R184, R289, R300) -/

/-- The span address of an access that the span controller has not served. -/
def InFlight.spanAddr (o : InFlight) : Option W64 :=
  if o.ready then none
  else match o.span with
    | .none => none
    | .read a _ _ => some a
    | .write a _ _ => some a

/-- Operation `k` of a core if it is an access that waits for the span controller and no earlier one of this core names its slot
(R300). -/
def Core.spanDue (c : Core) (k : Nat) : Option InFlight :=
  match c.ops[k]? with
  | none => none
  | some o => match o.spanAddr with
    | none => none
    | some a => if (c.ops.take k).any fun x => decide (x.spanAddr = some a) then none else some o

/-- Operation `k` of a core replaced. -/
def State.setOp (s : State) (core k : Nat) (o : InFlight) : State :=
  s.modCore core fun c => { c with ops := listSet c.ops k o }

/-- Operation `k` of a core is served and will end the routine with a status, if one is given. -/
def State.served (s : State) (core k : Nat) (o : InFlight) (st : W16) : State :=
  s.setOp core k { o with ready := true, status := if o.status = 0 then st else o.status }

/-- What becomes of a core's write to a slot: a status, or none where the slot takes it (R183, R294, R383, R454). -/
def State.writeStatus (s : State) (part : Nat) (addr : W64) : W16 × Option (SlotRef × SlotKind) :=
  match s.addrRef part addr with
  | none => (0x090b, none)
  | some r =>
    if r.ro then (0x0911, none)
    else match s.slotKind r.owner (addr.toNat / 8192) with
      | .reelHeader => (0x0918, none)
      | .ctxRecord => (0x0919, none)
      | x => (0, some (r, x))

/-- A whole-slot write by a core of a partition to a slot that its owner maps; the traffic is counted. -/
def State.coreWrite (s : State) (part : Nat) (r : SlotRef) (slot : Nat) (d : TileData) : State :=
  let t := s.writeTile r.owner slot r.ext d
  t.countTier part (t.tile r.owner slot)

/-- SPAN_WRITE_ACCEPT (R184, R300): the span controller accepts write `k` of a core, which takes effect for every accessor. Writes to
ports and to a step-done slot have rows of their own. -/
def execSpanWriteAccept (core k : Nat) (s : State) : Res :=
  onUnit (coreOk core) (
    match (s.core core).spanDue k, s.partOf core with
    | some o, some part => match o.span with
      | .write a d _ => match s.writeStatus part a with
        | (_, some (r, .plain)) =>
          (s.coreWrite part r (a.toNat / 8192) d).served core k { o with span := .write a d true } 0
        | (_, some _) => s
        | (st, none) => s.served core k o st
      | _ => s
    | _, _ => s)

/-- The bytes a read brings: payload, and `n` bytes of side data, those beyond the stored length 0 (R285). -/
def TileData.bytesFor (d : TileData) (n : Nat) : Mem := d.payload ++ (d.side.slice 0 (min n d.sideLen)).map fun e => (e.1 + 8192, e.2)

/-- A core's read of a slot that its partition maps comes back: the copy lands in the core store, or the read met poison (R285, R319). -/
def State.readBack (s : State) (core k part : Nat) (o : InFlight) (r : SlotRef) (slot dst n : Nat) : State :=
  let t := s.tile r.owner slot
  let port := s.isPort r.owner slot
  if t.poisoned && !port then (s.poisonRead part slot).served core k o 0x090c
  else if (s.nearPoison t && !port) || (s.core core).writePoison dst (8192 + n) then s.served core k o 0x0905
  else
    let d := s.readTile r.owner slot
    let u := (s.countTier part t).countRead part r slot
    (u.modCore core fun c => c.storeBytes dst (8192 + n) (d.bytesFor n)).served core k o 0

/-- SPAN_READ_COMPLETE (R283, R285, R289, R318, R319): read `k` of a core comes back from where its tile rests; `cw` is what the codewords
of its tier gave. -/
def execSpanReadComplete (core k : Nat) (cw : CodeErrs) (s : State) : Res :=
  onUnit (coreOk core) (
    match (s.core core).spanDue k, s.partOf core with
    | some o, some part => match o.span with
      | .read a dst n => match s.addrRef part a with
        | none => s.served core k o 0x090b
        | some r =>
          let slot := a.toNat / 8192
          let t := if (s.tile r.owner slot).nearCore.isSome then s else s.codewords r.owner slot cw
          t.readBack core k part o r slot dst n
      | _ => s
    | _, _ => s)

/-! ### Migration (R296, R297, R301) -/

/-- MIGRATION_COMPLETE (R301, R313, R316, R318): the tile rests where it moved to, at a location chosen afresh, and a hint that waited for it
applies; `cw` is what its codewords gave while it moved. -/
def execMigrationComplete (part slot : Nat) (cw : CodeErrs) (s : State) : Res :=
  onUnit (partOk part) (
    match (s.tile part slot).moving with
    | none => s
    | some t2 =>
      let s := s.codewords part slot cw
      let t := s.tile part slot
      let u := { t with tier2 := t2, moving := none, savedMark := t.savedMark && t2, placed := t.placed + 1 }
      let v := (s.countTier part { t with nearCore := none }).countTier part { u with nearCore := none }
      (((v.setTile part slot u).applyHint part slot).promoteWarm part slot).settleJobs)

/-- LET_SINK_TIMEOUT (R296): a let-sink tile of tier 1 has not been read for 100 ms and starts to move to tier 2; a partition with a
ballast share of 0 sinks none (R297). -/
def execLetSinkTimeout (part slot : Nat) (s : State) : Res :=
  onUnit (partOk part) (
    let t := s.tile part slot
    if !t.fresh && decide (s.hintOf part slot t = 1) && !t.tier2 && t.moving.isNone && (s.part part).ballast != 0 then
      s.setTile part slot { t with moving := some true }
    else s)

/-- USE_COUNT_HALVING (R296): after 65,536 tile reads by a partition its use counts are halved. -/
def execUseCountHalving (part : Nat) (s : State) : Res :=
  onUnit (partOk part) (
    if 65536 ≤ (s.part part).reads then
      let t := (s.tilesOf part).foldl (fun t e => t.setTile part e.1 { e.2 with uses := e.2.uses / 2 }) s
      t.modPart part fun p => { p with reads := p.reads - 65536 }
    else s)

/-! ### Patrol and channels (R314, R315, R321) -/

/-- PATROL (R321): a pass begins or ends, or meets a codeword that is corrected or that poisons its tile. -/
def execPatrol (ev : PatrolEvent) (s : State) : Res :=
  .next (if !s.spn.ready then s
  else match ev with
    | .passStart => { s with spn := { s.spn with patrol := true } }
    | .passEnd => { s with spn := { s.spn with patrol := false } }
    | .corrected tier2 => if s.spn.patrol then s.corrected tier2 1 else s
    | .tile part slot errs =>
      if s.spn.patrol && partOk part then
        let t := s.codewords part slot errs
        if (t.tile part slot).poisoned && !(s.tile part slot).poisoned then t.spnEvent 1 { status := 0x0322, words := [8192 * slot] } else t
      else s
    | .uncorrectableUnmapped => if s.spn.patrol then s.spnEvent 1 { status := 0x0322 } else s)

/-- IMBALANCE_RAISE (R315). -/
def execImbalanceRaise (stack : Nat) (single : Bool) (s : State) : Res :=
  onUnit (decide (stack < 12)) (
    if s.spn.ready && !s.spn.imbal then
      ({ s with spn := { s.spn with imbal := true, imbSingle := single, imbStack := BitVec.ofNat 4 stack } }).spnEvent 2
        { status := 0x0321, words := [stack] }
    else s)

/-- IMBALANCE_CLEAR (R315). -/
def execImbalanceClear (s : State) : Res :=
  .next (if s.spn.imbal then { s with spn := { s.spn with imbal := false, imbSingle := false, imbStack := 0 } } else s)

/-- STACK_THROTTLE (R314, R325): a stack begins to lower its rate; the manual lists no status for this event. -/
def execStackThrottle (stack : Nat) (s : State) : Res :=
  onUnit (decide (stack < 12)) (
    if s.su.rails && !s.spn.throttled.contains stack then
      ({ s with spn := { s.spn with throttled := stack :: s.spn.throttled } }).spnEvent 3
        { status := unlistedCode 2, words := [stack] }
    else s)

/-- STACK_THROTTLE_END (R314): SPN_STATUS.THROTTLE clears with the last stack that throttles. -/
def execStackThrottleEnd (stack : Nat) (s : State) : Res :=
  onUnit (decide (stack < 12)) { s with spn := { s.spn with throttled := s.spn.throttled.filter (· ≠ stack) } }

end Sys2Proof.Machine
end

