-- ==== Sys2Proof/Machine/TrainOps.lean ====
section
/-! DEFINITION. The training context: its record, the norm gate, the commit, and what a boundary and an ABORT do to it
(R432, R446, R450 to R458, R462, R481). -/

namespace Sys2Proof.Machine

/-! ### Geometry and record (R432, R454) -/

/-- The bits of a counter that a state name has in the record (R454). -/
def CtxState.code : CtxState → Nat
  | .reducing => 0
  | .updating => 1
  | .applying => 2
  | .copying => 3
  | .voting => 4
  | .interrupted => 5
  | .faulted => 6
  | .winching => 7

/-- Tiles per state block, T (R434). -/
def Geometry.t (g : Geometry) : Nat := if g.compact then 2 else 3

/-- State tiles per bank, B · T, and the slots of a region (R432). -/
def Geometry.bank (g : Geometry) : Nat := g.blocks.toNat * g.t
def Geometry.slots (g : Geometry) : Nat := 2 + 2 * g.bank + 2 * g.errTiles.toNat

/-- Passes of a step (R446). -/
def Ctx.passes (x : Ctx) : Nat := if x.twoPass then 2 else 1

/-- A geometry that needs two passes: the landing capacity is below D (R446). -/
def Geometry.twoPass (g : Geometry) : Bool := decide (g.landSlots.toNat < g.landed.toNat)

/-- The context record's payload (R454). -/
def Ctx.record (x : Ctx) : Mem :=
  Mem.ofList (bytesLE x.version.toNat 4 ++ bytesLE x.linkStep.toNat 4 ++ bytesLE x.st.code 1 ++ bytesLE x.passes 1 ++ [x.verdict]
    ++ bytesLE ((if x.tandemK then 1 else 0) + (if x.tandemK1 then 2 else 0)) 1 ++ bytesLE x.kappa.toNat 4 ++ bytesLE x.sum.toNat 8
    ++ bytesLE x.norm.toNat 8 ++ bytesLE x.rejected.toNat 4 ++ bytesLE x.committed.toNat 4)

/-- A context changes, and its record with it (R454). -/
def State.putCtx (s : State) (part : Nat) (x : Ctx) : State :=
  (s.modPart part fun p => { p with ctx := some x }).putTile part (x.geo.base.toNat / 8192 + 1) { payload := x.record }

/-- The slots of state bank and error bank `b` of a region, in the order a tandem store keeps them (R432, R459). -/
def Geometry.bankSlots (g : Geometry) (b : Nat) : List Nat :=
  let a := g.base.toNat / 8192
  ((List.range g.bank).map fun i => a + 2 + b * g.bank + i)
    ++ (List.range g.errTiles.toNat).map fun i => a + 2 + 2 * g.bank + b * g.errTiles.toNat + i

/-- Tiles in a bank of a tandem store, and whether a bank is complete (R459). -/
def TandemStore.bankSize (t : TandemStore) : Nat := t.geo.bank + t.geo.errTiles.toNat
def TandemStore.complete0 (t : TandemStore) : Bool := decide (t.got0.length = t.bankSize)
def TandemStore.complete1 (t : TandemStore) : Bool := decide (t.got1.length = t.bankSize)

/-- The bank of a version is complete (R459). -/
def TandemStore.completeFor (t : TandemStore) (v : W32) : Bool := if v.toNat % 2 = 0 then t.complete0 else t.complete1

/-- The slots of a version's store bank, in order (R459). -/
def TandemStore.bankSlots (t : TandemStore) (v : W32) : List Nat :=
  (List.range t.bankSize).map fun i => t.base.toNat / 8192 + 1 + v.toNat % 2 * t.bankSize + i

/-- A store holds a version complete (R459, R461). -/
def TandemStore.holds (t : TandemStore) (v : W32) : Bool := (if v.toNat % 2 = 0 then t.ver0 else t.ver1) == v && t.completeFor v

/-! ### The norm gate (R450, R451) -/

/-- What the norm gate finds of a sum: the verdict, 1 clip, 2 unclipped, 3 reject; the clip factor; the norm (R450). -/
def Ctx.gate (x : Ctx) (sum : W64) : Byte × W32 × W64 :=
  let n := (fsqrt .f64 .tiesEven sum.toNat).1
  let vs := Fmt.f64.decode sum.toNat
  let vn := Fmt.f64.decode n
  let bad := match vs with
    | .nan _ _ _ => true
    | .inf _ => true
    | .fin _ _ _ => false
  let c := x.clip.toNat
  if bad || (!vn.isNan && decide (cmpVal vn (Fmt.f32.decode x.ceil.toNat) = 1)) then (3, Config.rejectKappa sum, BitVec.ofNat 64 n)
  else if decide (c % 2 ^ 31 ≠ 0) && !vn.isNan && decide (cmpVal vn (Fmt.f32.decode c) = 1) then
    (1, BitVec.ofNat 32 (narrow .tiesEven (fdiv .f64 .tiesEven (widen c).1 n).1).1, BitVec.ofNat 64 n)
  else (2, 0x3f800000, BitVec.ofNat 64 n)

/-- The norm tile as delivered: the sum, then the verdict's bytes (R417, R451). -/
def Ctx.normTile (x : Ctx) (sum : W64) : Mem :=
  let g := x.gate sum
  Mem.ofList (bytesLE sum.toNat 8 ++ bytesLE g.2.2.toNat 8 ++ [g.1, 0, 0, 0] ++ bytesLE g.2.1.toNat 4)

/-- The rejected-step count of a context moves on; at its largest value event 0x0254 is raised once (R456, R467). -/
def State.countReject (s : State) (part : Nat) (before after : W32) : State :=
  if after = BitVec.allOnes 32 ∧ before ≠ BitVec.allOnes 32 then s.raise { status := 0x0254, part := some part, words := [part] } else s

/-- The gate's verdict takes effect in Reducing: a rejected step is counted and the next begins; otherwise the update begins
(R456, R462). -/
def State.applyGate (s : State) (part : Nat) (x : Ctx) (sum : W64) : State :=
  let g := x.gate sum
  let y := { x with verdict := g.1, kappa := g.2.1, sum, norm := g.2.2 }
  if g.1 = 3 then
    let z := { y with verdict := 0, linkStep := x.linkStep + BitVec.ofNat 32 x.passes, rejected := stick x.rejected }
    ((s.putCtx part z).raise { status := 0x0250, part := some part, words := [part, x.linkStep.toNat] }).countReject part x.rejected z.rejected
  else s.putCtx part { y with st := if x.twoPass then .applying else .updating }

/-- The norm sum of a link step arrives: it is applied in Reducing, and held while the step before is in Copying or Voting (R456). -/
def State.normArrives (s : State) (part : Nat) (step : W32) (sum : W64) : State :=
  match (s.part part).ctx with
  | none => s
  | some x =>
    match x.st with
    | .reducing => if step = x.linkStep then s.applyGate part x sum else s
    | .copying | .voting =>
      if step = x.linkStep + BitVec.ofNat 32 x.passes then s.modPart part fun p => { p with ctx := some { x with heldGate := some sum } } else s
    | _ => s

/-- A context enters Reducing: a gate result that was held is applied (R456). -/
def State.enterReducing (s : State) (part : Nat) (x : Ctx) : State :=
  let y := { x with st := .reducing, verdict := 0, heldGate := none }
  match x.heldGate with
  | none => s.putCtx part y
  | some sum => (s.putCtx part y).applyGate part y sum

/-! ### Commit, fault and interruption (R456, R458, R481) -/

/-- The commit token word of a version (R458). -/
def tokenWord (v : W32) : W64 := BitVec.ofNat 64 (0xffffffff00000000 + v.toNat)

/-- The last link step of the step in progress (R458). -/
def Ctx.lastStep (x : Ctx) : W32 := x.linkStep + BitVec.ofNat 32 (x.passes - 1)

/-- K + 1 commits: the step is counted, and the context is Reducing, or Winching where a re-shard is held (R456, R481). -/
def State.commit (s : State) (part : Nat) (x : Ctx) : State :=
  let y := { x with
    version := x.version + 1, committed := x.committed + 1, linkStep := x.linkStep + BitVec.ofNat 32 x.passes
    verdict := 0, tandemK := x.tandemK1, tandemK1 := false }
  if x.reshard.isSome then s.putCtx part { y with st := .winching } else s.enterReducing part y

/-- The commit token's result arrives (R456, R458). -/
def State.tokenArrives (s : State) (part : Nat) (step : W32) (word : W64) : State :=
  match (s.part part).ctx with
  | none => s
  | some x =>
    if x.st = .voting ∧ step = x.lastStep then
      if word = tokenWord (x.version + 1) then s.commit part x
      else (s.putCtx part { x with st := .faulted }).raise { status := 0x0251, part := some part, words := [part, x.linkStep.toNat] }
    else s

/-- ABORT of the partition interrupts an update (R456). -/
def State.abortCtx (s : State) (part : Nat) : State :=
  match (s.part part).ctx with
  | none => s
  | some x =>
    if x.st = .updating ∨ x.st = .applying then
      (s.putCtx part { x with st := .interrupted }).raise { status := 0x0252, part := some part, words := [part, x.version.toNat] }
    else s

/-- A held re-shard is cancelled (R481, R490). -/
def State.cancelReshard (s : State) (x : Ctx) : State :=
  match x.reshard with
  | none => s
  | some r => s.complete r.ref 0x0263

/-- Some tile of the step in progress, or of a later one, has landed (R461, R527). -/
def Ctx.landed (x : Ctx) : Bool :=
  match x.landedAt with
  | none => false
  | some t => decide (t = x.linkStep) || newer t x.linkStep

end Sys2Proof.Machine
end

