-- ==== Sys2Proof/Machine/Tether.lean ====
section
/-! DEFINITION. The tether: loads, broadcasts, ABORT, stop marks and snapshots (R117 to R153). -/

namespace Sys2Proof.Machine

/-! ### Command fields (R519) -/

/-- The partition field of a command of R519. -/
def tetPart (c : BitVec 512) : Nat := cmdField c 0x24 1

/-- The fields of R519 that only some commands use: span or list address, host address, length, shares, kite mask, reserved bytes. -/
def tetUnused (c : BitVec 512) (addr host len shares kites : Bool) : Bool :=
  (addr || cmdZero c 0x10 8) && (host || cmdZero c 0x18 8) && (len || cmdZero c 0x20 4) && (shares || cmdZero c 0x25 3)
    && (kites || cmdZero c 0x28 4) && cmdZero c 0x2c 20

/-- The checks that every command of R519 naming a partition that must be Running begins with (R519, R524, R525). -/
def State.runningChecks (s : State) (n : Nat) (fieldsOk : Bool) : List (Bool × Nat) :=
  [(!fieldsOk || !partOk n, 0x0227), (!s.hasPart n, 0x0223), (decide ((s.part n).st ≠ .running), 0x0230)]

/-! ### Loads (R117 to R127) -/

/-- The next waiting load begins to be read (R123). -/
def Part.nextLoad (p : Part) : Part :=
  { p with loads := p.loads.drop 1, phase := if (p.loads.drop 1).isEmpty then .idle else .reading, image := [], imageLen := 0 }

/-- LOAD (R123, R519): the load waits behind those in progress. -/
def execLoad (o : RingId) (s : State) : Res :=
  hostCommand o 0x10 s fun ref c s =>
    let n := tetPart c
    let a := cmdField c 0x10 8
    s.checked ref (s.runningChecks n (tetUnused c true false true false false && decide (a % 8192 = 0) && decide (a < 2 ^ 52))
        ++ [(s.lockedAt n ref, 0x061a)])
      fun s => s.modPart n fun p => { p with
        loads := p.loads ++ [{ ref, addr := BitVec.ofNat 64 a, len := BitVec.ofNat 32 (cmdField c 0x20 4) }]
        phase := if p.phase = .idle then .reading else p.phase }

/-- The flags byte of a spool header: stop mark valid, one parameter block per core (R118). -/
def spoolStop (m : Mem) : Bool := m.readNat 7 1 % 2 == 1
def spoolPerCore (m : Mem) : Bool := m.readNat 7 1 / 2 % 2 == 1

/-- The parameter block size in bytes (R118). -/
def spoolParam (m : Mem) : Nat := 64 * m.readNat 0x00e 2

/-- The bytes of a spool image besides its parameter blocks (R117). -/
def spoolFixed (m : Mem) : Nat := 512 + 16 * m.readNat 0x00c 2

/-- The length is as R117 gives for some number of parameter blocks. -/
def spoolLengthOk (m : Mem) (len : Nat) : Bool :=
  m.readNat 0x014 4 == len && decide (spoolFixed m ≤ len) &&
    (if spoolParam m = 0 then len == spoolFixed m
     else if spoolPerCore m then (len - spoolFixed m) % spoolParam m == 0
     else len == spoolFixed m + spoolParam m)

/-- A routine table entry is as R119 gives; one beyond the routine count is zero (R118). That an image which breaks the second is refused, as
for a nonzero reserved field, is the model's reading: R121 does not name it (assumption 22). -/
def routineEntryOk (m : Mem) (i : Nat) : Bool :=
  let a := 0x040 + 48 * i
  if i < m.readNat 0x006 1 then decide (m.readNat (a + 0x20) 2 < m.readNat 0x00c 2) && m.zeroIn (a + 0x22) 14 else m.zeroIn a 48

/-- The stop-mark fields are as R118 and R121 give. -/
def spoolStopOk (m : Mem) : Bool :=
  if spoolStop m then
    decide (m.readNat 0x010 2 < m.readNat 0x00c 2) && m.readNat 0x028 4 != 0 && m.readNat 0x018 8 % 2 ^ 21 == 0
  else m.zeroIn 0x010 2 && m.zeroIn 0x018 8 && m.zeroIn 0x028 4

/-- A spool image's header, routine table and length are as R117 to R119 give (R121). -/
def spoolFormOk (m : Mem) (len : Nat) : Bool :=
  m.readNat 0 4 == 0x5053475a && m.readNat 4 2 == 1 && decide (1 ≤ m.readNat 6 1) && decide (m.readNat 6 1 ≤ 8)
    && decide (m.readNat 7 1 < 4) && decide (1 ≤ m.readNat 0x00c 2) && decide (m.readNat 0x00c 2 ≤ 3840)
    && decide (m.readNat 0x00e 2 ≤ 56) && spoolLengthOk m len
    && m.zeroIn 0x012 2 && m.zeroIn 0x02c 20 && m.zeroIn 0x1c0 64
    && (List.range 8).all (routineEntryOk m) && (List.range 16).all (fun ch => decide (headerDepth m ch ≤ 4)) && spoolStopOk m

/-- The number of parameter blocks does not match N (R121). -/
def spoolBlocksBad (m : Mem) (len n : Nat) : Bool :=
  spoolPerCore m && spoolParam m != 0 && (len - spoolFixed m) / spoolParam m != n

/-- Every byte of a range of a partition's span is mapped. -/
def State.mapped (s : State) (part addr len : Nat) : Bool :=
  (List.range (slotRange addr len).2).all fun i => (s.slotRef part ((slotRange addr len).1 + i)).isSome

/-- The status with which the tether refuses an image it has read (R121). -/
def State.spoolFault (s : State) (part : Nat) (m : Mem) (len : Nat) : Option Nat :=
  let p := s.part part
  let n := coreCount (s.comingKites part)
  firstFail [
    (p.accepted && !newer (m.read 32 8) p.gen, 0x0210),
    (!spoolFormOk m len, 0x0211),
    (spoolBlocksBad m len n, 0x0212),
    (spoolStop m && !s.mapped part (m.readNat 0x018 8) (n * 0x410000), 0x0214)]

/-- The oldest load completes with a status, and the next begins. -/
def State.loadDone (s : State) (part : Nat) (st result : Nat) : State :=
  match (s.part part).loads with
  | [] => s
  | l :: _ => (s.modPart part Part.nextLoad).complete l.ref st result

/-- A Ready bank is overwritten: the dropped-spool counter rises, sticks at 0xffff and says so once (R127, R129). The event carries the core
index; that it is module-wide (partition 0xff) is the model's choice (assumption 28). -/
def State.dropSpool (s : State) (part k : Nat) : State :=
  let c := s.core k
  if c.inactive = .ready then
    let v := stick c.drops
    let t := s.setCore k { c with drops := v }
    let t := t.modPart part fun p => { p with gens := p.gens.map fun g =>
      if g.gen = c.readyGen && !g.reported then { g with dropped := setBit g.dropped k } else g }
    if v = 0xffff ∧ c.drops ≠ 0xffff then t.raise { status := 0x0215, words := [k] } else t
  else s

/-- The broadcast of an accepted spool starts: inactive banks become Filling (R127). -/
def State.startBroadcast (s : State) (part : Nat) (g : W32) : State :=
  let ks := coresOf (s.comingKites part)
  let t := ks.foldl (fun t k => t.dropSpool part k) s
  (t.modCores ks fun _ c => { c with inactive := .filling, readyGen := g }).checkReports part

/-- SPOOL_READ_COMPLETE (R121, R125 to R127, R318): the oldest load's image has been read, with what the codewords of its tiles gave. It is
refused, or its generation and digest are recorded and its broadcast starts. -/
def execSpoolReadComplete (read : SpoolRead) (s : State) : Res :=
  onUnit (partOk read.part) (
    match (s.part read.part).phase, (s.part read.part).loads with
    | .reading, l :: _ =>
      let a := l.addr.toNat
      let len := l.len.toNat
      let s := s.meetCodewords read.part a len read.errs
      match s.bytesFault read.part a len false with
      | some _ => ((s.poisonedIn read.part a len).foldl (fun t slot => t.poisonRead read.part slot) s).loadDone read.part 0x0213 0
      | none =>
        let m := s.spanRead read.part a len
        let t := s.countReads read.part a len
        match t.spoolFault read.part m len with
        | some st => t.loadDone read.part st 0
        | none =>
          let g := m.read 32 8
          (t.modPart read.part fun p => { p with
            accepted := true, gen := g, phase := .broadcasting, image := m, imageLen := len
            gens := p.gens ++ [{ gen := g, digest := digestWord (sha384 (m.toList 0 len)) }] }).startBroadcast read.part g
    | _, _ => s)

/-- The bank that a core of rank `rank` receives of an image (R122). -/
def bankOf (m : Mem) (rank : Nat) : Mem :=
  let p := spoolParam m
  let at_ := 512 + (if spoolPerCore m then rank * p else 0)
  let blocks := m.readNat 0x014 4 - spoolFixed m
  m.slice 0 512 ++ (m.slice at_ p).map (fun e => (e.1 + 0x200, e.2))
    ++ (m.slice (512 + blocks) (16 * m.readNat 0x00c 2)).map (fun e => (e.1 + 0x1000, e.2))

/-- A core's inactive bank is written and Ready (R127, R128). -/
def Core.fill (c : Core) (m : Mem) (rank : Nat) : Core :=
  let b := bankOf m rank
  if c.activeB then { c with bankA := b, inactive := .ready } else { c with bankB := b, inactive := .ready }

/-- The cores of a partition that take the spool the moment it is ready: those that wait at `swap`, and those that are idle (R130). -/
def State.takers (s : State) (part : Nat) : List Nat :=
  (s.coresIn part).filter fun k =>
    (decide ((s.core k).run = .waitBank) && decide ((s.core k).inactive = .ready)) || (s.core k).mayTake

/-- The rank by which a core receives its parameter block: its rank at the coming boundary; a core that a resize accepted since the broadcast
began drops keeps its old one (R122, R123, assumption 23). -/
def State.blockRank (s : State) (part k : Nat) : Nat :=
  let new := s.comingKites part
  rankIn (if bit new (k / 8) then new else (s.part part).kites) k

/-- BROADCAST_END (R122, R124, R127, R130): every core that the broadcast was writing holds the spool ready; the load completes with its
generation; cores that wait or are idle take it. Where a held resize leaves no core of the partition in it, the boundary is then (R134,
assumption 23). -/
def execBroadcastEnd (part : Nat) (s : State) : Res :=
  onUnit (partOk part) (
    let p := s.part part
    if p.phase = .broadcasting then
      let kites := s.comingKites part
      let t := s.modCores (coresOf (p.kites ||| kites)) fun k c => if c.inactive = .filling then c.fill p.image (s.blockRank part k) else c
      let t := t.loadDone part 0 p.gen.toNat
      let t := t.take part (t.takers part)
      if p.kites &&& kites = 0 then t.takeGen part p.gen [] else t
    else s)

/-! ### Stop marks (R149 to R153) -/

/-- The one of two cores that holds the newer generation, the first where they hold the same. -/
def State.newerCore (s : State) (a : Option Nat) (k : Nat) : Option Nat :=
  match a with
  | none => some k
  | some j => if newer ((s.core k).gen.getD 0) ((s.core j).gen.getD 0) then some k else some j

/-- A core of a partition that holds a stop-marked spool whose snapshot has not ended, of the newest such generation (R149 to R151,
assumption 29). -/
def State.stopCore (s : State) (part : Nat) : Option Nat :=
  ((s.coresIn part).filter fun k => (s.core k).underStop).foldl s.newerCore none

/-- A core counts as halted: at a stop, or idle (R149). That a core idle in another generation than the stop-marked one, which it dropped, counts
too is the model's choice (assumption 29). -/
def Core.isHalted (c : Core) : Bool :=
  match c.run with
  | .halted _ _ => true
  | .idle => true
  | _ => false

/-- The kind 3 entry of a stop completion (R150, R514). -/
def stopEntry (part st : Nat) (g : W32) (halted : Nat) : CplEntry :=
  { kind := 3, status := BitVec.ofNat 16 st, part := BitVec.ofNat 8 part, detail := BitVec.ofNat 384 (g.toNat + halted * 2 ^ 32) }

/-- What a core that STOP_NOW halts was waiting for: 1 in `recv`, 2 for a credit, 0 for neither (R151, R153). -/
def Core.waitingFor (c : Core) : Nat :=
  if c.request.isSome then 2
  else match c.next with
    | some b => (match b.mov with
      | .recv ch _ _ _ _ => if (c.chan ch).held = 0 then 1 else 0
      | _ => 0)
    | none => 0

/-- STOP_NOW halts a core before its next bundle issues (R151). A core whose routine has ended halts as at `swap`, with cause 2. So does one
that waits at `swap` for a filling bank: that its record shows 2 and not 3 is the model's choice (assumption 29), and so is that a core at its stop
mark with operations under way shows 3, with wait 1 where its stop bundle is a `recv` of an empty channel. An idle core stays idle, and takes no
spool before the snapshot. -/
def State.haltNow (s : State) (k : Nat) : State :=
  let c := s.core k
  (match c.run with
  | .running =>
    if c.ended = 0 then (s.setCore k { c with run := .halted 3 c.waitingFor }).dropCredit k else s.setCore k { c with run := .halted 2 0 }
  | .waitBank => s.setCore k { c with run := .halted 2 0 }
  | .idle => s.setCore k { c with run := .halted 4 0 }
  | .halted _ _ => s).fitSupply k

/-- STOP_NOW (R151). -/
def execStopNow (o : RingId) (s : State) : Res :=
  hostCommand o 0x12 s fun ref c s =>
    let n := tetPart c
    s.checked ref (s.runningChecks n (tetUnused c false false false false false) ++ [((s.stopCore n).isNone, 0x0217)])
      fun s => ((s.coresIn n).foldl State.haltNow s).complete ref 0

/-- STOP_MARK_HALT (R149, R197): a core that has come to the stop bundle on the stop pass, or to `swap`, halts once everything it issued
is complete. -/
def execStopMarkHalt (core : Nat) (s : State) : Res :=
  onUnit (coreOk core) (
    let c := s.core core
    if s.mayIssue core && c.stopDue && c.quiet then
      (s.setCore core { c with run := .halted (if c.atStop then 1 else 2) 0 }).fitSupply core
    else s)

/-- The 16 bytes of a tile handle (R165). -/
def Handle.word (h : Handle) : BitVec 128 :=
  h.addr ++ (h.st ++ h.fmt ++ h.side ++ (0 : BitVec 47))

/-- The 64 bytes of a sequence slot (R329). -/
def SeqSlot.bytes (x : SeqSlot) : List Byte :=
  bytesLE x.ident.toNat 4 ++ [(match x.st with
    | .free => 0#8
    | .opened => 1#8
    | .ending => 2#8
    | .scrubbing => 3#8), x.latent] ++ bytesLE x.width.toNat 2 ++ bytesLE x.layers.toNat 2 ++ bytesLE x.pages.toNat 2
  ++ bytesLE x.gondola.toNat 2 ++ bytesLE x.env.toNat 2 ++ bytesLE x.table.toNat 8 ++ bytesLE x.n.toNat 4 ++ bytesLE x.limit.toNat 4
  ++ bytesLE x.endStatus.toNat 2 ++ List.replicate 30 0#8

/-- The 16 bytes of a channel (R153). -/
def Channel.bytes (x : Channel) : List Byte :=
  bytesLE x.depth 4 ++ bytesLE x.held 4 ++ bytesLE x.granted 4 ++ bytesLE x.headBuf 4

/-- The 16 bytes of a loop level (R153). -/
def loopBytes : Option LoopLevel → List Byte
  | none => List.replicate 16 0#8
  | some l => bytesLE l.p 2 ++ bytesLE l.n 2 ++ bytesLE l.mask.toNat 4 ++ [1#8] ++ List.replicate 7 0#8

/-- The halt cause and the wait of a record (R153). -/
def RunState.cause : RunState → Nat × Nat
  | .halted c w => (c, w)
  | _ => (4, 0)

/-- A core's snapshot record (R153). -/
def Core.record (c : Core) (k : Nat) : Mem :=
  Mem.ofListAt 0 (bytesLE k 4 ++ bytesLE c.rank 4 ++ bytesLE (c.gen.getD 0).toNat 4 ++ bytesLE c.pc 2
    ++ bytesLE c.run.cause.1 1 ++ bytesLE c.run.cause.2 1 ++ bytesLE c.passes.toNat 4 ++ [if c.activeB then 1#8 else 0#8]
    ++ [c.flags.setWidth 8])
  ++ Mem.ofListAt 0x40 ((List.range 32).flatMap fun i =>
    bytesLE (c.areg i).value.toNat 8 ++ bytesLE (c.areg i).stride.toNat 8 ++ bytesLE (c.areg i).bound.toNat 8)
  ++ Mem.ofListAt 0x340 ((List.range 8).flatMap fun i => bytesLE (c.creg i).toNat 8)
  ++ Mem.ofListAt 0x380 ((List.range 4).flatMap fun i => bytesLE (c.rdxValue i).toNat 8)
  ++ Mem.ofListAt 0x3a0 ((List.range 32).flatMap fun i => bytesLE (c.sreg i).toNat 8)
  ++ Mem.ofListAt 0x4a0 ((List.range 16).flatMap fun i => bytesLE (c.treg i).word.toNat 16)
  ++ Mem.ofListAt 0x5a0 ((List.range 16).flatMap fun i => (c.chan i).bytes)
  ++ Mem.ofListAt 0x6a0 ((List.range 6).flatMap fun j => (SMap.get SeqSlot.blank c.slots j).bytes)
  ++ Mem.ofListAt 0x820 ((List.range 4).flatMap fun i => loopBytes c.loops[i]?)
  ++ Mem.ofListAt 0x1000 ((List.range 16).flatMap fun i => bytesLE (c.vreg i).toNat 1024)
  ++ (c.store.slice 0 0x400000).map fun e => (e.1 + 0x8000, e.2)

/-- Every core of the partition has halted with its work done, and no message to it is on the mesh (R150); a FREEZE takes effect after the stop
completion (R535). -/
def State.snapReady (s : State) (part : Nat) : Bool :=
  (decide ((s.part part).st = .running) || decide ((s.part part).st = .freezing))
    && (s.coresIn part).all (fun k => (s.core k).isHalted && (s.core k).quiet && (s.core k).ended == 0)
    && s.mesh.all fun m => !((s.coresIn part).contains m.dst)

/-- The snapshot is complete: the stop completion is posted, every core is idle, and those that hold a spool ready take it
(R150, R152). -/
def State.snapDone (s : State) (part st : Nat) (g : W32) (halted : Nat) : State :=
  let t := s.modPart part fun p => { p with snapNext := 0 }
  let t := t.modCores (t.coresIn part) fun _ c => { c with run := .idle, snapped := true, loops := [], ended := 0, endedAt := 0 }
  t.post (some part) (stopEntry part st g halted)

/-- SNAPSHOT_WRITE (R150): the tether writes the next core's record, in rank order; after the last it posts the stop completion. -/
def execSnapshotWrite (part : Nat) (s : State) : Res :=
  onUnit (partOk part) (
    match s.stopCore part with
    | none => s
    | some k0 =>
      if s.snapReady part then
        let i := (s.part part).snapNext
        let base := (s.core k0).bank.readNat 0x018 8
        let ks := s.coresIn part
        let t := match ks[i]? with
          | none => s
          | some k => s.spanWrite part (base + i * 0x410000) 0x410000 ((s.core k).record k)
        if i + 1 < ks.length then t.modPart part fun p => { p with snapNext := i + 1 }
        else
          let u := t.snapDone part 0 ((s.core k0).gen.getD 0) ks.length
          u.take part (u.idleReady part)
      else s)

/-! ### ABORT (R147, R148) -/

/-- A core that ABORT stops: its wait ends, its credit returns, its inactive bank is Empty, and it is idle (R147). Its channels keep their messages
and depths, as R147 gives; that messages which R144 left in place until an ABORT stay after it too is the model's choice (assumption 28). -/
def State.abortCore (s : State) (k : Nat) : State :=
  ((s.dropCredit k).modCore k fun c => { c with run := .idle, inactive := .empty, ended := 0, endedAt := 0, loops := [] }).fitSupply k

/-- A step that ends: its sequences are in no step, and each passes its token boundary (R330, R331). -/
def State.leaveStep (s : State) (n : Nat) : State :=
  (s.setSeq n { s.seq n with inStep := false }).tokenBoundary n

/-- A configuration that waited for the running step to end takes effect (R372); a longer window time has not passed yet (R374). -/
def Batcher.apply (b : Batcher) : Batcher :=
  match b.next with
  | none => b
  | some (ring, t, w, g) =>
    if ring = 0 then { b with on := false, ring := 0, timeUs := t, window := w, grouped := g, next := none, timeUp := none }
    else { b with
      on := true, ring, timeUs := t, window := w, grouped := g, next := none, timeUp := if b.timeUs < t then none else b.timeUp
      stepNo := if b.on then b.stepNo else 0 }

/-- ABORT ends the running step, which counts nothing; no step starts until the next spool boundary (R379). -/
def State.abortStep (s : State) (part : Nat) : State :=
  let b := (s.part part).batcher
  let t := s.modPart part fun p => { p with
    batcher := { b with stepRunning := false, entries := [], toSend := [], blocked := true }.apply }
  let t := t.modCores (t.coresIn part) fun _ c =>
    { c with chans := SMap.mapVals Channel.blank (fun _ x => { x with waiters := x.waiters.filter (· ≠ 256 + part) }) c.chans }
  let t := (b.entries.filter fun e => (t.seq e.slot).ident = e.ident).foldl (fun t e => t.leaveStep e.slot) t
  (t.slotsIn part).foldl State.tokenBoundary t

/-- ABORT of a partition (R147). The inactive banks of cores that a held resize will bring in are emptied with the partition's own, so that no
core of it runs an aborted spool (R148); the manual does not speak of them (assumption 28). -/
def State.abort (s : State) (part : Nat) : State :=
  let ks := s.coresIn part
  let stop := s.stopCore part
  let halted := (ks.filter fun k => (s.core k).isHalted).length
  let t := ks.foldl State.abortCore s
  let t := t.modCores (coresOf (s.comingKites part &&& ~~~(s.part part).kites)) fun _ c => { c with inactive := .empty }
  let loads := (t.part part).loads
  let t := t.modPart part fun p => { p with loads := [], phase := .idle, image := [], imageLen := 0 }
  let t := loads.foldl (fun t l => t.complete l.ref 0x0216) t
  let t := match stop with
    | none => t
    | some k => t.snapDone part 0x0216 ((s.core k).gen.getD 0) halted
  let t := t.checkReports part
  let t := t.modPart part fun p => { p with gens := p.gens.map fun g => { g with reported := true } }
  (t.abortStep part).abortCtx part

/-- ABORT (R147, R519). -/
def execAbort (o : RingId) (s : State) : Res :=
  hostCommand o 0x11 s fun ref c s =>
    let n := tetPart c
    s.checked ref (s.runningChecks n (tetUnused c false false false false false)) fun s => (s.abort n).complete ref 0

end Sys2Proof.Machine
end

