-- ==== Sys2Proof/Machine/Gondola.lean ====
section
/-! DEFINITION. Gondolas, reels and the batcher (R349 to R391). -/

namespace Sys2Proof.Machine

/-! ### Command fields (R355) -/

/-- The address, gondola index, reel index and partition of a command of R355. -/
def gonAddr (c : BitVec 512) : Nat := cmdField c 0x10 8
def gonIndex (c : BitVec 512) : Nat := cmdField c 0x20 2
def gonReel (c : BitVec 512) : Nat := cmdField c 0x22 2
def gonPart (c : BitVec 512) : Nat := cmdField c 0x24 1

/-- The fields of R355 that only some commands use: address, count, time, gondola, reel, partition, mooring terms (0x25 to 0x29),
slot and identifier, version, tokens or window, mode. -/
def gonUnused (c : BitVec 512) (addr count time gon reel part terms seq ver tok mode : Bool) : Bool :=
  (addr || cmdZero c 0x10 8) && (count || cmdZero c 0x18 4) && (time || cmdZero c 0x1c 4) && (gon || cmdZero c 0x20 2)
    && (reel || cmdZero c 0x22 2) && (part || cmdZero c 0x24 1) && (terms || cmdZero c 0x25 5) && (seq || cmdZero c 0x2a 6)
    && (ver || cmdZero c 0x30 4) && (tok || cmdZero c 0x34 2) && (mode || cmdZero c 0x36 1) && cmdZero c 0x37 9

/-- A tile address of a command: a multiple of 8,192 below 2^52. -/
def tileAddrOk (a : Nat) : Bool := a % 8192 == 0 && decide (a < 2 ^ 52)

/-! ### Manifests (R349 to R352) -/

/-- The entry count of a manifest, and its bytes and tile slots. -/
def manEntries (m : Mem) : Nat := m.readNat 6 2
def manBytes (e : Nat) : Nat := 128 + 64 * e
def manSlots (addr e : Nat) : List Nat := (List.range (ceilDiv (manBytes e) 8192)).map fun i => addr / 8192 + i

/-- A manifest as it stands in a partition's span. -/
def State.manifest (s : State) (part addr : Nat) : Mem :=
  s.spanRead part addr (manBytes (manEntries (s.spanRead part addr 128)))

/-- The runs of tiles an entry names: first slot, how many, and the format code they must have (R350, R351). -/
def manRuns (m : Mem) (e : Nat) : List (Nat × Nat × Nat) :=
  let a := 0x80 + 64 * e
  [(m.readNat (a + 0x10) 8 / 8192, m.readNat (a + 0x28) 4, 4), (m.readNat (a + 0x18) 8 / 8192, m.readNat (a + 0x2c) 4, 4)
  , (m.readNat (a + 0x20) 8 / 8192, m.readNat (a + 0x30) 4, 5)]

/-- The tiles a manifest names, in entry order, with the format code each must have. -/
def manTiles (m : Mem) : List (Nat × Nat) :=
  (List.range (manEntries m)).flatMap fun e => (manRuns m e).flatMap fun r => (List.range r.2.1).map fun i => (r.1 + i, r.2.2)

/-- An entry is as R350 gives. -/
def manEntryOk (m : Mem) (e : Nat) : Bool :=
  let a := 0x80 + 64 * e
  let r := m.readNat (a + 4) 2
  let f := m.readNat (a + 6) 1
  let din := m.readNat (a + 8) 4
  let dout := m.readNat (a + 0xc) 4
  decide (4 ≤ r) && decide (r ≤ 256) && r % 4 == 0 && decide (f < 2) && m.zeroIn (a + 7) 1
    && decide (1 ≤ din) && decide (din ≤ 65536) && decide (1 ≤ dout) && decide (dout ≤ 65536)
    && m.readNat (a + 0x10) 8 % 8192 == 0 && m.readNat (a + 0x18) 8 % 8192 == 0 && m.readNat (a + 0x20) 8 % 8192 == 0
    && decide (1 ≤ m.readNat (a + 0x28) 4) && decide (1 ≤ m.readNat (a + 0x2c) 4)
    && m.readNat (a + 0x30) 4 == (if f = 1 then ceilDiv dout 2048 else 0) && (f == 1 || m.readNat (a + 0x20) 8 == 0)
    && m.zeroIn (a + 0x38) 8

/-- A manifest's header is as R349 gives. -/
def manHeaderOk (m : Mem) : Bool :=
  m.readNat 0 4 == 0x4d47475a && m.readNat 4 2 == 1 && decide (1 ≤ manEntries m) && decide (manEntries m ≤ 4094)
    && m.zeroIn 8 8 && m.zeroIn 0x50 48

/-- A slot that a partition maps, owned or read-only, under an envelope that one of its indices names. -/
def State.mapsUnder (s : State) (part slot env : Nat) : Bool :=
  match s.slotRef part slot with
  | none => false
  | some r => s.sameEnv part env r.owner r.ext.env.toNat

/-- A read of a slot of a partition's span meets an unmapped extent or a poisoned tile. -/
def State.unreadable (s : State) (part slot : Nat) : Bool :=
  match s.slotRef part slot with
  | none => true
  | some r => (s.tile r.owner slot).poisoned

/-- A named tile that a partition maps has a stored format code other than the one it must have (R351). -/
def State.wrongFormat (s : State) (part : Nat) (x : Nat × Nat) : Bool :=
  match s.slotRef part x.1 with
  | none => false
  | some r => (s.tile r.owner x.1).data.fmt != x.2

/-- The bytes of a stored tile as a digest takes them: payload, then side data. -/
def TileData.bytes (d : TileData) : List Byte := d.payload.toList 0 8192 ++ d.side.toList 0 d.sideLen

/-- The tile in a slot of a partition's span. -/
def State.spanTile (s : State) (part slot : Nat) : TileData :=
  match s.slotRef part slot with
  | none => {}
  | some r => s.readTile r.owner slot

/-- The gondola digest of a version (R352). -/
def State.gonDigest (s : State) (part addr : Nat) : BitVec 384 :=
  let m := s.manifest part addr
  digestWord (sha384 (m.toList 0 (manBytes (manEntries m))
    ++ (manTiles m).flatMap fun x => (s.spanTile part x.1).bytes))

/-- The entries of a manifest whose slots can be read. -/
def State.readableEntries (s : State) (part addr : Nat) (m : Mem) : List Nat :=
  (List.range (manEntries m)).filter fun e => !s.unreadable part (addr / 8192 + (0x80 + 64 * e) / 8192)

/-- Some entry that can be read is not as R350 gives, or names a tile whose stored format code is another (R351). -/
def State.entriesBad (s : State) (part addr : Nat) (m : Mem) : Bool :=
  (s.readableEntries part addr m).any fun e => !manEntryOk m e || (manRuns m e).any fun r => (List.range r.2.1).any fun i => s.wrongFormat part (r.1 + i, r.2.2)

/-- The checks of R356 on the manifest at an address of a holder, under an envelope index, in the table's order: its first slot must be read
before its header is checked, and an entry is checked where its slot can be read. -/
def State.manChecks (s : State) (part addr env : Nat) : List (Bool × Nat) :=
  let m := s.manifest part addr
  [ (s.unreadable part (addr / 8192), 0x0512)
  , (!manHeaderOk m || s.entriesBad part addr m, 0x0511)
  , ((manSlots addr (manEntries m) ++ (manTiles m).map (·.1)).any (fun x => s.unreadable part x || !s.mapsUnder part x env), 0x0512)
  , (m.read 384 0x20 != s.gon.base, 0x0513)
  , (!(s.sec.bindings.any fun b => b.ident == m.read 128 0x10), 0x0514)]

/-- What a MOOR or SWAP reads meets its codewords, by slot: the manifest's first slot; with a sound header its other slots; with sound entries
the tiles they name (R318, R356). -/
def State.meetVersion (s : State) (part addr : Nat) (errs : List (Nat × CodeErrs)) : State :=
  let s := s.meetSlots part [addr / 8192] errs
  let m := s.manifest part addr
  if s.unreadable part (addr / 8192) || !manHeaderOk m then s
  else
    let t := s.meetSlots part ((manSlots addr (manEntries m)).drop 1) errs
    let m := t.manifest part addr
    if t.entriesBad part addr m || (manSlots addr (manEntries m)).any (t.unreadable part) then t else t.meetSlots part ((manTiles m).map (·.1)) errs

/-- The poisoned slots among those that a MOOR or SWAP reads (R319, R356). -/
def State.manPoisoned (s : State) (part addr : Nat) : List Nat :=
  let m := s.manifest part addr
  (addr / 8192 :: (manSlots addr (manEntries m)).drop 1 ++ (manTiles m).map (·.1)).filter fun x =>
    (s.slotRef part x).any fun r => (s.tile r.owner x).poisoned

/-- The tiles a version names in extents that the holder owns: those that a residency places (R357). -/
def State.ownNamed (s : State) (part addr : Nat) : List Nat :=
  ((manTiles (s.manifest part addr)).map (·.1)).filter fun x => match s.slotRef part x with
    | some r => !r.ro
    | none => false

/-- A keep-warm residency would exceed the holder's limit (R298, R356). -/
def State.residencyBad (s : State) (part residency addr : Nat) : Bool :=
  residency == 2 && decide (keepWarmLimit (s.part part).hbm.toNat < s.warmAfter part 2 (s.ownNamed part addr) * 9216)

/-- Hint the named tiles that the holder owns with a residency (R357). -/
def State.place (s : State) (part residency addr : Nat) : State :=
  (s.ownNamed part addr).foldl (fun s x => s.hintTile part residency 0 x) s

/-- Reads of the manifest and of every tile it names, as MOOR and SWAP make them (R296, R356). -/
def State.readVersion (s : State) (part addr : Nat) : State :=
  (manSlots addr (manEntries (s.manifest part addr)) ++ (manTiles (s.manifest part addr)).map (·.1)).foldl
    (fun t x => t.countReads part (8192 * x) 8192) s

/-- None of the named tiles that the holder owns is moving. -/
def State.placed (s : State) (part addr : Nat) : Bool := (s.ownNamed part addr).all fun x => (s.tile part x).moving.isNone

/-! ### MOOR and SWAP (R356, R357, R366, R367) -/

/-- The descriptor an accepted MOOR fills (R353, R357). -/
def moored (s : State) (c : BitVec 512) (ref : CmdRef) : Gondola :=
  let addr := gonAddr c
  let m := s.manifest (gonPart c) addr
  { st := .mooring, residency := BitVec.ofNat 8 (cmdField c 0x25 1), policy := BitVec.ofNat 8 (cmdField c 0x26 1)
    termKind := BitVec.ofNat 8 (cmdField c 0x27 1), holder := gonPart c, env := BitVec.ofNat 16 (cmdField c 0x28 2)
    version := BitVec.ofNat 32 (cmdField c 0x30 4), reel := BitVec.ofNat 16 (gonReel c), termCount := BitVec.ofNat 32 (cmdField c 0x18 4)
    grace := BitVec.ofNat 32 (cmdField c 0x1c 4), manifest := BitVec.ofNat 64 addr, bindSet := m.read 128 0x10
    baseDigest := m.read 384 0x20, digest := s.gonDigest (gonPart c) addr, ref := some ref }

/-- MOOR (R318, R356, R357): the descriptor is Mooring until MOOR_COMPLETE. -/
def execMoor (cmd : ReadCmd) (s : State) : Res :=
  hostCommand cmd.ring 0x40 s fun ref c s =>
    let g := gonIndex c
    let n := gonPart c
    let addr := gonAddr c
    let reel := gonReel c
    let fieldsOk := tileAddrOk addr && decide (g < 16384) && (decide (reel < 16384) || reel == 0xffff)
      && decide (cmdField c 0x25 1 ≤ 2) && decide (cmdField c 0x26 1 ≤ 2) && decide (cmdField c 0x27 1 ≤ 2)
      && decide (cmdField c 0x28 2 < 16384) && cmdField c 0x30 4 != 0
      && gonUnused c true true true true true true true false true false false
    let first := s.partChecks n fieldsOk 0x051a ++ [(decide ((s.gondola g).st ≠ .free), 0x0510)]
    let s := s.afterChecks first fun s => s.meetVersion n addr cmd.errs
    s.checkedMeeting ref n 0x0512 (s.manPoisoned n addr) (first ++ s.manChecks n addr (cmdField c 0x28 2) ++ [
      (reel != 0xffff && !((s.reel reel).isOpen && decide ((s.reel reel).holder = n)), 0x0519),
      (s.residencyBad n (cmdField c 0x25 1) addr, 0x0314)])
      fun s => ((s.setGondola g (moored s c ref)).place n (cmdField c 0x25 1) addr).readVersion n addr

/-- A descriptor's state under the module's base digest: Moored, or Stranded (R358, R388). -/
def State.mooredOr (s : State) (base : BitVec 384) : GonState := if base = s.gon.base then .moored else .stranded

/-- A descriptor in Mooring becomes Moored, and MOOR completes; a BASE_SET meanwhile may strand it (R357, R388). -/
def State.endMoor (s : State) (g : Nat) : State :=
  let d := s.gondola g
  if d.st = .mooring then
    (s.setGondola g { d with st := s.mooredOr d.baseDigest, ref := none }).completeOpt d.ref 0
  else s

/-- MOOR_COMPLETE (R357): the hints are applied and the digest is computed. -/
def execMoorComplete (g : Nat) (s : State) : Res :=
  onUnit (decide (g < 16384)) (
    let d := s.gondola g
    if s.placed d.holder d.manifest.toNat then s.endMoor g else s)

/-- An accepted SWAP takes effect: the current version retires, the new one is current (R367, R371). -/
def State.endSwap (s : State) (g : Nat) : State :=
  let d := s.gondola g
  match d.swapTo with
  | none => s
  | some v =>
    (s.setGondola g { d with
      st := s.mooredOr v.base, hasRetiring := true, retVersion := d.version, retRefs := d.refs, retManifest := d.manifest
      retDigest := d.digest, version := v.version, refs := 0, manifest := v.manifest, digest := v.digest, bindSet := v.bindSet
      baseDigest := v.base, swapTo := none }).complete v.ref 0

/-- SWAP (R318, R356, R366, R367): the new version is current at SWAP_COMPLETE. -/
def execSwap (cmd : ReadCmd) (s : State) : Res :=
  hostCommand cmd.ring 0x41 s fun ref c s =>
    let g := gonIndex c
    let addr := gonAddr c
    let d := s.gondola g
    let v := BitVec.ofNat 32 (cmdField c 0x30 4)
    let fieldsOk := tileAddrOk addr && decide (g < 16384) && v != 0
      && gonUnused c true false false true false false false false true false false
    let first := [(!fieldsOk, 0x051a), (decide (d.st ≠ .moored ∧ d.st ≠ .stranded), 0x0517), (!newer v d.version, 0x0515),
        (d.hasRetiring || d.swapTo.isSome, 0x0516)]
    let s := s.afterChecks first fun s => s.meetVersion d.holder addr cmd.errs
    s.checkedMeeting ref d.holder 0x0512 (s.manPoisoned d.holder addr) (first
      ++ s.manChecks d.holder addr d.env.toNat ++ [(s.residencyBad d.holder d.residency.toNat addr, 0x0314)])
      fun s =>
        let m := s.manifest d.holder addr
        ((s.setGondola g { d with swapTo := some {
            manifest := BitVec.ofNat 64 addr, version := v, bindSet := m.read 128 0x10, base := m.read 384 0x20
            digest := s.gonDigest d.holder addr, ref } }).place d.holder d.residency.toNat addr).readVersion d.holder addr

/-- SWAP_COMPLETE (R367): the new tiles are placed and their digest is computed. -/
def execSwapComplete (g : Nat) (s : State) : Res :=
  onUnit (decide (g < 16384)) (
    let d := s.gondola g
    match d.swapTo with
    | none => s
    | some v => if s.placed d.holder v.manifest.toNat then s.endSwap g else s)

/-! ### EVICT, REVOKE, BASE_SET and releases (R358 to R371) -/

/-- The term of a descriptor is met (R359). -/
def Gondola.termMet (d : Gondola) : Bool := d.termKind == 0 || decide (d.termCount.toNat ≤ d.progress.toNat)

/-- References to any version. -/
def Gondola.allRefs (d : Gondola) : Nat := d.refs + d.retRefs

/-- The gondola is withdrawn, or released at once where nothing references it; `ref` completes when it is Free (R358, R362). -/
def State.startRelease (s : State) (g : Nat) (ref : Option CmdRef) : State :=
  let d := s.gondola g
  if d.allRefs = 0 then s.setGondola g { d with st := .releasing, ref }
  else (s.setGondola g { d with st := .withdrawing, ref }).withdraw g

/-- The gondola is cut: it admits no sequence, and those that reference it count their grace from here (R358, R361). -/
def State.cut (s : State) (g : Nat) : State :=
  let refs := s.refsOf g
  let t := s.setGondola g { s.gondola g with st := .cut, cutByEvict := true }
  let t := refs.foldl (fun t n => t.setSeq n { t.seq n with cutAt := some (t.seq n).n }) t
  refs.foldl State.graceCheck t

/-- What EVICT does to a Moored or Stranded descriptor whose term lets it go (R358). -/
def State.evict (s : State) (g : Nat) (ref : CmdRef) : State :=
  let d := s.gondola g
  if d.allRefs = 0 || d.policy == 2 then s.startRelease g (some ref) else (s.cut g).complete ref 0x0519

/-- The fields of EVICT and REVOKE. -/
def gonOnly (c : BitVec 512) : Bool :=
  decide (gonIndex c < 16384) && gonUnused c false false false true false false false false false false false

/-- EVICT (R358, R359): a SWAP of the gondola accepted before it takes effect first. -/
def execEvict (o : RingId) (s : State) : Res :=
  hostCommand o 0x42 s fun ref c s =>
    let g := gonIndex c
    let s := if gonOnly c then s.endSwap g else s
    let d := s.gondola g
    s.checked ref [(!gonOnly c, 0x051a), (decide (d.st ≠ .moored ∧ d.st ≠ .stranded), 0x0517),
      (decide (d.st = .moored) && !d.termMet, 0x0518)] fun s => s.evict g ref

/-- REVOKE (R358). -/
def execRevoke (o : RingId) (s : State) : Res :=
  hostCommand o 0x43 s fun ref c s =>
    let g := gonIndex c
    let s := if gonOnly c then s.endSwap g else s
    let d := s.gondola g
    s.checked ref [(!gonOnly c, 0x051a), (decide (d.st ≠ .moored ∧ d.st ≠ .stranded ∧ d.st ≠ .cut), 0x0517)]
      fun s => s.startRelease g (some ref)

/-- A descriptor under a new base digest (R358, R369). -/
def Gondola.rebase (d : Gondola) (base : BitVec 384) : Gondola :=
  if d.st = .moored ∧ d.baseDigest ≠ base then { d with st := .stranded }
  else if d.st = .stranded ∧ d.baseDigest = base then { d with st := .moored }
  else d

/-- The descriptors in a state. -/
def State.countGon (s : State) (st : GonState) : Nat := (s.gon.table.filter fun e => decide (e.2.st = st)).length

/-- BASE_SET (R369): it completes with the number of Stranded descriptors. -/
def execBaseSet (o : RingId) (s : State) : Res :=
  hostCommand o 0x44 s fun ref c s =>
    let base := BitVec.ofNat 384 (cmdField c 0x10 48)
    let t := { s with gon := { s.gon with base, table := SMap.mapVals Gondola.blank (fun _ d => d.rebase base) s.gon.table } }
    t.complete ref 0 (t.countGon .stranded)

/-- Release a version: every tile its manifest names is scrubbed, then the manifest's slots (R364). -/
def State.releaseVersion (s : State) (part addr : Nat) : State :=
  let m := s.manifest part addr
  let t := ((List.range (manEntries m)).flatMap (manRuns m)).foldl (fun t r => t.scrubSlots part r.1 r.2.1) s
  t.scrubSlots part (addr / 8192) (ceilDiv (manBytes (manEntries m)) 8192)

/-- Release the retiring version, and say so (R368). -/
def State.releaseRetiring (s : State) (g : Nat) : State :=
  let d := s.gondola g
  let t := s.releaseVersion d.holder d.retManifest.toNat
  (t.setGondola g { d with hasRetiring := false, retVersion := 0, retRefs := 0, retManifest := 0, retDigest := 0 }).gonEvent 1
    { status := 0x0535, words := [g, d.retVersion.toNat] }

/-- RETIRING_RELEASE (R368): a retiring version without references is released. -/
def execRetiringRelease (g : Nat) (s : State) : Res :=
  onUnit (decide (g < 16384)) (
    let d := s.gondola g
    if d.hasRetiring && d.retRefs == 0 && decide (d.st ≠ .free) then s.releaseRetiring g else s)

/-- A descriptor in Releasing becomes Free: its retiring version, then its current version, is released, and the command that waits
completes (R358, R364). -/
def State.freeGondola (s : State) (g : Nat) : State :=
  let s := if (s.gondola g).hasRetiring then s.releaseRetiring g else s
  let d := s.gondola g
  let t := s.releaseVersion d.holder d.manifest.toNat
  ((t.setGondola g {}).gonEvent 1 { status := 0x0535, words := [g, d.version.toNat] }).completeOpt d.ref 0

/-- GONDOLA_RELEASE_COMPLETE (R364). -/
def execGondolaReleaseComplete (g : Nat) (s : State) : Res :=
  onUnit (decide (g < 16384)) (if (s.gondola g).st = .releasing then s.freeGondola g else s)

/-! ### Reels (R382 to R387) -/

/-- The 48 bytes of a reel's header (R383). -/
def Reel.header (r : Reel) : Mem :=
  Mem.ofList (bytesLE r.nextNo.toNat 8 ++ bytesLE r.oldest.toNat 8 ++ bytesLE r.slots.toNat 4 ++ bytesLE r.hours.toNat 4
    ++ bytesLE r.dropCount.toNat 8)

/-- A reel and its header slot (R383). -/
def State.putReel (s : State) (i : Nat) (r : Reel) : State :=
  (s.setReel i r).putTile r.holder (r.base.toNat / 8192) { payload := r.header }

/-- REEL_OPEN (R382): every slot is scrubbed, then the header written; it completes when the scrubbing ends. -/
def execReelOpen (o : RingId) (s : State) : Res :=
  hostCommand o 0x45 s fun ref c s =>
    let i := gonReel c
    let n := gonPart c
    let base := gonAddr c
    let slots := cmdField c 0x18 4
    let hours := cmdField c 0x1c 4
    let fieldsOk := tileAddrOk base && decide (1 ≤ slots) && decide (slots ≤ 2 ^ 24) && decide (hours ≤ 65535) && decide (i < 16384)
      && decide (base + 8192 * (slots + 2) ≤ 2 ^ 52)
      && gonUnused c true true true false true true false false false false false
    let lo := base / 8192
    let exts := (List.range ((lo + slots + 1) / 256 - lo / 256 + 1)).map fun e => lo / 256 + e
    s.checked ref (s.partChecks n fieldsOk 0x0521 ++ [
      ((s.reel i).isOpen || s.spn.jobs.any (fun j => decide (j.kind = .reelClose) && decide (j.index = i)), 0x0520),
      (!s.ownsAll n exts, 0x0521)])
      fun s =>
        let t := s.scrubRange n lo (lo + slots + 2)
        let r : Reel := { isOpen := true, holder := n, base := BitVec.ofNat 64 base, slots := BitVec.ofNat 32 slots, hours := BitVec.ofNat 32 hours }
        (t.putReel i r).addJob { kind := .reelOpen, ref := some ref, part := n, lo, hi := lo + slots + 2, index := i } false

/-- Some non-Free descriptor names a reel. -/
def State.reelNamed (s : State) (i : Nat) : Bool := s.gon.table.any fun e => decide (e.2.st ≠ .free) && decide (e.2.reel.toNat = i)

/-- Scrub every slot of a reel that its holder still owns, and close it (R386). -/
def State.closeReel (s : State) (i : Nat) : State :=
  let r := s.reel i
  let lo := r.base.toNat / 8192
  (s.setReel i {}).scrubRange r.holder lo (lo + r.slots.toNat + 2)

/-- REEL_CLOSE (R386): it completes, and the index is free, when the scrubbing ends. -/
def execReelClose (o : RingId) (s : State) : Res :=
  hostCommand o 0x46 s fun ref c s =>
    let i := gonReel c
    let r := s.reel i
    let fieldsOk := decide (i < 16384) && gonUnused c false false false false true false false false false false false
    let lo := r.base.toNat / 8192
    s.checked ref [(!fieldsOk || !r.isOpen, 0x051a), (s.reelNamed i, 0x0522)] fun s =>
      (s.closeReel i).addJob
        { kind := .reelClose, ref := some ref, part := r.holder, lo, hi := lo + r.slots.toNat + 2, index := i } false

/-- The age of a record is less than the retention (R385). -/
def Reel.retained (r : Reel) (now time : W64) : Bool := decide ((now - time).toNat < r.hours.toNat * 3600000)

/-- The oldest record retained, once appends have reached `nextNo` (R383, R385). -/
def Reel.age (r : Reel) (now : W64) : Reel :=
  { r with oldest := r.nextNo - BitVec.ofNat 64 (r.times.dropWhile fun t => !r.retained now t).length }

/-- The ring is full of records the oldest of which is retained: an append is dropped (R385). -/
def Reel.full (r : Reel) (now : W64) : Bool :=
  decide (r.slots.toNat ≤ r.times.length) && (match r.times with
    | [] => false
    | t :: _ => r.retained now t)

/-- A reel's own count of dropped records reached its largest value: event 0x0817, once (R604, R605, assumption 100). -/
def State.reelStuck (s : State) (before after : W64) : State :=
  if after = BitVec.allOnes 64 && before ≠ BitVec.allOnes 64 then s.raise { status := 0x0817, words := [0x05, Config.reelDropOffset] } else s

/-- A record is dropped: counted, and reported at most once a second (R385, R390). -/
def State.dropRecord (s : State) (i : Nat) (now : W64) : State :=
  let r := s.reel i
  let due := match r.lastEvent with
    | none => true
    | some t => decide (1000 ≤ (now - t).toNat)
  let v := stick s.gon.reelDrop
  let t := (s.putReel i { r.age now with dropCount := stick r.dropCount, lastEvent := if due then some now else r.lastEvent }).reelStuck
    r.dropCount (stick r.dropCount)
  let t := { t with gon := { t.gon with reelDrop := v, event := setBit t.gon.event 2 } }
  let t := if due then t.gonEvent 2 { status := 0x0523, words := [i] } else t
  if v = BitVec.allOnes 32 && s.gon.reelDrop ≠ BitVec.allOnes 32 then t.gonEvent 3 { status := 0x0524 } else t

/-- Append a record to a reel: its number and the time go into its first 16 bytes (R384). -/
def State.append (s : State) (i : Nat) (d : TileData) : State :=
  let r := s.reel i
  let now := Config.localMs s.free
  let s := s.tick
  if r.full now then s.dropRecord i now
  else
    let a := r.nextNo
    let p := d.payload.splice 0 16 (Mem.ofList (bytesLE a.toNat 8 ++ bytesLE now.toNat 8))
    let t := s.putTile r.holder (r.base.toNat / 8192 + 2 + a.toNat % r.slots.toNat) { d with payload := p }
    let times := (if r.slots.toNat ≤ r.times.length then r.times.drop 1 else r.times) ++ [now]
    t.putReel i ({ r with nextNo := a + 1, times }.age now)

/-- A core's whole-slot write that the span controller is to accept, with what its slot is. -/
def State.writeDue (s : State) (core k : Nat) : Option (InFlight × Nat × SlotRef × SlotKind × W64 × TileData) :=
  match (s.core core).spanDue k, s.partOf core with
  | some o, some part => match o.span with
    | .write a d _ => (s.writeStatus part a).2.map fun x => (o, part, x.1, x.2, a, d)
    | _ => none
  | _, _ => none

/-- A core's write to a port has been accepted. -/
def State.accepted (s : State) (core k : Nat) (o : InFlight) (a : W64) (d : TileData) : State :=
  s.served core k { o with span := .write a d true } 0

/-- REEL_APPEND (R384, R385): write `k` of a core, to an append port, is accepted. -/
def execReelAppend (core k : Nat) (s : State) : Res :=
  onUnit (coreOk core) (match s.writeDue core k with
    | some (o, _, _, .reelPort i, a, d) => (s.append i d).accepted core k o a d
    | _ => s)

/-! ### The batcher (R372 to R379) -/

/-- FEED (R373). -/
def execFeed (o : RingId) (s : State) : Res :=
  hostCommand o 0x47 s fun ref c s =>
    let n := gonPart c
    let slot := cmdField c 0x2a 2
    let tok := cmdField c 0x34 2
    let x := s.seq slot
    let fieldsOk := slotOk slot && cmdField c 0x2c 4 != 0 && decide (1 ≤ tok) && decide (tok ≤ 256)
      && gonUnused c false false false false false true false true false true false
    s.checked ref (s.partChecks n fieldsOk 0x051a ++ [
      (!(s.part n).batcher.on, 0x0532),
      (decide (x.st ≠ .opened) || decide (s.partOf (slot / 6) ≠ some n) || decide (x.ident.toNat ≠ cmdField c 0x2c 4), 0x0530),
      (x.fed.isSome || x.inStep, 0x0531)])
      fun s => ((s.setSeq slot { x with fed := some (BitVec.ofNat 16 tok), fedNo := (s.part n).batcher.feeds }).modPart n fun p =>
        { p with batcher := { p.batcher with feeds := p.batcher.feeds + 1 } }).complete ref 0

/-- BATCH_CFG (R372): at once, or when the running step ends. -/
def execBatchCfg (o : RingId) (s : State) : Res :=
  hostCommand o 0x48 s fun ref c s =>
    let n := gonPart c
    let a := gonAddr c
    let time := cmdField c 0x1c 4
    let window := cmdField c 0x34 2
    let inRange := decide (1 ≤ time) && decide (time ≤ 1000000) && decide (1 ≤ window) && decide (window ≤ 1536) && decide (cmdField c 0x36 1 ≤ 1)
    let stops := a == 0 && time == 0 && window == 0 && cmdField c 0x36 1 == 0
    let fieldsOk := tileAddrOk a && decide (a + 16384 ≤ 2 ^ 52) && (inRange || stops)
      && gonUnused c true false true false false true false false false true true
    s.checked ref (s.partChecks n fieldsOk 0x051a ++ [
      (a != 0 && !s.ownsAll n [extentOf a, extentOf (a + 8192)], 0x051a)])
      fun s => (s.modPart n fun p =>
        let b := { p.batcher with next := some (BitVec.ofNat 64 a, BitVec.ofNat 32 time, BitVec.ofNat 16 window, decide (cmdField c 0x36 1 = 1)) }
        { p with batcher := if b.stepRunning then b else b.apply }).complete ref 0

/-- The ready sequences of a partition. -/
def State.readySeqs (s : State) (part : Nat) : List Nat :=
  (s.slotsIn part).filter fun n => decide ((s.seq n).st = .opened) && (s.seq n).fed.isSome

/-- The number of the FEED of the oldest ready sequence of a partition. -/
def State.oldestFeed (s : State) (part : Nat) : Option Nat :=
  (s.readySeqs part).foldl (fun a n => some (match a with
    | none => (s.seq n).fedNo
    | some b => min b (s.seq n).fedNo)) none

/-- WINDOW_TIME_EXPIRY (R374): the window time has passed since the oldest ready sequence became ready. -/
def execWindowTimeExpiry (part : Nat) (s : State) : Res :=
  onUnit (partOk part) (
    match (s.part part).batcher.on, s.oldestFeed part with
    | true, some n => s.modPart part fun p => { p with batcher := { p.batcher with timeUp := some n } }
    | _, _ => s)

/-- The window time has passed for a sequence that is still ready (R374). -/
def State.windowOver (s : State) (part : Nat) : Bool :=
  match (s.part part).batcher.timeUp, s.oldestFeed part with
  | some a, some b => decide (b ≤ a)
  | _, _ => false

/-- A sequence's entry references the retiring version of its gondola. -/
def State.isRetiring (s : State) (x : SeqSlot) : Bool :=
  x.gondola != 0xffff && (let d := s.gondola x.gondola.toNat
    d.hasRetiring && x.version == d.retVersion && x.version != d.version)

/-- The entry of a slot in a step list (R376). -/
def State.stepEntry (s : State) (n : Nat) : StepEntry :=
  let x := s.seq n
  { slot := n, ident := x.ident, gondola := x.gondola, retiring := s.isRetiring x, tokens := (x.fed.getD 0).toNat }

/-- Sorted order: by gondola, retiring before current, by slot number (R375). -/
def StepEntry.key (e : StepEntry) : Nat := e.gondola.toNat * 4096 + (if e.retiring then 0 else 2048) + e.slot

/-- Insert an entry by its key. -/
def insertEntry (e : StepEntry) : List StepEntry → List StepEntry
  | [] => [e]
  | f :: r => if e.key ≤ f.key then e :: f :: r else f :: insertEntry e r

/-- The entries of the step to start (R374, R375). -/
def State.stepEntries (s : State) (part : Nat) : List StepEntry :=
  let grouped := (s.part part).batcher.grouped
  let l := ((s.readySeqs part).filter fun n => !grouped || decide ((s.seq n).env = 0)).map s.stepEntry
  if grouped then l else l.foldr insertEntry []

/-- Maximal runs of entries with one gondola and version (R375). -/
def subBatches : List StepEntry → Nat
  | [] => 0
  | [_] => 1
  | a :: b :: r => (if a.gondola = b.gondola ∧ a.retiring = b.retiring then 0 else 1) + subBatches (b :: r)

/-- The bytes of an entry (R376). -/
def StepEntry.bytes (e : StepEntry) : List Byte :=
  bytesLE e.slot 2 ++ bytesLE e.gondola.toNat 2 ++ [if e.retiring then 1#8 else 0#8, BitVec.ofNat 8 (e.tokens - 1)]

/-- The step list as a tile: the entries, then zeros; what does not fit the payload is side data (R376). -/
def stepTile (l : List StepEntry) : TileData :=
  let m := Mem.ofList (l.flatMap StepEntry.bytes)
  { payload := m.slice 0 8192, side := m.slice 8192 1024, sideLen := 6 * l.length - 8192 }

/-- The message of a step to a core (R376). -/
def stepMsg (part k : Nat) (no : W32) (grouped : Bool) (l : List StepEntry) : MeshMsg :=
  { src := 256 + part, dst := k, chan := 15, word0 := no
    word1 := BitVec.ofNat 64 (l.length + subBatches l * 2 ^ 16 + (if grouped then 2 ^ 32 else 0)), hint := 15, srcByte := BitVec.ofNat 8 k
    data := some (stepTile l) }

/-- The partition may start a step, its window and its list apart (R374). -/
def State.stepMay (s : State) (part : Nat) : Bool :=
  let b := (s.part part).batcher
  decide ((s.part part).st = .running) && b.on && !b.stepRunning && !b.blocked
    && (decide (b.window.toNat ≤ (s.readySeqs part).length) || s.windowOver part) && !(s.stepEntries part).isEmpty

/-- Channel 15 of every core of the partition has a depth (R377). -/
def State.stepDepth (s : State) (part : Nat) : Bool := (s.coresIn part).all fun k => decide (1 ≤ ((s.core k).chan 15).depth)

/-- A sequence is included in a step. -/
def State.include (s : State) (n : Nat) : State := s.setSeq n { s.seq n with fed := none, inStep := true }

/-- The batcher starts a step: the list goes to the step-list slot, and then to every core (R374 to R376). -/
def State.startStep (s : State) (part : Nat) : State :=
  let b := (s.part part).batcher
  let l := s.stepEntries part
  let no := b.stepNo + 1
  let t := l.foldl (fun t e => t.include e.slot) s
  let t := t.putTile part (b.ring.toNat / 8192) (stepTile l)
  t.modPart part fun p => { p with batcher := { b with
    stepNo := no, stepRunning := true, entries := l, timeUp := none, raised533 := false
    toSend := (s.coresIn part).map fun k => stepMsg part k no b.grouped l } }

/-- STEP_START (R374 to R377): with depth 0 in channel 15 the step is held and event 0x0533 raised once. -/
def execStepStart (part : Nat) (s : State) : Res :=
  onUnit (partOk part) (
    if s.stepMay part then
      if s.stepDepth part then s.startStep part
      else if (s.part part).batcher.raised533 then s
      else (s.modPart part fun p => { p with batcher := { p.batcher with raised533 := true } }).raise
        { status := 0x0533, part := some part, words := [part] }
    else s)

/-- What a step stored for an entry: tokens counted, in the sequence, its gondola and the partition (R331, R359, R378). -/
def State.countTokens (s : State) (part n k : Nat) : State :=
  let x := s.seq n
  let t := s.setSeq n { x with n := x.n + BitVec.ofNat 32 k }
  let t := t.modPart part fun p => p.count 7 k
  if x.gondola = 0xffff then t
  else
    let d := t.gondola x.gondola.toNat
    t.setGondola x.gondola.toNat ({ d with served := stickAdd d.served k }.progressBy 2 k)

/-- An entry of a step that ends, with its field of the step-done tile: tokens, then the token limit, the end bit and the bounded
grace, then the token boundary (R330, R378, R388). -/
def State.endEntry (s : State) (part : Nat) (e : StepEntry) (field : Nat) : State :=
  if (s.seq e.slot).ident = e.ident then
    let t := s.countTokens part e.slot (min (field % 512) e.tokens)
    let x := t.seq e.slot
    let t := if x.limit.toNat ≤ x.n.toNat then t.endSeq e.slot 0x0912 else t
    let t := if field / 512 % 2 = 1 then t.endSeq e.slot 0 else t
    (t.graceCheck e.slot).leaveStep e.slot
  else s

/-- The kind 4 entry of a step (R514). -/
def stepDoneEntry (part : Nat) (no : W32) (a : W64) : CplEntry :=
  { kind := 4, status := 0, part := BitVec.ofNat 8 part, detail := BitVec.ofNat 384 (no.toNat + a.toNat * 2 ^ 64) }

/-- The running step of a partition ends with a step-done tile (R378). -/
def State.endStep (s : State) (part : Nat) (p : Mem) (a : W64) : State :=
  let b := (s.part part).batcher
  let t := (b.entries.zipIdx).foldl (fun t e => t.endEntry part e.1 (p.readNat (64 + 2 * e.2) 2)) s
  let t := t.modPart part fun p => { p with batcher := { b with stepRunning := false, entries := [] }.apply }
  t.post (some part) (stepDoneEntry part b.stepNo a)

/-- STEP_DONE_WRITE (R378): write `k` of a core, to the step-done slot of its partition, is accepted. -/
def execStepDoneWrite (core k : Nat) (s : State) : Res :=
  onUnit (coreOk core) (match s.writeDue core k with
    | some (o, part, r, .stepDone, a, d) =>
      let t := (s.coreWrite part r (a.toNat / 8192) d).accepted core k o a d
      let b := (s.part part).batcher
      let no := d.payload.readNat 0 4
      if b.stepRunning && decide (no = b.stepNo.toNat) then t.endStep part d.payload a
      else t.raise { status := 0x0534, part := some part, words := [part, no] }
    | _ => s)

end Sys2Proof.Machine
end

