-- ==== Sys2Proof/Machine/HostCopy.lean ====
section
/-! DEFINITION. Host copies (R519, R520, R556, R558, R606). -/

namespace Sys2Proof.Machine

/-- The host address of a copy, and its length (R519). -/
def copyHost (c : BitVec 512) : W64 := BitVec.ofNat 64 (cmdField c 0x18 8)
def copyAddr (c : BitVec 512) : W64 := BitVec.ofNat 64 (cmdField c 0x10 8)
def copyLen (c : BitVec 512) : Nat := cmdField c 0x20 4

/-- The fields of a copy are as R519 gives. -/
def copyFieldsOk (c : BitVec 512) : Bool :=
  tetUnused c true true true false false && decide (1 ≤ copyLen c) && decide (copyLen c ≤ 2 ^ 30)
    && decide (cmdField c 0x10 8 + copyLen c ≤ 2 ^ 52) && decide (cmdField c 0x18 8 + copyLen c ≤ 2 ^ 64)

/-- A copy over a VF's ring of a partition that requires IDE, whose stream is not Secure (R558). -/
def State.ideBars (s : State) (n fn : Nat) : Bool := (s.part n).ideReq && fn != 0 && !(s.func fn).ideSecure

/-- The checks of a copy: its fields, its partition, the lock, IDE, and the faults of the span access (R519, R520, R556, R558). -/
def State.copyChecks (s : State) (ref : CmdRef) (c : BitVec 512) (write : Bool) : List (Bool × Nat) :=
  let n := tetPart c
  let f := s.bytesFault n (copyAddr c).toNat (copyLen c) write
  s.partChecks n (copyFieldsOk c) 0x0102 ++
    [(s.lockedAt n ref, 0x061a), (s.ideBars n ref.ring.fn, 0x061c), (f.isSome, f.getD 0)]

/-- A host-memory access has begun. -/
def State.addHostOp (s : State) (x : HostOp) : State := { s with hif := { s.hif with hostOps := s.hif.hostOps ++ [x] } }

/-- HOST_IN (R520): the copy runs until its host reads end. -/
def execHostIn (o : RingId) (s : State) : Res :=
  hostCommand o 0x08 s fun ref c s =>
    s.checked ref (s.copyChecks ref c true) fun s => s.addHostOp (.copyIn ref (tetPart c) (copyAddr c) (copyHost c) (copyLen c))

/-- HOST_OUT (R520): the copy runs until its host writes end. -/
def execHostOut (o : RingId) (s : State) : Res :=
  hostCommand o 0x09 s fun ref c s =>
    s.checkedRead ref (tetPart c) (copyAddr c).toNat (copyLen c) (s.copyChecks ref c false)
      fun s => s.addHostOp (.copyOut ref (tetPart c) (copyAddr c) (copyHost c) (copyLen c))

/-- The nonce of a request that a stream protects: its number since the stream became Secure (assumption 67). -/
def ideNonce (n : Nat) : List Byte := bytesBE n 12

/-- Bytes of a copy go to host memory: over a VF's Secure stream encrypted and authenticated with AES-256-GCM under its key (R557). -/
def State.writeHost (s : State) (fn : Nat) (addr : W64) (m : Mem) (len : Nat) : State :=
  let f := s.func fn
  match f.ideKey with
  | some k =>
    if f.ideSecure && fn != 0 then
      let c := gcmCrypt (wordBytes k) (ideNonce f.ideCount) (m.toList 0 len)
      (s.setFunc fn { f with ideCount := f.ideCount + 1 }).emit (.ideWrite fn addr len c (gcmTag (wordBytes k) (ideNonce f.ideCount) [] c))
    else s.emit (.hostWrite fn addr m len)
  | none => s.emit (.hostWrite fn addr m len)

/-- What has stayed in the span of a copy that stops before its end: nothing, or as much as had been copied, which is counted (R520, R606). -/
def State.copyInPart (s : State) (part addr len : Nat) : State :=
  let l := (Config.copied s.free).take len
  let t := s.tick
  if (t.bytesFault part addr l.length true).isNone then (t.spanWrite part addr l.length (Mem.ofList l)).count (some part) 6 l.length else t

/-- What has reached host memory of a copy that stops before its end, which is counted (R520, R606). -/
def State.copyOutPart (s : State) (ref : CmdRef) (part addr : Nat) (host : W64) (len : Nat) : State :=
  let n := min (Config.copied s.free).length len
  let t := s.tick
  if (t.bytesFault part addr n false).isNone && decide (0 < n) then
    (t.writeHost ref.ring.fn host (t.spanRead part addr n) n).count (some part) 6 n
  else t

/-- A copy stops before its end with a status: what has been copied stays (R520, R558). -/
def State.stopCopyOp (s : State) (x : HostOp) (st : Nat) : State :=
  match x with
  | .copyIn ref part addr _ len => (s.copyInPart part addr.toNat len).complete ref st
  | .copyOut ref part addr host len => (s.copyOutPart ref part addr.toNat host len).complete ref st
  | .bind ref _ _ => s.complete ref st
  | .importTiles ref _ _ _ _ _ => s.complete ref st
  | .attest ref _ _ => s.complete ref st

/-- The fault of the span that a copy meets at its end, or 0x0223 where its partition has gone. -/
def State.copyEnds (s : State) (part addr len : Nat) (write : Bool) : Option Nat :=
  if s.hasPart part then s.bytesFault part addr len write else some 0x0223

/-- HOST_IN ends: the bytes are written as R286 gives, and the copy is counted (R520, R606). -/
def State.endCopyIn (s : State) (ref : CmdRef) (part addr : Nat) (l : List Byte) : State :=
  match s.copyEnds part addr l.length true with
  | some st => s.complete ref st
  | none => ((s.spanWrite part addr l.length (Mem.ofList l)).count (some part) 6 l.length).complete ref 0

/-- HOST_OUT ends: the bytes have reached host memory, and the copy is counted; one that has met poison says so (R319, R520, R606). -/
def State.endCopyOut (s : State) (ref : CmdRef) (part addr : Nat) (host : W64) (len : Nat) : State :=
  let f := s.copyEnds part addr len false
  s.checkedRead ref part addr len [(f.isSome, f.getD 0)] fun s =>
    let t := (s.countReads part addr len).writeHost ref.ring.fn host (s.spanRead part addr len) len
    (t.count (some part) 6 len).complete ref 0

end Sys2Proof.Machine
end

