-- ==== Sys2Proof/Machine/HostIf.lean ====
section
/-! DEFINITION. The host link, the functions, the rings and their doorbells (R503 to R518, R536). -/

namespace Sys2Proof.Machine

/-- A function number that exists: 0 the PF, n + 1 VF n (R503). -/
def fnOk (fn : Nat) : Bool := decide (fn ≤ 32)

/-- A function's vectors: 17 of the PF, 4 of a VF (R518). -/
def vecOk (fn vec : Nat) : Bool := fnOk fn && decide (vec < (if fn = 0 then 17 else 4))

/-- The ring of a key of the ring table. -/
def ringOfKey (k : Nat) : RingId := { fn := k / 16, ring := k % 16 }

/-- What a function may post and fetch again: its waiting entries and its pending vectors (R56, R507, R518). -/
def State.resume (s : State) (fn : Nat) : State :=
  let t := (List.range 16).foldl (fun t r => t.settle { fn, ring := r }) s
  (List.range 17).foldl (fun t v => t.firePending fn v) t

/-- The host reaches a function's registers: link active, out of reset, Ready reached, VFs enabled (R80, R81, R103). -/
def State.hostReach (s : State) (fn : Nat) : Bool :=
  s.hif.linkUp && s.su.perstN && s.su.stage == 0x0b && (decide (fn = 0) || s.hif.vfsEnabled)

/-- The PCIe side of a function after a reset of it: bus mastering and MSI-X disabled, as PCIe gives; its ring selector and
its IDE stream stay (R507, assumption 9). -/
def Func.pcieReset (f : Func) : Func := { rsel := f.rsel, ideKey := f.ideKey, ideSecure := f.ideSecure, ideCount := f.ideCount }

/-- Configuration accesses reach a function: link active, out of reset, and a VF once the VFs are enabled. That a run-time halt leaves the VFs
enabled, so that they answer as the PF does, is the model's choice (R56, R80, R106, assumption 97). -/
def State.configReach (s : State) (fn : Nat) : Bool := s.hif.linkUp && s.su.perstN && (decide (fn = 0) || s.hif.vfsEnabled)

/-- The host link leaves its active state: HIF_LINK reads 0 and LINKDOWN is set; the manual lists no status for its event (R536). -/
def State.hostLinkDown (s : State) : State :=
  if s.hif.linkUp then
    ({ s with hif := { s.hif with linkUp := false, speed := 0, width := 0, flit := false } }).hifEvent 0 { status := unlistedCode 1 }
  else s

/-- PERST_ASSERT (R56, R507): the host interface is held in reset, and its link leaves the active state; rings, ring registers and partitions
stay. -/
def execPerstAssert (s : State) : Res :=
  .next ({ s with
    su := { s.su with perstN := false }
    hif := { s.hif with funcs := SMap.mapVals Func.blank (fun _ f => f.pcieReset) s.hif.funcs } }).hostLinkDown

/-- PERST_RELEASE (R80). -/
def execPerstRelease (s : State) : Res := .next { s with su := { s.su with perstN := true } }

/-- CONFIG_REQUEST (R80, R106, R518): a configuration access of the PF, or of a VF once enabled; it may switch MSI-X or mask a
vector, and while MSI-X is disabled nothing is held pending. The answer shows the start-up word, which the function exposes at every stage. -/
def execConfigRequest (fn : Nat) (op : ConfigOp) (s : State) : Res :=
  onUnit (match op with
    | .msixMask vec => vecOk fn vec
    | _ => fnOk fn)
  (if s.configReach fn then
    let f := s.func fn
    let t := match op with
      | .read => s
      | .msixEnable on => s.setFunc fn { f with msixEnable := on, pendingVec := if on then f.pendingVec else 0 }
      | .msixMask vec => s.setFunc fn { f with masked := setBit f.masked vec }
    t.emit (.config fn t.startupWord)
  else s)

/-- HOST_LINK_ACTIVE (R55, R536): the link has trained; entries and interrupts that waited for it go out. -/
def execHostLinkActive (speed : BitVec 4) (width : BitVec 3) (flit : Bool) (s : State) : Res :=
  .next (if s.su.hxRail && s.su.perstN && !s.hif.linkUp && decide (1 ≤ speed.toNat) && decide (speed.toNat ≤ 7)
      && (width == 1 || width == 2 || width == 4) then
    (List.range 33).foldl State.resume { s with hif := { s.hif with linkUp := true, speed, width, flit } }
  else s)

/-- HOST_LINK_DOWN (R536). -/
def execHostLinkDown (s : State) : Res :=
  .next s.hostLinkDown

/-- FUNCTION_LEVEL_RESET (R507): like the next three a configuration write, which a function held in reset or off its link does not see (R56). -/
def execFunctionLevelReset (fn : Nat) (s : State) : Res :=
  onUnit (fnOk fn) (if s.configReach fn then s.setFunc fn (s.func fn).pcieReset else s)

/-- BUS_MASTER_DISABLE (R507). -/
def execBusMasterDisable (fn : Nat) (s : State) : Res :=
  onUnit (fnOk fn) (if s.configReach fn then s.setFunc fn { s.func fn with busMaster := false } else s)

/-- BUS_MASTER_ENABLE (R507): posting resumes. -/
def execBusMasterEnable (fn : Nat) (s : State) : Res :=
  onUnit (fnOk fn) (if s.configReach fn then (s.setFunc fn { s.func fn with busMaster := true }).resume fn else s)

/-- MSIX_UNMASK (R518): a pending message is sent. -/
def execMsixUnmask (fn vec : Nat) (s : State) : Res :=
  onUnit (vecOk fn vec) (if s.configReach fn then
    (s.setFunc fn { s.func fn with masked := clearBit (s.func fn).masked vec }).firePending fn vec
  else s)

/-- HIF_DB_CMD (R510, R517): a new command tail; discarded for a disabled ring or an index outside it. -/
def execHifDbCmd (o : RingId) (value : W32) (s : State) : Res :=
  onUnit o.valid (
    let r := s.ring o
    let tail := bits value 0 16
    if s.hostReach o.fn && r.enable && decide (tail.toNat < r.size) then s.setRing o { r with cmdTail := tail } else s)

/-- Completion entries between two heads of a ring. -/
def Ring.returned (r : Ring) (head : W16) : Nat := (head.toNat + r.size - r.cplHead.toNat) % r.size

/-- HIF_DB_CPL (R508, R513, R517): completion entries return, and what waited for room is written. -/
def execHifDbCpl (o : RingId) (value : W32) (s : State) : Res :=
  onUnit o.valid (
    let r := s.ring o
    let head := bits value 0 16
    if s.hostReach o.fn && r.enable && decide (head.toNat < r.size) then
      (s.setRing o { r with cplHead := head, entries := r.entries.drop (r.returned head) }).settle o
    else s)

/-- The ring a function's HIF_RSEL selects (R536). -/
def State.selected (s : State) (fn : Nat) : RingId :=
  { fn, ring := if fn = 0 then (s.func fn).rsel.toNat else (s.func fn).rsel.toNat % 4 }

/-- The coalescing fields of a write of HIF_R_CFG, and LOG2 where the ring is not enabled (R509, R536). -/
def Ring.cfgFields (r : Ring) (v : W32) : Ring :=
  { r with coalCnt := bits v 8 8, coalUs := bits v 0 8, log2 := if r.enable then r.log2 else bits v 16 5 }

/-- A ring pair at the start of an enabling (R509). -/
def Ring.opened (r : Ring) : Ring :=
  { r with
    enable := true, cmdHead := 0, cmdTail := 0, cplHead := 0, cplTail := 0, phase := true, entries := [], unsignalled := 0
    epoch := r.epoch + 1 }

/-- A ring pair as disabling leaves it: fetching stops and the completions of its commands are discarded (R509). -/
def Ring.closed (r : Ring) : Ring :=
  { r with
    enable := false, entries := [], unsignalled := 0, epoch := r.epoch + 1
    waiting := r.waiting.filter fun e => e.kind ≠ 1 }

/-- RING_ENABLE (R509): a write of HIF_R_CFG with ENABLE 1. -/
def execRingEnable (fn : Nat) (value : W32) (s : State) : Res :=
  onUnit (fnOk fn) (if s.hostReach fn && bit value 31 then
    let o := s.selected fn
    let r := (s.ring o).cfgFields value
    if r.enable then s.setRing o r else (s.setRing o r.opened).settle o
  else s)

/-- RING_DISABLE (R509): a write of HIF_R_CFG with ENABLE 0. -/
def execRingDisable (fn : Nat) (value : W32) (s : State) : Res :=
  onUnit (fnOk fn) (if s.hostReach fn && !bit value 31 then
    let o := s.selected fn
    let r := (s.ring o).cfgFields value
    s.setRing o (if r.enable then r.closed else r)
  else s)

/-- A reserved header field of a command is not zero (R511). -/
def headerBad (c : BitVec 512) : Bool := !(cmdField c 1 1 / 2 == 0 && cmdZero c 2 2 && cmdZero c 8 8)

/-- A VF's ring does not accept the command (R512). -/
def vfRefuses (fn : Nat) (c : BitVec 512) : Bool :=
  decide (fn ≠ 0) && !(decide (cmdOp c ∈ vfOpcodes) && (cmdPart c).toNat + 1 == fn)

/-- The status of a command that no row carries out: an unknown opcode or a bad header, or one that the function's ring does not
accept (R511, R512). -/
def fetchFault (fn : Nat) (c : BitVec 512) : Option Nat :=
  firstFail [(!(decide (cmdOp c ∈ opcodes)) || headerBad c, 0x0101), (vfRefuses fn c, 0x0103)]

/-- COMMAND_FETCH (R510 to R512): the next command of a ring, `cmd` being the 64 bytes its slot holds, is fetched once a
completion entry is free for it. A command that `fetchFault` refuses starts and completes with its fetch, which therefore waits until
the commands before it have started and, with the fence flag, have completed. -/
def execCommandFetch (o : RingId) (cmd : BitVec 512) (s : State) : Res :=
  onUnit o.valid (
    let r := s.ring o
    if s.canPost o.fn && r.enable && r.cmdHead != r.cmdTail && r.room then
      let r' := { r with cmdHead := if r.cmdHead.toNat + 1 = r.size then 0 else r.cmdHead + 1 }
      match fetchFault o.fn cmd with
      | none => s.setRing o { r' with fetched := r.fetched ++ [(r.epoch, cmd)] }
      | some st =>
        if r.fetched.isEmpty && (!(bit cmd 8) || r.running.isEmpty) then
          (s.setRing o { r' with running := r.epoch :: r.running }).complete (cmdRef o r.epoch cmd) st
        else s
    else s)

/-- COALESCE_TIMER_EXPIRY (R518): COAL_US has passed since the first unsignalled entry. -/
def execCoalesceTimerExpiry (o : RingId) (s : State) : Res :=
  onUnit o.valid (
    let r := s.ring o
    if r.enable && r.coalUs != 0 && decide (0 < r.unsignalled) then
      (s.setRing o { r with unsignalled := 0 }).fire o.fn o.vector
    else s)

end Sys2Proof.Machine
end

