-- ==== Sys2Proof/Machine/Fec.lean ====
section
/-! DEFINITION. The code of the links (R393): one codeword RS(576, 512) over GF(2^10) for each frame of 640 bytes, up to 32 symbol errors
corrected, its symbols dealt to the port's lanes in turn. The manual gives neither the field's polynomial nor the code's first root: both are free.
The code is linear, so what a decoder does depends on the errors alone. -/

namespace Sys2Proof.Machine

/-- A symbol of a link codeword. -/
abbrev Sym := BitVec 10

/-- Twice a field element. -/
def symDouble (a : Sym) : Sym := if a.getLsbD 9 then (a <<< 1) ^^^ Config.fecPoly else a <<< 1

/-- A field element times a number below 2^n, the highest bit first. -/
def symTimes (a : Sym) (b : Nat) : Nat → Sym
  | 0 => 0
  | n + 1 => symDouble (symTimes a (b / 2) n) ^^^ (if b % 2 = 1 then a else 0)

/-- A power of x. -/
def symPow : Nat → Sym
  | 0 => 1
  | n + 1 => symDouble (symPow n)

/-- A syndrome of an error pattern, a list of positions and differences. -/
def symSyndrome (e : List (Nat × Sym)) (j : Nat) : Sym :=
  e.foldl (fun a x => a ^^^ symTimes x.2 (symPow ((Config.fecFirst + j) * x.1 % 1023)).toNat 10) 0

/-- The differences are those of two codewords: all 64 syndromes are 0. -/
def symCodeword (e : List (Nat × Sym)) : Bool := (List.range 64).all fun j => symSyndrome e j == 0

/-- The lanes that a port uses, of those in service: all eight, or the half that is whole, the lower one first (R394). -/
def lanesUsed (lanes : Byte) : List Nat :=
  if lanes = 0xff then List.range 8
  else if lanes.toNat % 16 = 15 then List.range 4
  else if lanes.toNat / 16 = 15 then (List.range 4).map (· + 4)
  else []

/-- The position in its codeword of a symbol of a lane: the symbols are dealt to the lanes in use in turn. -/
def symbolPosition (used : List Nat) (e : LaneErr) : Option Nat := (used.findIdx? (· == e.lane)).map fun j => used.length * e.index + j

/-- The differences at the symbols of a codeword: one for each position, those of 0 left out. -/
def symPattern (l : List (Nat × Sym)) : List (Nat × Sym) :=
  if l.isEmpty then []
  else (List.range 576).filterMap fun p =>
    let x := (l.filter fun y => decide (y.1 = p)).foldl (fun a y => a ^^^ y.2) (0 : Sym)
    if x = 0 then none else some (p, x)

/-- The errors of a codeword as it came over the lanes in use. -/
def codewordErrors (used : List Nat) (l : List LaneErr) : List (Nat × Sym) :=
  symPattern (l.filterMap fun e => (symbolPosition used e).map fun p => (p, e.diff))

/-- What the decoder of a port makes of a codeword: whether it corrected it, whether it found it uncorrectable, and the differences that stay. -/
structure FecOut where
  corrected : Bool := false
  lost : Bool := false
  left : List (Nat × Sym) := []
deriving DecidableEq, Repr

/-- Up to 32 errors are corrected. Of more, the decoder finds the codeword uncorrectable, or makes another codeword of it by at most 32 changes:
which, the manual leaves open (R393). -/
def fecDecode (e : List (Nat × Sym)) : FecOut :=
  if e.isEmpty then {}
  else if e.length ≤ 32 then { corrected := true }
  else match (Config.fecChanges e).map symPattern with
    | none => { lost := true }
    | some f =>
      let left := symPattern (e ++ f)
      if f.length ≤ 32 && symCodeword left then { corrected := !f.isEmpty, left } else { lost := true }

/-- A frame's bytes with differences left in them: symbol i holds bits 10i to 10i + 9 (assumption 101). -/
def spoiledFrame (rx : FrameRx) (left : List (Nat × Sym)) : FrameRx :=
  if left.isEmpty then rx
  else
    let l := fitBytes 16 rx.head ++ fitBytes 608 rx.payload ++ fitBytes 16 rx.check
    let d := left.foldl (fun a x => if x.1 < 512 then a + x.2.toNat * 2 ^ (10 * x.1) else a) 0
    let m := bytesLE (natLE l ^^^ d) 640
    { rx with head := m.take 16, payload := (m.drop 16).take 608, check := m.drop 624 }

end Sys2Proof.Machine
end

