-- ==== Sys2Proof/Machine/LinkOps.lean ====
section
/-! DEFINITION. Operations on the links: positions and ports, frames and their numbers, routes, digests, holding and losing a port
(R392 to R408, R424 to R426, R460, R461). -/

namespace Sys2Proof.Machine

/-! ### Positions and wiring (R66 to R69, R403) -/

/-- A position: rack X, rack Y, board and site, one byte each, rack X lowest. -/
def mkPos (x y b s : Nat) : W32 := BitVec.ofNat 32 (x + y * 2 ^ 8 + b * 2 ^ 16 + s * 2 ^ 24)
def posX (p : W32) : Nat := p.toNat % 256
def posY (p : W32) : Nat := p.toNat / 2 ^ 8 % 256
def posB (p : W32) : Nat := p.toNat / 2 ^ 16 % 256
def posS (p : W32) : Nat := p.toNat / 2 ^ 24 % 256

/-- This module's position; rack coordinates read 0xff without a site configuration (R89, R91, R429). -/
def State.me (s : State) : W32 :=
  match s.siteConfig with
  | none => mkPos 0xff 0xff s.su.board.toNat s.su.site.toNat
  | some m => mkPos (m.byte 0).toNat (m.byte 1).toNat s.su.board.toNat s.su.site.toNat

/-- The position that the wiring rules put at the other end of a port (R66 to R68). -/
def wiredPeer (me : W32) (p : Nat) : W32 :=
  let x := posX me
  let y := posY me
  let b := posB me
  let s := posS me
  if p < 7 then mkPos x y b ((s + p + 1) % 8)
  else if p < 14 then mkPos x y ((b + (p - 7) + 1) % 8) s
  else if p = 14 then mkPos ((x + 1) % 16) y b s
  else if p = 15 then mkPos ((x + 15) % 16) y b s
  else if p = 16 then mkPos x ((y + 1) % 16) b s
  else mkPos x ((y + 15) % 16) b s

/-- A peer is the one the wiring rules require; without rack coordinates board and site decide (R69, R91). -/
def State.wiringOk (s : State) (p : Nat) (peer : W32) : Bool :=
  let w := wiredPeer s.me p
  if s.siteConfig.isSome then peer == w else posB peer == posB w && posS peer == posS w

/-- A port carries traffic: Up or Degraded (R395). -/
def Port.live (p : Port) : Bool := p.st == .up || p.st == .degraded
def State.live (s : State) (p : Nat) : Bool := (s.port p).live

/-- The port from index `a` to index `b` among eight, 0 to 6 (R66, R67). -/
def portTo (a b : Nat) : Nat := (b + 7 - a) % 8

/-- A hop of a board or rack, by its port or through the lowest-numbered other index that a live port reaches (R403). -/
def State.hopAmong (s : State) (base a b : Nat) : Option Nat :=
  if s.live (base + portTo a b) then some (base + portTo a b)
  else ((List.range 8).find? fun o => o != a && o != b && s.live (base + portTo a o)).map fun o => base + portTo a o

/-- The port by which a torus hop leaves: a unit that came along the ring goes on the way it came, so that a detour is not turned back; any
other takes the shorter way round, plus at equal distance (R403, assumption 86). -/
def ringPort (plus a b : Nat) (arr : Option Nat) : Nat :=
  if arr = some plus then plus + 1
  else if arr = some (plus + 1) then plus
  else if (b + 16 - a) % 16 ≤ 8 then plus else plus + 1

/-- A torus hop from `a` to `b` of a unit that came by `arr`: the other way round where its port is down (R403). -/
def State.hopRing (s : State) (plus a b : Nat) (arr : Option Nat) : Option Nat :=
  let first := ringPort plus a b arr
  let other := 2 * plus + 1 - first
  if s.live first then some first else if s.live other then some other else none

/-- The port of the next hop to a position, for a unit that came by `arr`, or of the module's own (R403); none at the position itself, or where
no detour exists. -/
def State.nextPort (s : State) (dst : W32) (arr : Option Nat := none) : Option Nat :=
  let me := s.me
  if posX me ≠ posX dst then s.hopRing 14 (posX me) (posX dst) arr
  else if posY me ≠ posY dst then s.hopRing 16 (posY me) (posY dst) arr
  else if posB me ≠ posB dst then s.hopAmong 7 (posB me) (posB dst)
  else if posS me ≠ posS dst then s.hopAmong 0 (posS me) (posS dst)
  else none

/-! ### Frames (R397 to R400) -/

/-- Payload bytes of a frame (R399). -/
def framePayload : Nat := 608

/-- A frame's header and its payload area (R399). -/
def Frame.head (f : Frame) : List Byte :=
  [BitVec.ofNat 8 f.ftype, BitVec.ofNat 8 (f.cls + (if f.firstF then 4 else 0) + (if f.lastF then 8 else 0) + (if f.retry then 16 else 0))]
    ++ bytesLE f.payload.length 2 ++ bytesLE f.seq.toNat 4 ++ bytesLE f.ack.toNat 4 ++ [f.part, 0, 0, 0]
def Frame.body (f : Frame) : List Byte := fitBytes framePayload f.payload

/-- The frame that a header and a payload area spell (R399). -/
def frameOf (head body : List Byte) : Frame :=
  let x := natLE (seg head 1 1)
  { ftype := natLE (seg head 0 1), cls := x % 4, firstF := x / 4 % 2 == 1, lastF := x / 8 % 2 == 1, retry := x / 16 % 2 == 1
    seq := BitVec.ofNat 32 (natLE (seg head 4 4)), ack := BitVec.ofNat 32 (natLE (seg head 8 4)), part := BitVec.ofNat 8 (natLE (seg head 0xc 1))
    payload := body.take (natLE (seg head 2 2)) }

/-- The check field of ports 0 to 13: the CRC-64 of header and payload, then 8 zero bytes (R397). -/
def crcCheck (head body : List Byte) : List Byte := wordBytes (crc64 (head ++ body)) ++ List.replicate 8 0

/-- The kind byte of an Identity message (R402). -/
def kindIdentity : Byte := 4

/-- An idle frame, or a control frame that carries an Identity message: what a port sends before it has keys (assumption 87). -/
def Frame.isOpen (f : Frame) : Bool := f.ftype == 0 || (f.ftype == 2 && f.payload.head? == some kindIdentity)

/-- A frame as it travels: its payload area and its check field (R397). A port between racks has no new keys until it has authenticated: until
then its idle frames and Identity messages travel as those within the rack do, and what else it sends again travels under the keys that it had before
(assumption 87). -/
def Port.protect (x : Port) (f : Frame) : List Byte × List Byte :=
  if x.keyed || (x.keys && !f.isOpen) then
    let c := gcmCrypt (wordBytes x.tx.key) x.tx.nonce f.body
    (c, gcmTag (wordBytes x.tx.key) x.tx.nonce f.head c)
  else (f.body, crcCheck f.head f.body)

/-- A frame under the keys of a port, its tag tested and its payload decrypted; none where the test fails. -/
def Port.unseal (x : Port) (rx : FrameRx) : Option Frame :=
  if rx.check = gcmTag (wordBytes x.rx.key) x.rx.nonce rx.head rx.payload then
    some (frameOf rx.head (gcmCrypt (wordBytes x.rx.key) x.rx.nonce rx.payload))
  else none

/-- A frame as it is received, its check field tested (R397, R398); none where the test fails. A port between racks without new keys takes idle
frames and Identity messages alone as those within the rack travel. -/
def Port.unprotect (x : Port) (inRack : Bool) (rx : FrameRx) : Option Frame :=
  if x.keyed then x.unseal rx
  else if rx.check = crcCheck rx.head rx.payload ∧ (inRack = true ∨ (frameOf rx.head rx.payload).isOpen = true) then some (frameOf rx.head rx.payload)
  else if x.keys then x.unseal rx
  else none

/-- A frame leaves on a port, while the link lanes are driven; its codeword is counted (R106, R397). -/
def State.emitFrame (s : State) (p : Nat) (f : Frame) : State :=
  if s.su.linksDriven then
    let x := s.port p
    let w := x.protect f
    (s.setPort p { x with tx := x.tx.tick }).emit (.frame p f.head w.1 w.2)
  else s

/-- A data or control frame leaves: it takes the next number and is kept until it is acknowledged (R400). -/
def State.sendFrame (s : State) (p : Nat) (f : Frame) : State :=
  let x := s.port p
  let f := { f with seq := x.txNext, ack := x.rxLast }
  (s.setPort p { x with txNext := x.txNext + 1, unacked := x.unacked ++ [f] }).emitFrame p f

/-- An idle frame leaves, with a retry request or without (R399, R400). -/
def State.sendIdle (s : State) (p : Nat) (retry : Bool) : State :=
  let x := s.port p
  s.emitFrame p { ftype := 0, cls := 0, retry, seq := x.txNext, ack := x.rxLast }

/-- A port receives and answers frames. -/
def Port.hears (x : Port) : Bool := x.live || x.st == .authenticating

/-- Control messages that a port can send now: while it hears its peer and at most 1,024 frames stay unacknowledged (R400, R401). -/
def State.controlRoom (s : State) (p : Nat) : Nat :=
  if s.su.linksDriven && (s.port p).hears then 1024 - (s.port p).unacked.length else 0

/-- A control message may leave on a port now: on a port between racks that authenticates, an Identity message alone (R397). -/
def Port.mayLeave (x : Port) (p : Nat) (m : List Byte) : Bool := x.live || decide (p < 14) || m.head? == some kindIdentity

/-- The control messages that wait leave in their order, one in each frame, as far as they can (R400 to R402). -/
def State.flushControl (s : State) (p : Nat) : State :=
  let x := s.port p
  let n := s.controlRoom p
  let go := x.ctlWait.filter (x.mayLeave p)
  (go.take n).foldl (fun t m => t.sendFrame p { ftype := 2, cls := 0, firstF := true, lastF := true, payload := m })
    (s.setPort p { x with ctlWait := go.drop n ++ x.ctlWait.filter fun m => !x.mayLeave p m })

/-- A control message is to leave: a byte for its kind, in the order of R402, then its content. -/
def State.sendControl (s : State) (p kind : Nat) (body : List Byte) : State :=
  (s.modPort p fun x => { x with ctlWait := x.ctlWait ++ [BitVec.ofNat 8 kind :: body] }).flushControl p

/-- A refusal message, to the module that sent what is refused: after the content of R402, where it goes (R422, assumption 30). -/
def State.sendRefusal (s : State) (port st bucket : Nat) (step origin dst : W32) : State :=
  s.sendControl port 3 (bytesLE st 2 ++ bytesLE bucket 2 ++ bytesLE step.toNat 4 ++ bytesLE origin.toNat 4 ++ bytesLE dst.toNat 4)

/-- Every unacknowledged frame leaves again, counted (R400, R429). -/
def State.resend (s : State) (p : Nat) : State :=
  let fs := (s.port p).unacked
  fs.foldl (fun s f => s.emitFrame p { f with ack := (s.port p).rxLast }) s

/-- A link error counter reached its largest value: CNTSTUCK and event 0x0424, once (R430). -/
def State.lnkStuck (s : State) (p : Nat) (before after : W32) (offset : Nat) : State :=
  if after = BitVec.allOnes 32 ∧ before ≠ BitVec.allOnes 32 then s.lnkEvent 5 { status := 0x0424, words := [p, offset] } else s

/-- Frames resent are counted in LNK_P_RETRY. -/
def State.resendCounted (s : State) (p : Nat) : State :=
  let x := s.port p
  let v := stickAdd x.retries x.unacked.length
  ((s.setPort p { x with retries := v }).lnkStuck p x.retries v 0x054).resend p

/-! ### States of a port (R394, R395, R401) -/

/-- A link fault of the link stage is the most recent start-up status (R75, R101). -/
def State.stageStatus (s : State) (st : Nat) : State :=
  if s.su.stage = 0x09 then { s with su := { s.su with status := BitVec.ofNat 16 st } } else s

/-- A port is Held with a fault status: LNK_P_STATE shows it, its event is raised, and in the link stage it is recorded (R101, R395). -/
def State.holdPort (s : State) (p st : Nat) (bit_ : Nat := 1) : State :=
  let t := s.modPort p fun x => { x with st := .held, status := BitVec.ofNat 16 st }
  let t := { t with lnk := { t.lnk with event := setBit t.lnk.event 1 } }
  let t := t.lnkEvent bit_ { status := st, words := [p] }
  t.stageStatus st

/-- A port is Lost: event 0x0410 with the port and the peer position (R401). -/
def State.losePort (s : State) (p : Nat) : State :=
  (s.modPort p fun x => { x with st := .lost, resends := 0 }).lnkEvent 2 { status := 0x0410, words := [p, (s.port p).peer.toNat] }

/-! ### Digests (R424 to R426) -/

/-- H of a chunk header and payload (R424). -/
def chunkHash (l : List Byte) : BitVec 128 := BitVec.ofNat 128 (natLE ((sha384 l).take 16))

/-- A step of a list has at least two others after it. -/
def stale (l : List W32) (t : W32) : Bool := decide (2 ≤ (l.eraseDups.filter fun u => newer u t).length)

/-- The records of a bucket but for those of steps that two later ones have followed (R426). -/
def State.pruneDigests (s : State) (bucket : Nat) : State :=
  let steps := (s.lnk.digests.filter fun d => decide (d.bucket = bucket)).map (·.step)
  { s with lnk := { s.lnk with
    digests := s.lnk.digests.filter fun d => !(decide (d.bucket = bucket) && stale steps d.step)
    choices := s.lnk.choices.filter fun d => !(decide (d.bucket = bucket) && stale steps d.step) } }

/-- Change the record of a bucket, step and port; port 0xfe is the post port, 0xff delivery (R425). -/
def State.digest (s : State) (bucket : Nat) (step : W32) (port : Nat) (f : DigestRec → DigestRec) : State :=
  let hit := fun (d : DigestRec) => decide (d.bucket = bucket) && decide (d.step = step) && decide (d.port = port)
  let l := if s.lnk.digests.any hit then s.lnk.digests.map fun d => if hit d then f d else d
    else s.lnk.digests ++ [f { bucket, step, port }]
  ({ s with lnk := { s.lnk with digests := l } }).pruneDigests bucket

/-- A chunk is sent, posted; taken, delivered; or discarded. -/
def DigestRec.addSent (d : DigestRec) (h : BitVec 128) : DigestRec := { d with sentN := d.sentN + 1, sent := d.sent + h }
def DigestRec.addTaken (d : DigestRec) (h : BitVec 128) : DigestRec := { d with takenN := d.takenN + 1, taken := d.taken + h }
def DigestRec.addDisc (d : DigestRec) (h : BitVec 128) : DigestRec := { d with discN := d.discN + 1, disc := d.disc + h }

/-! ### Sending units (R399, R403, R404) -/

/-- Frames that a unit fills (R399). -/
def frameCount (len : Nat) : Nat := max 1 (ceilDiv len framePayload)

/-- The frames of a unit, in order. -/
def unitFrames (cls part : Nat) (l : List Byte) : List Frame :=
  let n := frameCount l.length
  (List.range n).map fun i =>
    { ftype := 1, cls, firstF := decide (i = 0), lastF := decide (i + 1 = n), part := BitVec.ofNat 8 part
      payload := (l.drop (framePayload * i)).take framePayload }

/-- Credit of a class on a port (R404). -/
def Port.credit (x : Port) (cls : Nat) : Nat := if cls = 1 then x.creditRed else x.creditTrf

/-- A port can take a unit of a class: it is live, has the credit, and at most 1,024 frames stay unacknowledged (R400, R404). -/
def Port.takes (x : Port) (cls n : Nat) : Bool := x.live && decide (n ≤ x.credit cls) && decide (x.unacked.length + n ≤ 1024)

/-- A unit leaves on a port: its frames, its credit, its bytes against the partition's share, and for a chunk the sent digest
(R404, R424, R606). -/
def State.sendOn (s : State) (p part cls : Nat) (l : List Byte) : State :=
  let n := frameCount l.length
  let t := s.modPort p fun x => if cls = 1 then { x with creditRed := x.creditRed - n } else { x with creditTrf := x.creditTrf - n }
  let t := (unitFrames cls part l).foldl (fun t f => t.sendFrame p f) t
  let t := t.count (if part < 32 then some part else none) 5 l.length
  if cls = 1 then t.digest (natLE (l.take 2)) (BitVec.ofNat 32 (natLE ((l.drop 8).take 4))) p fun d => d.addSent (chunkHash l) else t

/-- The port that can take a unit of `len` bytes towards a position now: the link lanes are driven, and the port of the next hop has room
(R106, R403, R404). -/
def State.sendPort (s : State) (cls len : Nat) (dst : W32) (arr : Option Nat := none) : Option Nat :=
  (s.nextPort dst arr).filter fun p => s.su.linksDriven && (s.port p).takes cls (frameCount len)

/-- Send a unit that came by `arr`, or of the module's own, towards a position, if a port can take it. A partition of no number counts against no
share. -/
def State.trySend (s : State) (part cls : Nat) (dst : W32) (l : List Byte) (arr : Option Nat := none) : Option State :=
  (s.sendPort cls l.length dst arr).map fun p => s.sendOn p part cls l

/-- Send a unit of the module's own, or keep it until it can be sent (R403, R418). -/
def State.dispatch (s : State) (part cls : Nat) (dst : W32) (l : List Byte) : State :=
  match s.trySend part cls dst l with
  | some t => t
  | none => { s with lnk := { s.lnk with waiting := s.lnk.waiting ++ [{ part, cls, dst, bytes := l }] } }

/-- The port that has assembled a unit of a class, if any has. -/
def State.portWith (s : State) (cls : Nat) (l : List Byte) : Option Nat :=
  (List.range 18).find? fun p => (s.port p).units.any fun u => decide (u.1 = cls) && decide (u.2.2 = l)

/-- A unit that has been taken from a port's receive buffers: its credit goes back (R404). -/
def State.freeUnit (s : State) (p cls : Nat) (l : List Byte) : State :=
  let x := s.port p
  match x.units.findIdx? fun u => decide (u.1 = cls) && decide (u.2.2 = l) with
  | none => s
  | some i =>
    let n := (x.units[i]?.map (·.2.1)).getD 0
    (s.setPort p { x with units := listDrop x.units i }).sendControl p 1 (BitVec.ofNat 8 cls :: bytesLE n 2)

/-- A unit of a class that some port has assembled is taken. -/
def State.freeAny (s : State) (cls : Nat) (l : List Byte) : State := (List.range 18).foldl (fun s p => s.freeUnit p cls l) s

/-- A transfer or gather as its bytes travel: its descriptor with the tile's format code in its last word, the sender's job tag and position,
the tile (R399, R406). A gather names in `dst` the position its copy is for. -/
def transferBytes (t : TransferUnit) : List Byte :=
  [if t.gather then 3#8 else 2#8, 0#8] ++ bytesLE t.bucket 2 ++ bytesLE t.word0.toNat 4 ++ List.replicate 4 0#8 ++ bytesLE t.dst.toNat 4
    ++ bytesLE t.word1.toNat 8 ++ [BitVec.ofNat 8 t.part, BitVec.ofNat 8 t.chan] ++ bytesLE t.core 2 ++ bytesLE t.tile.fmt 1 ++ List.replicate 3 0#8
    ++ bytesLE t.tag.toNat 4 ++ bytesLE t.origin.toNat 4
    ++ t.tile.payload.toList 0 8192 ++ t.tile.side.toList 0 t.tile.sideLen

/-! ### Units of the tandem and of the winch on their way (R403, R460, R461, R486, R528) -/

/-- The first byte of the units that the manual gives no layout for: a tandem copy, its acknowledgement, a request for a version, a winch
tile, a tile of the version asked for, and the answer that the version is not held (assumption 30). -/
def kindTandem : Byte := 4
def kindAck : Byte := 5
def kindRequest : Byte := 6
def kindWinch : Byte := 7
def kindReply : Byte := 8
def kindAbsent : Byte := 9

/-- A unit of a tandem as its bytes travel: kind, partition, job tag, sender, the position it is for, version, index, tile. -/
def tandemBytes (kind : Byte) (part : Nat) (tag me dst v : W32) (i : Nat) (d : TileData) : List Byte :=
  [kind, BitVec.ofNat 8 part, BitVec.ofNat 8 d.fmt, 0] ++ wordBytes tag ++ wordBytes me ++ wordBytes dst ++ wordBytes v ++ bytesLE i 8
    ++ (if kind = kindTandem ∨ kind = kindReply then d.payload.toList 0 8192 ++ d.side.toList 0 d.sideLen else [])

/-- The kind and partition of such a unit, and the words at offset 4 on: job tag, sender, the position it is for, version. -/
def unitKind (l : List Byte) : Nat := natLE (l.take 1)
def unitPart (l : List Byte) : Nat := natLE ((l.drop 1).take 1)
def unitWord (i : Nat) (l : List Byte) : W32 := BitVec.ofNat 32 (natLE ((l.drop (4 + 4 * i)).take 4))

/-- The blocks and error tiles of a geometry as a request for a version names them. -/
def Geometry.code (g : Geometry) : Nat := g.blocks.toNat + g.errTiles.toNat * 2 ^ 32

/-- The tandem store that a request concerns: the one that mirrors the requester, or, for a position on the partition's reserve list, the first
of the geometry that the requester names, since a reserve restores before the store mirrors it (R461, R498, assumption 88). -/
def State.storeFor (s : State) (part : Nat) (pos v : W32) (geo : Nat) : Option TandemStore :=
  let p := s.part part
  match p.stores.find? fun t => decide (t.mirrored = pos) && t.holds v with
  | some t => some t
  | none => if p.reserves.contains pos then p.stores.find? fun t => decide (t.geo.code = geo) && t.holds v else none

/-- A tandem answers a request for a version: with the tiles of its store bank, or that it does not hold the version complete (R461), as where one of
them is poisoned (R319, assumption 99). -/
def State.answerRequest (s : State) (part : Nat) (tag pos v : W32) (geo : Nat) : State :=
  let absent := fun (s : State) => s.dispatch part 2 pos (tandemBytes kindAbsent part tag s.me pos v 0 {})
  match if (s.part part).jobTag = tag then s.storeFor part pos v geo else none with
  | none => absent s
  | some t =>
    let f := s.fetchTiles part (t.bankSlots v)
    match f.2 with
    | none => absent f.1
    | some l => l.zipIdx.foldl (fun u e => u.dispatch part 2 pos (tandemBytes kindReply part tag s.me pos v e.2 e.1)) f.1

/-- A unit of a tandem or of the winch that a port has assembled: for another module it goes on unchanged along its route when the links can
take it (R403); a request for this module is answered, unless its partition is Frozen or Saving (R461, R528). -/
def State.relayUnit (s : State) (p : Nat) (u : Nat × Nat × List Byte) : State :=
  let l := u.2.2
  if u.1 ≠ 2 ∨ unitKind l < 4 then s
  else if unitWord 2 l ≠ s.me then
    match s.trySend (unitPart l) 2 (unitWord 2 l) l (some p) with
    | none => s
    | some t => t.freeUnit p 2 l
  else if unitKind l = kindRequest.toNat ∧ unitPart l < 32 ∧ s.shut (unitPart l) = false then
    (s.freeUnit p 2 l).answerRequest (unitPart l) (unitWord 0 l) (unitWord 1 l) (unitWord 3 l) (natLE (seg l 20 8))
  else s

/-- Every unit of a tandem or of the winch that a port has assembled, in order. -/
def State.relay (s : State) : State :=
  (List.range 18).foldl (fun s p => (s.port p).units.foldl (fun t u => t.relayUnit p u) s) s

/-- Try every waiting unit again, reduction before transfer, the module's own before those on their way (R404). -/
def State.flushWaiting (s : State) : State :=
  let w := s.lnk.waiting
  (((w.filter fun u => u.cls = 1) ++ w.filter fun u => u.cls ≠ 1).foldl (fun (t : State) u => t.dispatch u.part u.cls u.dst u.bytes)
    { s with lnk := { s.lnk with waiting := [] } }).relay

/-- The answers to a partition's request for a version are taken. -/
def State.dropReplies (s : State) (part : Nat) (v : W32) : State :=
  (List.range 18).foldl (fun s p => (s.port p).units.foldl (fun t u =>
    if u.1 = 2 ∧ (unitKind u.2.2 = kindReply.toNat ∨ unitKind u.2.2 = kindAbsent.toNat) ∧ unitPart u.2.2 = part ∧ unitWord 3 u.2.2 = v then
      t.freeUnit p 2 u.2.2
    else t) s) s

end Sys2Proof.Machine
end

