-- ==== Sys2Proof/Machine/Link.lean ====
section
/-! DEFINITION. The ports: training, authentication, frames, watchdog, credits, keys and refusals (R100, R393 to R404, R547, R548). -/

namespace Sys2Proof.Machine

/-! ### Training (R69, R91, R100, R394, R395) -/

/-- The link lanes of a port are driven (R76, R106). -/
def State.portOn (s : State) (p : Nat) : Bool := s.su.linksDriven && portOk p

/-- PORT_PEERLESS (R100): no receive signal for 300 ms. -/
def execPortPeerless (port : Nat) (s : State) : Res :=
  onUnit (portOk port) (
    if s.portOn port && (s.port port).st == .training then s.modPort port fun x => { x with st := .peerless } else s)

/-- SIGNAL_DETECT (R395): a Peerless port, or a Lost one whose signal had gone, trains. -/
def execSignalDetect (port : Nat) (s : State) : Res :=
  onUnit (portOk port) (
    if s.portOn port && ((s.port port).st == .peerless || (s.port port).st == .lost) then
      s.modPort port fun x => { x with st := .training, wasAway := true }
    else s)

/-- The lane that takes number `n` once reversed order is corrected (R52, R394). -/
def laneAt (reversed : Bool) (n : Nat) : Nat := if reversed then 7 - n else n

/-- What training finds of a port's lanes (R52): the order is reversed where a lane meets lane 7 − l and none meets its own number; lanes that
the order leaves with another lane than their own are no more in service than lanes that do not train. The lanes in service and those whose
polarity is inverted have the numbers after the reversal. -/
def lanesReversed (ls : List LaneIn) : Bool :=
  (ls.zipIdx.any fun l => l.1.trained && decide (l.1.peer = 7 - l.2)) && !(ls.zipIdx.any fun l => l.1.trained && decide (l.1.peer = l.2))
def laneMask (ls : List LaneIn) (f : Nat → LaneIn → Bool) : Byte := (List.range 8).foldl (fun m n =>
  if f n (ls.getD (laneAt (lanesReversed ls) n) {}) then setBit m n else m) 0
def lanesIn (ls : List LaneIn) : Byte := laneMask ls fun n l => l.trained && decide (l.peer = n)
def lanesInverted (ls : List LaneIn) : Byte := laneMask ls fun _ l => l.inverted

/-- An Identity message: its kind, then its content (R402, R547). -/
def State.sendIdentity (s : State) (p kind : Nat) (body : List Byte) : State := s.sendControl p kindIdentity.toNat (BitVec.ofNat 8 kind :: body)

/-- The certificate chain leaves in pieces of at most 600 bytes; a chain of no bytes is one empty piece (R547). -/
def State.sendChain (s : State) (p : Nat) : State :=
  let l := s.sec.chain1
  (List.range (max 1 (ceilDiv l.length 600))).foldl (fun s i =>
    s.sendIdentity p 1 (bytesLE (600 * i) 2 ++ bytesLE l.length 2 ++ (l.drop (600 * i)).take 600)) s

/-- A port begins to authenticate: it sends its chain and a fresh share of its position, 32 bytes of nonce and, on ports 14 to 17, 97 bytes of
public key (R547). While the entropy source fails there is none to send (R542). -/
def State.beginAuth (s : State) (p : Nat) : State :=
  let inter := decide (14 ≤ p)
  let share := wordBytes s.me ++ freshNonce s.free ++ (if inter then freshShare s.free else [])
  let t := s.tick.modPort p fun x => { x with
    st := .authenticating, auth := 0, claimed := 0, peer := 0xffffffff, peerChain := [], peerShare := [], peerEph := []
    ownShare := share, ownEph := if inter then freshPrivate s.free else 0, keyed := false }
  if s.sec.drbgOk then (t.sendChain p).sendIdentity p 2 share else t

/-- Lanes out of service are reported to the driver and to management, with the port and the lanes in service (R53, R101, R394). -/
def State.reportLanes (s : State) (p : Nat) (lanes : Byte) : State :=
  if lanes = 0xff then s else (s.raise { status := 0x0402, words := [p, lanes.toNat] }).stageStatus 0x0402

/-- PORT_TRAINED (R52, R53, R69, R394, R395): training has ended with what it found of each lane and of the peer. -/
def execPortTrained (port : Nat) (found : List LaneIn) (peer : W32) (s : State) : Res :=
  onUnit (portOk port) (
    if s.portOn port && (s.port port).st == .training then
      let lanes := lanesIn found
      let t := s.modPort port fun x => { x with
        lanes, reversed := lanesReversed found, inverted := lanesInverted found, status := if lanes = 0xff then 0 else 0x0402 }
      if (lanesUsed lanes).isEmpty then (t.reportLanes port lanes).holdPort port 0x0404
      else if s.wiringOk port peer then (t.reportLanes port lanes).beginAuth port else (t.reportLanes port lanes).holdPort port 0x0401
    else s)

/-! ### Authentication (R396, R547, R548) -/

/-- The transcript hash T of a port (R547). -/
def State.transcript (s : State) (x : Port) : List Byte :=
  let own := s.sec.chain1 ++ x.ownShare
  let peer := x.peerChain ++ x.peerShare
  (sha384 (if s.me.toNat < x.claimed.toNat then own ++ peer else peer ++ own))

/-- What the side at a position signs: the label ZG8-LINK, T, its position (R543, R547). -/
def proofMessage (t : List Byte) (pos : W32) : List Byte := labelLink ++ t ++ wordBytes pos

/-- A serialNumber has the form that every chain's leaf gives it: 16 lowercase hexadecimal digits (R544). -/
def serialForm (l : List Byte) : Bool :=
  decide (l.length = 16) && l.all fun b => (decide (0x30 ≤ b.toNat) && decide (b.toNat ≤ 0x39)) || (decide (0x61 ≤ b.toNat) && decide (b.toNat ≤ 0x66))

/-- The peer has proved its identity (R547): its chain ends at the link trust root, the leaf's key verifies the proof, and the leaf's serialNumber
is one that such a chain certifies (assumption 81); without a trust root no peer does (R91). -/
def State.proofOk (s : State) (x : Port) (sig : List Byte) : Bool :=
  match s.siteConfig with
  | none => false
  | some m => chainOk (m.read 384 0x10) x.peerChain && ecdsaVerify (leafKey x.peerChain) (proofMessage (s.transcript x) x.claimed) sig
      && serialForm (leafSerial x.peerChain)

/-- The keys of a port between racks: for sending and for receiving (R548); none where the peer's share is no point of the curve. -/
def State.linkKeys (s : State) (x : Port) : Option (LinkKey × LinkKey) :=
  (ecdh x.ownEph x.peerEph).map fun z =>
    let own := seg x.ownShare 4 32
    let peer := seg x.peerShare 4 32
    let salt := if s.me.toNat < x.claimed.toNat then own ++ peer else peer ++ own
    let k := fun (src dst : W32) => let r := linkKeyOf salt z (dirLabel src dst); ({ key := r.1, salt := r.2 } : LinkKey)
    (k s.me x.claimed, k x.claimed s.me)

/-- A port has authenticated: it is Up or Degraded with its peer recorded; what waited is sent (R395, R396, R401). -/
def State.portUp (s : State) (p : Nat) : State :=
  let x := s.port p
  let t := s.setPort p { x with
    st := if x.lanes = 0xff then .up else .degraded, peer := x.claimed, wasAway := false, resends := 0, tagRun := 0 }
  let t := if x.wasAway then t.lnkEvent 0 { status := 0x0411, words := [p, x.claimed.toNat] } else t
  ((t.resendCounted p).flushControl p).flushWaiting

/-- A port whose peer has proved its identity comes up; ports 14 to 17 derive their keys first (R396, R397); none where they cannot. -/
def State.keyUp (s : State) (p : Nat) : Option State :=
  if p < 14 then some (s.portUp p)
  else (s.linkKeys (s.port p)).map fun k => (s.modPort p fun x => { x with keyed := true, keys := true, tx := k.1, rx := k.2 }).portUp p

/-- An Identity message in its order: the chain in pieces, the share, the proof (R547); none where authentication fails. The position of a peer that
has proved its identity is recorded, and must agree with the wiring rules (R396). -/
def State.takeIdentity (s : State) (p kind : Nat) (body : List Byte) : Option State :=
  let x := s.port p
  if kind = 1 ∧ x.auth = 0 ∧ 4 ≤ body.length then
    let piece := body.drop 4
    let total := natLE ((body.drop 2).take 2)
    let chain := x.peerChain ++ piece
    if natLE (body.take 2) = x.peerChain.length ∧ piece.length ≤ 600 ∧ chain.length ≤ total then
      some (s.setPort p { x with peerChain := chain, auth := if chain.length = total then 1 else 0 })
    else none
  else if kind = 2 ∧ x.auth = 1 ∧ body.length = (if 14 ≤ p then 133 else 36) then
    let y := { x with peerShare := body, peerEph := body.drop 36, claimed := BitVec.ofNat 32 (natLE (body.take 4)), auth := 2 }
    let t := s.setPort p y
    some (t.tick.sendIdentity p 3 (t.sign (proofMessage (t.transcript y) t.me)))
  else if kind = 3 ∧ x.auth = 2 ∧ s.proofOk x body then
    if s.wiringOk p x.claimed then s.keyUp p else some ((s.modPort p fun x => { x with peer := x.claimed }).holdPort p 0x0401)
  else none

/-- IDENTITY_MESSAGE (R396, R547). -/
def execIdentityMessage (port kind : Nat) (body : List Byte) (s : State) : Res :=
  onUnit (portOk port) (
    if s.portOn port && (s.port port).st == .authenticating then
      (s.takeIdentity port kind body).getD (s.holdPort port 0x0403)
    else s)

/-- AUTH_TIMEOUT (R547): an Identity message is missing after 100 ms. -/
def execAuthTimeout (port : Nat) (s : State) : Res :=
  onUnit (portOk port) (if s.portOn port && (s.port port).st == .authenticating then s.holdPort port 0x0403 else s)

/-! ### Frames (R393, R397 to R401) -/

/-- A codeword slot goes by: the receive count moves on; a corrected or an uncorrectable codeword is counted (R393, R397, R607). -/
def State.countCodeword (s : State) (p : Nat) (d : FecOut) : State :=
  let x := s.port p
  let ce := if d.corrected then stick x.ce else x.ce
  let ue := if d.lost then stick x.ue else x.ue
  let t := s.setPort p { x with rx := x.rx.tick, ce, ue, tagRun := if d.lost then 0 else x.tagRun }
  let t := if d.corrected then (t.lnkStuck p x.ce ce 0x04c).logCorrected 0x3004c p ce.toNat else t
  if d.lost then t.lnkStuck p x.ue ue 0x050 else t

/-- A frame fails its check field: counted and lost; the sixteenth in a row on ports 14 to 17 holds the port (R398, R400). -/
def State.checkFailed (s : State) (p : Nat) : State :=
  let x := s.port p
  let n := stick x.tagFail
  let run := if 14 ≤ p then x.tagRun + 1 else 0
  let t := (s.setPort p { x with tagFail := n, tagRun := run }).lnkStuck p x.tagFail n 0x058
  if 16 ≤ run then t.holdPort p 0x0412 3 else t.sendIdle p true

/-- An acknowledgement: every frame up to its number is released, and a retry request is answered (R400). -/
def State.acknowledge (s : State) (p : Nat) (f : Frame) : State :=
  let x := s.port p
  let left := x.unacked.filter fun u => newer u.seq f.ack
  let t := s.setPort p { x with unacked := left, resends := if left.length < x.unacked.length then 0 else x.resends }
  let t := if f.retry then t.resendCounted p else t
  if left.length < x.unacked.length then (t.flushControl p).flushWaiting else t

/-- A unit's frame is gathered in its class; its last frame completes the unit, which waits in the receive buffers (R399, R404). -/
def Port.gather (x : Port) (f : Frame) : Port :=
  if f.ftype ≠ 1 then x
  else
    let had := if f.cls = 1 then x.rxRed else x.rxTrf
    let got := (if f.firstF then [] else had) ++ f.payload
    let y := if f.cls = 1 then { x with rxRed := if f.lastF then [] else got } else { x with rxTrf := if f.lastF then [] else got }
    if f.lastF then { y with units := y.units ++ [(f.cls, frameCount got.length, got)] } else y

/-- A frame that passed its checks: idle frames show a gap; a numbered frame is accepted in its turn, discarded as a duplicate, or asked
for again with those before it (R400); what the unit it completes asks of a module on its way follows (R403). -/
def State.takeFrame (s : State) (p : Nat) (f : Frame) : State :=
  let t := (s.modPort p fun x => { x with tagRun := 0 }).acknowledge p f
  let x := t.port p
  if f.ftype = 0 then (if newer f.seq (x.rxLast + 1) then t.sendIdle p true else t)
  else if f.seq = x.rxLast + 1 then (t.setPort p ({ x with rxLast := f.seq }.gather f)).relay
  else if newer f.seq x.rxLast then t.sendIdle p true
  else t

/-- FRAME_RECEIVE (R393, R397, R398, R400). -/
def execFrameReceive (port : Nat) (rx : FrameRx) (s : State) : Res :=
  onUnit (portOk port) (
    if s.portOn port && (s.port port).hears then
      let x := s.port port
      let d := fecDecode (codewordErrors (lanesUsed x.lanes) rx.errs)
      let t := s.countCodeword port d
      if d.lost then t.sendIdle port true
      else match x.unprotect (decide (port < 14)) (spoiledFrame rx d.left) with
        | some f => t.takeFrame port f
        | none => t.checkFailed port
    else s)

/-- RETRY_TIMEOUT (R400): after 16 resends in a row without progress the port is Lost. -/
def execRetryTimeout (port : Nat) (s : State) : Res :=
  onUnit (portOk port) (
    let x := s.port port
    if s.portOn port && x.hears && !x.unacked.isEmpty then
      if 16 ≤ x.resends && x.live then s.losePort port
      else (s.setPort port { x with resends := x.resends + 1 }).resendCounted port
    else s)

/-- IDLE_FRAME_TIMER (R401). -/
def execIdleFrameTimer (port : Nat) (s : State) : Res :=
  onUnit (portOk port) (if s.portOn port && (s.port port).live then s.sendIdle port false else s)

/-- LINK_WATCHDOG_EXPIRY (R401): no frame has arrived for LNK_WDOG.PERIOD. -/
def execLinkWatchdogExpiry (port : Nat) (s : State) : Res :=
  onUnit (portOk port) (if s.portOn port && (s.port port).live then s.losePort port else s)

/-! ### Control messages (R397, R402, R404, R487, R548) -/

/-- CREDIT_MESSAGE (R404): frames of a class have been freed; what waited is sent as far as it can be. -/
def execCreditMessage (port cls freed : Nat) (s : State) : Res :=
  onUnit (portOk port) (
    if s.portOn port && (s.port port).hears then
      (s.modPort port fun x =>
        if cls = 1 then { x with creditRed := min 256 (x.creditRed + freed) }
        else if cls = 2 then { x with creditTrf := min 256 (x.creditTrf + freed) } else x).flushWaiting
    else s)

/-- The key and salt that follow in a direction at a switch count, from the ECDH product of the fresh share (R548). The product is with the other
side's share of the authentication, which both sides hold whatever the other direction does (assumption 89). -/
def rekeyed (k : LinkKey) (z : List Byte) (sw : Nat) (label : List Byte) : LinkKey :=
  { k with next := some (sw, linkKeyOf (bytesLE sw 8) (z ++ wordBytes k.key) label) }

/-- KEY_RENEWAL (R397, R548): after 2^40 codewords a direction announces a fresh share and the count at which its new key takes effect. -/
def execKeyRenewal (port : Nat) (s : State) : Res :=
  onUnit (portOk port) (
    let x := s.port port
    if s.portOn port && s.sec.drbgOk && x.live && x.keyed && x.tx.next.isNone && decide (2 ^ 40 ≤ x.tx.count) && x.ctlWait.isEmpty
        && decide (x.unacked.length < 1024) then
      match ecdh (freshPrivate s.free) x.peerEph with
      | none => s
      | some z =>
        let sw := x.tx.count + 2 + (Config.switchCount s.free).toNat
        (s.tick.modPort port fun x => { x with tx := rekeyed x.tx z sw (dirLabel s.me x.peer) }).sendControl port 2
          (freshShare s.free ++ bytesLE sw 8)
    else s)

/-- REKEY_MESSAGE (R397, R548): the peer's new key takes effect at the count it names; a share that is no point of the curve gives none. -/
def execRekeyMessage (port : Nat) (share : List Byte) (switchCount : W64) (s : State) : Res :=
  onUnit (portOk port) (
    let x := s.port port
    if s.portOn port && x.live && x.keyed then
      match ecdh x.ownEph share with
      | none => s
      | some z => s.modPort port fun x => { x with rx := rekeyed x.rx z switchCount.toNat (dirLabel x.peer s.me) }
    else s)

/-- The tiles sent and refused of a re-shard, with the first that answers a refusal put with those that are refused (R487). -/
def Reshard.refuse (r : Reshard) (pos : W32) (slot : Nat) : Reshard :=
  match r.sent.find? fun w => decide (w.pos = pos) && decide (w.dst.toNat / 8192 = slot) with
  | none => r
  | some w => if r.refused.contains w then r else { r with refused := r.refused ++ [w] }

/-- A refusal for this module: a winch tile is to be sent again. The manual gives the sender of a refused chunk nothing to do (R402, R422,
R487). -/
def State.takeRefusal (s : State) (status : W16) (bucket : Nat) (step origin : W32) : State :=
  if status = 0x0265 then
    s.modPart (bucket % 32) fun p => { p with ctx := p.ctx.map fun x => { x with
      reshard := x.reshard.map fun r => r.refuse origin (bucket / 32 * 2 ^ 32 + step.toNat) } }
  else s

/-- REFUSAL_MESSAGE (R402, R422, R487): a refusal for another module goes on along its route; while there is none it waits (R403). -/
def execRefusalMessage (port : Nat) (status : W16) (bucket : Nat) (step : W32) (refused : RefusedTo) (s : State) : Res :=
  onUnit (portOk port) (
    if s.portOn port && (s.port port).hears then
      if refused.dst = s.me then s.takeRefusal status bucket step refused.origin
      else match s.nextPort refused.dst (some port) with
        | none => s
        | some p => s.sendRefusal p status.toNat bucket step refused.origin refused.dst
    else s)

end Sys2Proof.Machine
end

