-- ==== Sys2Proof/Machine/Message.lean ====
section
/-! DEFINITION. Credits, messages and completions (R137 to R144, R160, R196). -/

namespace Sys2Proof.Machine

/-- A source of messages that exists: a core, the batcher of partition n as 256 + n, or the link interfaces as 288. -/
def sourceOk (src : Nat) : Bool := decide (src < 289)

/-- The channel for which a source asks a core for a credit, if its request has not yet reached the router. -/
def State.asking (s : State) (src dst : Nat) : Option Nat :=
  if src < 256 then
    match (s.core src).request with
    | some (d, ch) => if d = dst then some ch else none
    | none => none
  else (s.batchMsg (src - 256) dst).map (·.chan)

/-- CREDIT_GRANT (R140): a request reaches the destination router; credits are granted in the order requests arrived. The batcher of a
partition that is Frozen or Saving asks for none (R526). -/
def execCreditGrant (src dst : Nat) (s : State) : Res :=
  onUnit (sourceOk src && coreOk dst) (match s.asking src dst with
    | none => s
    | some ch =>
      if 256 ≤ src ∧ s.shut (src - 256) = true then s else
      let x := (s.core dst).chan ch
      if x.waiters.contains src then s
      else (s.modCore dst fun c => c.setChan ch { x with waiters := x.waiters ++ [src] }).grantAll dst ch)

/-- MESSAGE_ARRIVE (R141): the oldest message from a source to a channel lands in the channel's next buffer. -/
def execMessageArrive (src dst chan : Nat) (s : State) : Res :=
  onUnit (sourceOk src && coreOk dst && decide (chan < 16))
    (match s.mesh.findIdx? fun m => decide (m.src = src) && decide (m.dst = dst) && decide (m.chan = chan) with
    | none => s
    | some i => match s.mesh[i]? with
      | none => s
      | some m => ({ s with mesh := listDrop s.mesh i }).modCore dst fun c => c.land m)

/-- Lines of the core store whose codewords have come to hold two or more symbol errors are poisoned (R110). -/
def Core.spoil (c : Core) (lines : List Nat) : Core := { c with poison := c.poison ++ lines.filter fun l => !c.poison.contains l && decide (l < 65536) }

/-- OPERATION_COMPLETE (R160, R196): the operation at a place of those in flight completes: its registers become ready and its flags are set, or the status
it found after issue ends the routine. Lines of the core's store that have met an uncorrectable error by now, which no row of
their own brings, are poisoned (R110, assumption 83). -/
def execOperationComplete (core : Nat) (op : OpEnd) (s : State) : Res :=
  onUnit (coreOk core) (
    let s := s.modCore core fun c => c.spoil op.bad
    let c := s.core core
    match c.ops[op.place]? with
    | none => s
    | some o =>
      if !o.ready then s
      else
        let d := { c with ops := listDrop c.ops op.place }
        if o.status = 0 then (s.setCore core { d.writeAll o.writes with flags := d.flags ||| o.flags }).settleCore core
        else ((s.setCore core d).endRoutine core o.status.toNat o.bundle).settleCore core)

end Sys2Proof.Machine
end

