-- ==== Sys2Proof/Machine/ReduceOps.lean ====
section
/-! DEFINITION. In-link reduction: participant sets and combining points, adding, and what an input does (R409 to R425, R493, R494). -/

namespace Sys2Proof.Machine

/-! ### Definitions and participants (R409, R411, R414, R493, R494) -/

/-- The definition that governs a step: the newest whose first step is not after it (R409). -/
def State.defFor (s : State) (bucket : Nat) (step : W32) : Option BktDef :=
  ((s.bucket bucket).filter fun d => decide (d.first = step) || newer step d.first).getLast?

/-- Elements of a mode's chunk (R411). -/
def modeElems (mode : Nat) : Nat := if mode = 0 ∨ mode = 2 then 8192 else if mode = 1 then 4096 else 1

/-- A coordinate lies in a box of `n` from `c0`, mod 16 (R414). -/
def inRing (c0 n v : Nat) : Bool := decide ((v + 16 - c0) % 16 < n)

/-- A rack lies in the box. -/
def BktDef.inBox (d : BktDef) (x y : Nat) : Bool := inRing d.x0 d.nx x && inRing d.y0 d.ny y

/-- A position is in the box and the masks (R414). -/
def BktDef.member (d : BktDef) (p : W32) : Bool := d.inBox (posX p) (posY p) && bit d.boards (posB p) && bit d.sites (posS p)

/-- A position counts as a member of the participant set: also when the partition lists it as a reserve (R493). -/
def State.participates (s : State) (d : BktDef) (p : W32) : Bool := d.member p || (s.part d.part).reserves.contains p

/-- A position whose contribution is waited for, and to which gathers and results are delivered: a member of the box and masks that is not a
listed reserve. A reserve that serves another position contributes and takes deliveries as that position (R420, R493). -/
def State.awaits (s : State) (d : BktDef) (p : W32) : Bool := d.member p && !(s.part d.part).reserves.contains p

/-- The module that acts for a position of a bucket at a step, or, where no step is known, by the substitution installed last (R420, R494). -/
def State.actingAt (s : State) (part bucket : Nat) (step : Option W32) (p : W32) : W32 :=
  match ((s.part part).substs.filter fun u => u.served = p && (decide (u.bucket.toNat = bucket) || u.bucket == 0xffff)
      && step.all fun t => !(newer u.step t)).getLast? with
  | none => p
  | some u => u.serving

/-- The module that acts for a position at a step of a bucket. -/
def State.acting (s : State) (part bucket : Nat) (step p : W32) : W32 := s.actingAt part bucket (some step) p

/-- The positions whose roles this module has: its own, and those it serves (R494). -/
def State.rolesAt (s : State) (part bucket : Nat) (step : Option W32) : List W32 :=
  (s.me :: (s.part part).substs.map (·.served)).eraseDups.filter fun p => decide (s.actingAt part bucket step p = s.me)
def State.roles (s : State) (part bucket : Nat) (step : W32) : List W32 := s.rolesAt part bucket (some step)

/-! ### Chains (R414) -/

/-- The side of the end `o` on which a rack of a chain lies: 0 minus, 1 the end itself, 2 plus. With 16 racks the minus side holds
the 8 at distances 1 to 8. -/
def chainSide (c0 n o v : Nat) : Nat :=
  if v = o then 1
  else if n = 16 then (if (o + 16 - v) % 16 ≤ 8 then 0 else 2)
  else if (v + 16 - c0) % 16 < (o + 16 - c0) % 16 then 0 else 2

/-- The next rack from `v` towards the end `o`; the end itself where that rack is outside the box. -/
def nearer (c0 n o v : Nat) : Nat :=
  let w := if chainSide c0 n o v = 0 then (v + 1) % 16 else (v + 15) % 16
  if w = o || inRing c0 n w then w else o

/-- A rack of the chain lies next beyond `v` on side `side`. -/
def farther (c0 n o v side : Nat) : Option Nat :=
  let w := if side = 0 then (v + 15) % 16 else (v + 1) % 16
  if inRing c0 n w && w != o && chainSide c0 n o w == side then some w else none

/-- The racks beyond `v`, one for each side that has any: the end looks both ways, another rack away from the end. -/
def beyond (c0 n o v : Nat) : List (Nat × Nat) :=
  let sides := if v = o then [0, 2] else [chainSide c0 n o v]
  sides.filterMap fun side => (farther c0 n o v side).map fun w => (side, w)

/-- Every rack beyond `v` on a side, at most `n` of them, and whether one of them takes part. -/
def racksBeyond (c0 n o side : Nat) : Nat → Nat → List Nat
  | 0, _ => []
  | k + 1, v => match farther c0 n o v side with
    | none => []
    | some w => w :: racksBeyond c0 n o side k w
def beyondOn (c0 n o v side : Nat) (on : Nat → Bool) : Bool := (racksBeyond c0 n o side 16 v).any on

/-- The keys of a chain rack's inputs, in adding order: the partial of each side on which a rack takes part, and the rack's own sum (R415). -/
def chainKeys (c0 n o v : Nat) (on : Nat → Bool) : List Nat :=
  let own := if inRing c0 n v && on v then [1] else []
  if v = o then (if beyondOn c0 n o v 0 on then [0] else []) ++ own ++ (if beyondOn c0 n o v 2 on then [2] else [])
  else (if beyondOn c0 n o v (chainSide c0 n o v) on then [0] else []) ++ own

/-! ### Combining points (R414, R415) -/

/-- A stage's combining point. -/
structure Place where
  stage : Nat
  loc : W32
  key : Nat
deriving DecidableEq, Repr

/-- The combining point of a module's contributions: stage board (R414). -/
def BktDef.boardPlace (d : BktDef) (origin : W32) : Place :=
  ⟨1, mkPos (posX origin) (posY origin) (posB origin) (posS d.owner), posS origin⟩

/-- Where the sum of a stage goes as an input; none for the last (R414, R415). -/
def BktDef.nextPlace (d : BktDef) (stage : Nat) (loc : W32) : Option Place :=
  let x := posX loc
  let y := posY loc
  let bo := posB d.owner
  let so := posS d.owner
  if stage = 1 then some ⟨2, mkPos x y bo so, posB loc⟩
  else if stage = 2 then some ⟨3, loc, 1⟩
  else if stage = 3 then
    if x = posX d.owner then some ⟨4, loc, 1⟩
    else
      let w := nearer d.x0 d.nx (posX d.owner) x
      some ⟨3, mkPos w y bo so, if w = posX d.owner then chainSide d.x0 d.nx (posX d.owner) x else 0⟩
  else if y = posY d.owner then none
  else
    let w := nearer d.y0 d.ny (posY d.owner) y
    some ⟨4, mkPos x w bo so, if w = posY d.owner then chainSide d.y0 d.ny (posY d.owner) y else 0⟩

/-- The combining point that a unit of a wire stage from an origin is an input of (R413, R414). -/
def BktDef.placeOf (d : BktDef) (stage : Nat) (origin : W32) : Option Place :=
  if stage = 0 then some (d.boardPlace origin)
  else if stage = 1 then d.nextPlace 1 origin
  else if stage = 4 then d.nextPlace 4 origin
  else if stage = 2 ∨ stage = 3 then
    if posX origin = posX d.owner then d.nextPlace 4 origin else d.nextPlace 3 origin
  else none

/-- A board, a rack, and the racks of a row take part: some position there is waited for (R414, R493). -/
def BktDef.boardOn (d : BktDef) (m : W32 → Bool) (x y b : Nat) : Bool :=
  bit d.boards b && (List.range 8).any fun i => bit d.sites i && m (mkPos x y b i)
def BktDef.rackOn (d : BktDef) (m : W32 → Bool) (y x : Nat) : Bool := d.inBox x y && (List.range 8).any (d.boardOn m x y)
def BktDef.rowOn (d : BktDef) (m : W32 → Bool) (y : Nat) : Bool := (List.range 16).any (d.rackOn m y)

/-- The keys of every input of a combining point, in adding order (R415); `m` says which positions are waited for. -/
def BktDef.keys (d : BktDef) (m : W32 → Bool) (stage : Nat) (loc : W32) : List Nat :=
  let x := posX loc
  let y := posY loc
  if stage = 1 then (List.range 8).filter fun i => bit d.sites i && m (mkPos x y (posB loc) i)
  else if stage = 2 then (List.range 8).filter (d.boardOn m x y)
  else if stage = 3 then chainKeys d.x0 d.nx (posX d.owner) x (d.rackOn m y)
  else chainKeys d.y0 d.ny (posY d.owner) y (d.rowOn m)

/-- The stages whose combining point a position is. -/
def BktDef.stagesAt (d : BktDef) (m : W32 → Bool) (p : W32) : List Nat :=
  let so := decide (posS p = posS d.owner)
  let bo := so && decide (posB p = posB d.owner)
  let row := inRing d.y0 d.ny (posY p)
  ((if so && bit d.boards (posB p) && d.inBox (posX p) (posY p) then [1] else [])
    ++ (if bo && d.inBox (posX p) (posY p) then [2] else [])
    ++ (if bo && row && (inRing d.x0 d.nx (posX p) || decide (posX p = posX d.owner)) then [3] else [])
    ++ (if bo && decide (posX p = posX d.owner) && (row || decide (posY p = posY d.owner)) then [4] else [])).filter
      fun st => !(d.keys m st p).isEmpty

/-- The positions that a result, or a gather from `root`, passes on to from a position: the routes of reduction towards `root`, in reverse
(R408, R417), as far as they lead to positions that are delivered to (R493). -/
def BktDef.childrenOf (d : BktDef) (m : W32 → Bool) (root p : W32) : List W32 :=
  let x := posX p
  let y := posY p
  let b := posB p
  let st := posS p
  let onSite := decide (st = posS root)
  let onBoard := onSite && decide (b = posB root)
  let sites := if onSite then ((List.range 8).filter fun i => bit d.sites i && i != st && m (mkPos x y b i)).map fun i => mkPos x y b i else []
  let boards := if onBoard then ((List.range 8).filter fun i => i != b && d.boardOn m x y i).map fun i => mkPos x y i st else []
  let way := fun (c0 n o v : Nat) (on : Nat → Bool) => (beyond c0 n o v).filter fun e => beyondOn c0 n o v e.1 on
  let xs := if onBoard then (way d.x0 d.nx (posX root) x (d.rackOn m y)).map fun e => mkPos e.2 y b st else []
  let ys := if onBoard && decide (x = posX root) then (way d.y0 d.ny (posY root) y (d.rowOn m)).map fun e => mkPos x e.2 b st else []
  sites ++ boards ++ xs ++ ys

/-! ### Values and adding (R411, R412, R415, R416) -/

/-- Bytes of a chunk's payload by hop encoding; 5 is binary32 held here (R412). -/
def encBytes (enc : Nat) : Nat := [8704, 16384, 8192, 8, 8, 32768].getD enc 0

/-- The hop encoding of a contribution of a mode, and of a sum beyond the board (R411). -/
def postEnc (mode : Nat) : Nat := [0, 2, 0, 3, 4].getD mode 0
def sumEnc (mode : Nat) : Nat := [1, 2, 1, 3, 4].getD mode 0

/-- The exact value of element `i` of a chunk (R412, R416, R437). -/
def elemVal (enc : Nat) (m : Mem) (i : Nat) : Val :=
  if enc = 0 then blockVal (m.readNat i 1) (m.readNat (8192 + 4 * (i / 64)) 4)
  else if enc = 1 then z16Decode (m.readNat (2 * i) 2)
  else Fmt.f32.decode (m.readNat (4 * i) 4)

/-- A rounded result with a chunk's flags for it: overflow, flush, NaN (R416). -/
def flagged (nonzero : Bool) (r : Nat × Flags) : Nat × BitVec 3 :=
  let v := Fmt.f32.decode r.1
  (r.1, (if bit r.2 2 then 1 else 0) ||| (if nonzero && v.isZero then 2 else 0) ||| (if v.isNan then 4 else 0))

/-- A NaN among two values. -/
def anyNan (a b : Val) : Bool := a.isNan || b.isNan

/-- One binary32 addition, and one rounding of a value that takes part in none (R416). The exact sum of products may lie below every binary32
number, and is then flushed. -/
def linkAdd (a b : Val) : Nat × BitVec 3 :=
  if anyNan a b then (f32Nan, 4) else flagged (cmpVal a b.negate != 0) (addVal .f32 .tiesEven a b)
def linkRound (v : Val) : Nat × BitVec 3 :=
  match v with
  | .nan _ _ _ => (f32Nan, 4)
  | .inf s => (Fmt.f32.infCode s, 0)
  | .fin s m e => flagged (decide (m ≠ 0)) (Fmt.f32.round .tiesEven s m e)

/-- One level of the partial tree (R266). -/
def treeLevel {α : Type} (f : α → α → α) : List α → List α
  | a :: b :: r => f a b :: treeLevel f r
  | l => l

/-- The partial tree (R266). -/
def tree {α : Type} (f : α → α → α) : Nat → List α → List α
  | 0, l => l
  | n + 1, l => if l.length ≤ 1 then l else tree f n (treeLevel f l)

/-- The inputs of a stage added in their order: the partial tree in the board and rack stages, one after another in a chain (R415). -/
def addAll {α : Type} (f : α → α → α) (stage : Nat) (l : List α) : Option α :=
  if stage ≤ 2 then (tree f 8 l).head?
  else match l with
    | [] => none
    | a :: r => some (r.foldl f a)

/-- A value on its way through the adders: exact, or a binary32 sum, with the flags so far. -/
def addPair (a b : Val × BitVec 3) : Val × BitVec 3 :=
  let r := linkAdd a.1 b.1
  (Fmt.f32.decode r.1, a.2 ||| b.2 ||| r.2)

/-- One element of a sum of mode 0 or 2. -/
def addElem (stage i : Nat) (l : List ChunkIn) : Nat × BitVec 3 :=
  match addAll addPair stage (l.map fun c => (elemVal c.enc c.data i, (0 : BitVec 3))) with
  | none => (0, 0)
  | some (v, fl) => let r := linkRound v; (r.1, fl ||| r.2)

/-- Saturating 16-bit addition, with the overflow flag where it saturates (R416). -/
def satAdd (a b : Int × BitVec 3) : Int × BitVec 3 :=
  let s := a.1 + b.1
  if s > 32767 then (32767, a.2 ||| b.2 ||| 1) else if s < -32768 then (-32768, a.2 ||| b.2 ||| 1) else (s, a.2 ||| b.2)

/-- One count of a sum of mode 1. -/
def addCount (stage i : Nat) (l : List ChunkIn) : Nat × BitVec 3 :=
  match addAll satAdd stage (l.map fun c => ((BitVec.ofNat 16 (c.data.readNat (2 * i) 2)).toInt, (0 : BitVec 3))) with
  | none => (0, 0)
  | some (v, fl) => ((BitVec.ofInt 16 v).toNat, fl)

/-- A binary64 addition of two norm values (R416). -/
def normAdd (a b : Nat × BitVec 3) : Nat × BitVec 3 :=
  let x := Fmt.f64.decode a.1
  let y := Fmt.f64.decode b.1
  let r := if anyNan x y then invalidResult .f64 else addVal .f64 .tiesEven x y
  (r.1, a.2 ||| b.2 ||| (if bit r.2 2 then 1 else 0))

/-- Elements of `w` bytes written one after another. -/
def elems (w n : Nat) (f : Nat → Nat) : Mem := Mem.ofList ((List.range n).flatMap fun i => bytesLE (f i) w)

/-- The flags of every element together. -/
def orFlags (n : Nat) (f : Nat → BitVec 3) : BitVec 3 := (List.range n).foldl (fun a i => a ||| f i) 0

/-- The sum of a stage's inputs, in adding order; its flags are the inputs' and the additions' (R415, R416). -/
def combine (mode stage : Nat) (loc : W32) (l : List ChunkIn) : ChunkIn :=
  let fl := l.foldl (fun a c => a ||| c.flags) 0
  let n := ((l.map (·.count)).head?).getD 0
  let base : ChunkIn := {
    key := 0, origin := loc, enc := 5, count := n, backup := l.any (·.backup), selDigest := ((l.map (·.selDigest)).head?).getD 0, data := [] }
  if mode = 0 ∨ mode = 2 then
    { base with data := elems 4 n fun i => (addElem stage i l).1, flags := fl ||| orFlags n fun i => (addElem stage i l).2 }
  else if mode = 1 then
    { base with enc := 2, data := elems 2 n fun i => (addCount stage i l).1, flags := fl ||| orFlags n fun i => (addCount stage i l).2 }
  else if mode = 3 then
    let r := (addAll normAdd stage (l.map fun c => (c.data.readNat 0 8, (0 : BitVec 3)))).getD (0, 0)
    { base with enc := 3, data := Mem.ofList (bytesLE r.1 8), flags := fl ||| r.2 ||| (if (Fmt.f64.decode r.1).isNan then 4 else 0) }
  else
    { base with enc := 4, data := Mem.ofList (wordBytes (l.foldl (fun a c => a &&& c.data.read 64 0) (BitVec.allOnes 64))), flags := fl }

/-- A sum as it is sent: mode 0 and 2 re-quantized to Z16 (R214, R416). -/
def requant (mode : Nat) (c : ChunkIn) : ChunkIn :=
  if mode = 0 ∨ mode = 2 then
    let z := fun i => z16Encode .tiesEven (c.data.readNat (4 * i) 4)
    { c with
      enc := 1, data := elems 2 c.count fun i => (z i).1
      flags := c.flags ||| orFlags c.count fun i => (if bit (z i).2 2 then 1 else 0) ||| (if bit (z i).2 6 then 2 else 0) }
  else c

/-! ### Units on the wire (R412, R413) -/

/-- The bytes of a chunk unit. -/
def chunkBytes (u : ChunkUnit) : List Byte :=
  bytesLE u.bucket 2 ++ [BitVec.ofNat 8 u.encoding, BitVec.ofNat 8 u.stage] ++ bytesLE u.epoch.toNat 4 ++ bytesLE u.step.toNat 4
    ++ bytesLE u.chunk 2 ++ bytesLE u.count 2 ++ bytesLE u.origin.toNat 4
    ++ bytesLE ((if u.backup then 1 else 0) + 2 * u.flags.toNat) 1 ++ List.replicate 3 0#8 ++ wordBytes u.selDigest
    ++ u.payload.toList 0 (encBytes u.encoding)

/-- A sum as a unit of a wire stage. -/
def sumUnit (d : BktDef) (bucket : Nat) (step : W32) (chunk stage : Nat) (c : ChunkIn) : ChunkUnit :=
  { bucket, encoding := c.enc, stage, epoch := d.epoch, step, chunk, count := c.count, origin := c.origin, backup := c.backup, flags := c.flags
    selDigest := c.selDigest, payload := c.data }

/-- A unit as an input, taken at a port. -/
def chunkInput (u : ChunkUnit) (key : Nat) (port : Option Nat := none) : ChunkIn :=
  { key, port, hash := if port.isSome then chunkHash (chunkBytes u) else 0, origin := u.origin, enc := u.encoding, count := u.count, backup := u.backup, flags := u.flags, selDigest := u.selDigest, data := u.payload }

/-! ### Reductions (R419 to R423) -/

/-- Which reduction of a bucket, step and chunk a place is. -/
def Reduction.at_ (r : Reduction) (bucket : Nat) (step : W32) (chunk : Nat) (stage : Nat) (loc : W32) : Bool :=
  decide (r.bucket = bucket) && decide (r.step = step) && decide (r.chunk = chunk) && decide (r.stage = stage) && decide (r.loc = loc)

/-- The reduction at a place, if this module holds it. -/
def State.reduction (s : State) (bucket : Nat) (step : W32) (chunk stage : Nat) (loc : W32) : Option Reduction :=
  s.lnk.reductions.find? fun r => r.at_ bucket step chunk stage loc

/-- Store a reduction. -/
def State.putReduction (s : State) (r : Reduction) : State :=
  let hit := fun (x : Reduction) => x.at_ r.bucket r.step r.chunk r.stage r.loc
  let l := if s.lnk.reductions.any hit then s.lnk.reductions.map fun x => if hit x then r else x else s.lnk.reductions ++ [r]
  { s with lnk := { s.lnk with reductions := l } }

/-- The steps of a bucket that this module holds. -/
def State.heldSteps (s : State) (bucket : Nat) : List W32 :=
  ((s.lnk.reductions.filter fun r => decide (r.bucket = bucket)).map (·.step)).eraseDups

/-- Every chunk of a step is finished at every combining point this module is. -/
def State.stepFinished (s : State) (d : BktDef) (bucket : Nat) (step : W32) : Bool :=
  (s.roles d.part bucket step).all fun p => (d.stagesAt (s.awaits d) p).all fun st =>
    (List.range d.chunks.toNat).all fun c => match s.reduction bucket step c st p with
      | none => false
      | some r => r.done

/-- The oldest, and the newest, of a list of steps. -/
def oldest (l : List W32) : Option W32 := l.foldl (fun a t => some (match a with
  | none => t
  | some u => if newer u t then t else u)) none
def newest (l : List W32) : Option W32 := l.foldl (fun a t => some (match a with
  | none => t
  | some u => if newer t u then t else u)) none

/-- The oldest unfinished step of a bucket: the oldest held that is not finished, or the one after the newest finished, if that is older and so
has had no input yet (R423). -/
def State.oldestUnfinished (s : State) (d : BktDef) (bucket : Nat) : Option W32 :=
  let l := s.heldSteps bucket
  oldest (l.filter (fun t => !s.stepFinished d bucket t) ++ ((newest (l.filter (s.stepFinished d bucket))).map (· + 1)).toList)

/-- What becomes of an input (R418, R419, R422, R423): taken, discarded as late, left with its sender, or refused. -/
inductive Fate where
  | take | late | hold | refuse (st : Nat)
deriving DecidableEq, Repr

/-- A step is older than the bucket's floor, which a STEP_REVERT has set (R497). -/
def State.belowFloor (s : State) (bucket : Nat) (step : W32) : Bool := (SMap.get none s.lnk.floors bucket).any fun n => newer n step

/-- A step is older than the bucket's floor, or than both steps held (R423, R497). -/
def State.tooOld (s : State) (bucket : Nat) (step : W32) : Bool :=
  s.belowFloor bucket step
  || (let l := s.heldSteps bucket
      !l.contains step && !l.isEmpty && l.all (fun t => newer t step) && (decide (2 ≤ l.length) || l.any fun t => decide ((t - step).toNat > 1)))

/-! ### Deliveries' landing channels (R115, R137, R140, R408, R417) -/

/-- The core of a rank of a partition (R115). -/
def State.rankCore (s : State) (part rank : Nat) : Option Nat := (s.coresIn part)[rank]?

/-- A core's channel has a credit for a message from the links. -/
def State.linkRoom (s : State) (core chan : Nat) : Bool :=
  let x := (s.core core).chan chan
  x.waiters.isEmpty && decide (x.granted < x.depth)

/-- A message from the links goes to a core's channel, if the channel has a credit for it: source 288, hint 0x10, source core index the
receiver's own (R137, R140, R408). -/
def State.linkDeliver (s : State) (core chan : Nat) (word0 : W32) (word1 : W64) (d : TileData) : Option State :=
  if s.linkRoom core chan then
    let x := (s.core core).chan chan
    let t := s.modCore core fun c => c.setChan chan { x with granted := x.granted + 1 }
    some { t with mesh := t.mesh ++ [{ src := 288, dst := core, chan, word0, word1, hint := 0x10, srcByte := BitVec.ofNat 8 core, data := some d }] }
  else none

/-- A partition takes deliveries: it runs or is being frozen (R526). -/
def State.takesDeliveries (s : State) (part : Nat) : Bool := (s.part part).st == .running || (s.part part).st == .freezing

/-- The messages of a finished chunk of a mode, and the rank one goes to (R411, R417). -/
def deliveryCount (mode : Nat) : Nat := if mode = 0 ∨ mode = 2 then 4 else 1
def BktDef.rankFor (d : BktDef) (chunk : Nat) : Nat := d.landRank + (if d.mode = 3 ∨ d.mode = 4 then 0 else chunk % d.landCount)

/-- The next message of a chunk can be delivered now. -/
def State.canDeliver (s : State) (d : BktDef) (chunk : Nat) : Bool :=
  s.takesDeliveries d.part && (s.rankCore d.part (d.rankFor chunk)).any fun k => s.linkRoom k d.landChan

/-! ### What an input does (R414 to R423) -/

/-- The links can take a result of mode 3 or 4 at a role towards every position beyond it now (R417). -/
def State.canPassResult (s : State) (d : BktDef) (r : Reduction) : Bool :=
  (d.childrenOf (s.awaits d) d.owner r.loc).all fun p =>
    let at_ := s.acting d.part r.bucket r.step p
    decide (at_ = s.me) || (s.sendPort 1 (32 + encBytes (sumEnc d.mode)) at_).isSome

/-- A result of mode 3 or 4 that this module cannot pass on, or cannot deliver, now (R417, R418). -/
def State.resultStuck (s : State) (d : BktDef) (r : Reduction) : Bool :=
  (!r.sent && !s.canPassResult d r) || (s.awaits d r.loc && decide (r.delivered < 1) && !s.canDeliver d r.chunk)

/-- A sum that this module holds because it cannot pass it on now: the next hop has no credit, or the landing channel has none (R418). The result of
mode 3 or 4 at its owner is one too, and so is the owner's sum while its partition is Frozen or Saving (R528). -/
def State.cannotPass (s : State) (d : BktDef) (r : Reduction) : Bool :=
  r.sum.isSome && (match d.nextPlace r.stage r.loc with
    | some q => !r.sent && (s.sendPort 1 (32 + encBytes (sumEnc d.mode)) (s.acting d.part r.bucket r.step q.loc)).isNone
    | none =>
      if d.mode ≤ 2 then decide (r.delivered < deliveryCount d.mode) && !s.canDeliver d r.chunk
      else !r.sent || (s.reduction r.bucket r.step r.chunk 5 r.loc).any (s.resultStuck d))

/-- A place, and those its sums go on to without leaving this module (R414, R494). -/
def State.placesHere (s : State) (d : BktDef) (bucket : Nat) (step : W32) : Nat → Place → List Place
  | 0, p => [p]
  | n + 1, p => p :: (match d.nextPlace p.stage p.loc with
    | some q => if s.acting d.part bucket step q.loc = s.me then s.placesHere d bucket step n q else []
    | none => [])

/-- A combining point holds a sum that it cannot pass on: its inputs hold with their senders (R418). -/
def State.holdsInputs (s : State) (d : BktDef) (bucket : Nat) (step : W32) (p : Place) : Bool :=
  (s.placesHere d bucket step 8 p).any fun q => s.lnk.reductions.any fun r =>
    decide (r.bucket = bucket) && decide (r.stage = q.stage) && decide (r.loc = q.loc) && s.cannotPass d r

/-- The fate of an input at a place of a definition (R416, R418, R419, R422, R423). -/
def State.fate (s : State) (d : BktDef) (bucket : Nat) (step : W32) (chunk : Nat) (p : Place) (c : ChunkIn) : Fate :=
  if s.tooOld bucket step then .late
  else
    let ahead := match s.oldestUnfinished d bucket with
      | none => false
      | some t => newer step t && decide ((step - t).toNat > 1)
    if ahead then .refuse 0x0421
    else
      let r := (s.reduction bucket step chunk p.stage p.loc).getD { bucket, step, chunk, stage := p.stage, loc := p.loc }
      if r.sum.isSome || r.done || r.inputs.any (fun x => decide (x.key = p.key)) then .late
      else if d.mode = 2 && r.inputs.any (fun x => x.selDigest != c.selDigest) then .refuse 0x0422
      else if s.holdsInputs d bucket step p then .hold
      else .take

/-- The combining point has seen both copies of a contribution: the copy it took is recorded (R419, R426). -/
def State.noteChoice (s : State) (bucket : Nat) (step : W32) (chunk : Nat) (p : Place) (c : ChunkIn) : State :=
  match s.reduction bucket step chunk p.stage p.loc with
  | none => s
  | some r => match r.inputs.find? fun x => decide (x.key = p.key) with
    | none => s
    | some x =>
      let e : Choice := { bucket, step, origin := c.origin, chunk, backup := x.backup }
      if p.stage = 1 && x.backup != c.backup && !s.lnk.choices.contains e then { s with lnk := { s.lnk with choices := s.lnk.choices ++ [e] } }
      else s

/-- The value of mode 3 or 4 that a participant delivers, with the verdict in the norm tile (R417, R451). -/
def State.resultTile (s : State) (d : BktDef) (bucket : Nat) (c : ChunkIn) : Mem :=
  match (s.part d.part).ctx with
  | none => c.data
  | some x => if x.normBucket.toNat = bucket then x.normTile (c.data.read 64 0) else c.data

/-- The result of a mode 3 or 4 bucket arrives at a position this module serves: it is to be delivered and passed on, and the step
controller sees it (R417, R450, R458). -/
def State.resultArrives (s : State) (d : BktDef) (bucket : Nat) (step : W32) (chunk : Nat) (loc : W32) (c : ChunkIn) : State :=
  let t := s.putReduction { bucket, step, chunk, stage := 5, loc, sum := some { c with data := s.resultTile d bucket c } }
  let v := c.data.read 64 0
  match (t.part d.part).ctx with
  | none => t
  | some x =>
    let t := if x.normBucket.toNat = bucket then t.normArrives d.part step v else t
    if x.tokenBucket.toNat = bucket then t.tokenArrives d.part step v else t

/-- An input is refused: the event, with bucket, step and origin (R422). -/
def State.refused (s : State) (st bucket : Nat) (step origin : W32) : State :=
  s.lnkEvent 4 { status := st, words := [bucket, step.toNat, origin.toNat] }

/-- Where every input that a reduction waits for has come, its sum is formed, which goes on to the next stage by `next` where this module is its
combining point too, as any input does, or, for mode 3 or 4, becomes the result at its owner, unless its partition is Frozen or Saving (R414 to R417,
R528). -/
def State.formSum (s : State) (d : BktDef) (r : Reduction) (next : State → Place → ChunkIn → State) : State :=
  let keys := d.keys (s.awaits d) r.stage r.loc
  let l := keys.filterMap fun k => r.inputs.find? fun x => decide (x.key = k)
  if l.length < keys.length then s.putReduction r
  else
    let sum := combine d.mode r.stage r.loc l
    match d.nextPlace r.stage r.loc with
    | some q =>
      if s.acting d.part r.bucket r.step q.loc = s.me then
        let t := s.putReduction { r with sum := some sum, sent := true, done := true }
        match t.fate d r.bucket r.step r.chunk q sum with
        | .late => t
        | .refuse st => t.refused st r.bucket r.step sum.origin
        | _ => next t q sum
      else s.putReduction { r with sum := some sum }
    | none =>
      if d.mode ≤ 2 ∨ s.shut d.part then s.putReduction { r with sum := some sum }
      else (s.putReduction { r with sum := some sum, sent := true, done := true }).resultArrives d r.bucket r.step r.chunk r.loc sum

/-- An input is taken; the last one lets the sum be formed (R414 to R416, R422). -/
def State.takeInput (s : State) (d : BktDef) (bucket : Nat) (step : W32) (chunk : Nat) (p : Place) (c : ChunkIn) : Nat → State
  | 0 => s
  | n + 1 =>
    let r := (s.reduction bucket step chunk p.stage p.loc).getD { bucket, step, chunk, stage := p.stage, loc := p.loc }
    s.formSum d { r with inputs := r.inputs ++ [{ c with key := p.key }] } fun t q sum => t.takeInput d bucket step chunk q sum n

/-- The reductions of a bucket but for finished ones of steps that two later ones have followed (R423). -/
def State.pruneSteps (s : State) (bucket : Nat) : State :=
  let steps := s.heldSteps bucket
  { s with lnk := { s.lnk with reductions := s.lnk.reductions.filter fun r => !(decide (r.bucket = bucket) && r.done && stale steps r.step) } }

/-- An input at its combining point: taken, discarded as late, left with its sender, or refused; the fate says which. With `force` it is not left:
the step controller has no buffer of its own to keep it in. -/
def State.input (s : State) (d : BktDef) (bucket : Nat) (step : W32) (chunk : Nat) (p : Place) (c : ChunkIn) (force : Bool := false) : State × Fate :=
  match s.fate d bucket step chunk p c with
  | .take => ((s.takeInput d bucket step chunk p c 8).pruneSteps bucket, .take)
  | .hold => if force then ((s.takeInput d bucket step chunk p c 8).pruneSteps bucket, .take) else (s, .hold)
  | f => (s.noteChoice bucket step chunk p c, f)

/-! ### Faults and posts (R402, R405 to R407, R422) -/

/-- A contribution of this module, or a backup copy, enters the reduction: at once where this module is its combining point, otherwise
towards it; none where the links cannot take it now. Its hash enters the posted digest (R405, R418 to R420, R425). -/
def State.contribute (s : State) (d : BktDef) (u : ChunkUnit) (force : Bool := false) : Option State :=
  let p := d.boardPlace u.origin
  let posted := fun (t : State) => t.digest u.bucket u.step 0xfe fun e => e.addSent (chunkHash (chunkBytes u))
  if s.acting d.part u.bucket u.step p.loc = s.me then
    let r := (posted s).input d u.bucket u.step u.chunk p (chunkInput u p.key) force
    match r.2 with
    | .refuse st => some (r.1.refused st u.bucket u.step u.origin)
    | .hold => none
    | _ => some r.1
  else (s.trySend d.part 1 (s.acting d.part u.bucket u.step p.loc) (chunkBytes u)).map posted

/-- A contribution that the module itself makes: it waits for the links if it must (R458). -/
def State.contributeOrWait (s : State) (d : BktDef) (u : ChunkUnit) : State :=
  match s.contribute d u true with
  | some t => t
  | none =>
    (s.digest u.bucket u.step 0xfe fun e => e.addSent (chunkHash (chunkBytes u))).dispatch d.part 1
      (s.acting d.part u.bucket u.step (d.boardPlace u.origin).loc) (chunkBytes u)

/-- The position a post of this module carries as its origin: the participant that it serves, first installed first, or its own (R420). -/
def State.originAt (s : State) (d : BktDef) (bucket : Nat) (step : Option W32) : W32 :=
  (((s.rolesAt d.part bucket step).find? fun p => decide (p ≠ s.me) && s.participates d p)).getD s.me

/-- The link step at which a partition posts now: its training context's; none where it has no context (R454, R470). -/
def State.stepNow (s : State) (part : Nat) : Option W32 := (s.part part).ctx.map (·.linkStep)

/-- The step controller posts its commit token, for its own position and for every one that this module serves (R458, R494). -/
def State.postToken (s : State) (part : Nat) : State :=
  match (s.part part).ctx with
  | none => s
  | some x =>
    let b := x.tokenBucket.toNat
    match s.defFor b x.lastStep with
    | none => s
    | some d => ((s.roles d.part b x.lastStep).filter (s.awaits d)).foldl (fun t p => t.contributeOrWait d {
        bucket := b, encoding := 4, stage := 0, epoch := d.epoch, step := x.lastStep, chunk := 0, count := 1
        origin := p, backup := false, flags := 0, selDigest := 0
        payload := Mem.ofList (wordBytes (tokenWord (x.version + 1))) }) s

end Sys2Proof.Machine
end

