-- ==== Sys2Proof/Machine/Reduce.lean ====
section
/-! DEFINITION. Posts, chunks, sums, deliveries, transfers and the bucket commands (R405 to R426, R494). -/

namespace Sys2Proof.Machine

/-! ### Chunks (R414 to R423) -/

/-- A chunk taken at a port: counted in a digest of the port, its buffer freed (R404, R425). -/
def State.chunkAt (s : State) (port : Nat) (u : ChunkUnit) (f : DigestRec → BitVec 128 → DigestRec) : State :=
  (s.digest u.bucket u.step port fun d => f d (chunkHash (chunkBytes u))).freeUnit port 1 (chunkBytes u)

/-- A chunk that is refused: discarded, its event raised, its sender told (R422). -/
def State.refuseChunk (s : State) (port : Nat) (u : ChunkUnit) (st : Nat) : State :=
  ((s.chunkAt port u DigestRec.addDisc).refused st u.bucket u.step u.origin).sendRefusal port st u.bucket u.step u.origin u.origin

/-- A position takes part in a bucket as a participant or as a combining point. -/
def State.involves (s : State) (d : BktDef) (p : W32) : Bool := s.awaits d p || !(d.stagesAt (s.awaits d) p).isEmpty

/-- The role of this module that a result for this module reaches: one it has no result for yet. -/
def State.resultRole (s : State) (d : BktDef) (bucket : Nat) (step : W32) (chunk : Nat) : Option W32 :=
  (s.roles d.part bucket step).find? fun p => s.involves d p && (s.reduction bucket step chunk 5 p).isNone

/-- An input at the combining point that it is for; one that is to hold stays in the receive buffers (R418). -/
def State.takeChunk (s : State) (port : Nat) (u : ChunkUnit) (d : BktDef) (p : Place) : State :=
  let r := s.input d u.bucket u.step u.chunk p (chunkInput u p.key (some port))
  match r.2 with
  | .take => r.1.chunkAt port u DigestRec.addTaken
  | .late => r.1.chunkAt port u DigestRec.addDisc
  | .hold => s
  | .refuse st => r.1.refuseChunk port u st

/-- A unit that is not for this module goes on towards its own unchanged, if the links can take it: against the share of the bucket's partition
here, or, where the bucket has no definition here, against none (R403, R404, R418, R425). -/
def State.forwardChunk (s : State) (port : Nat) (u : ChunkUnit) (dst : W32) : State :=
  match s.trySend ((((s.bucket u.bucket).getLast?).map (·.part)).getD 0xff) 1 dst (chunkBytes u) (some port) with
  | none => s
  | some t => t.chunkAt port u DigestRec.addTaken

/-- A chunk for this module under the definition that governs its step: an input of a combining point here or of the module that acts for it
now, or a result (R414 to R423, R494), which is late before the bucket's floor (R497), and waits in the receive buffers while its partition is Frozen
or Saving (R528). -/
def State.chunkHere (s : State) (port : Nat) (u : ChunkUnit) (d : BktDef) : State :=
  if d.chunks.toNat ≤ u.chunk then s.chunkAt port u DigestRec.addDisc
  else if u.stage = 5 then
    if s.belowFloor u.bucket u.step then s.chunkAt port u DigestRec.addDisc
    else if s.shut d.part then s
    else match s.resultRole d u.bucket u.step u.chunk with
    | none => s.chunkAt port u DigestRec.addDisc
    | some p => (s.chunkAt port u DigestRec.addTaken).resultArrives d u.bucket u.step u.chunk p (chunkInput u 0)
  else match d.placeOf u.stage u.origin with
    | none => s.chunkAt port u DigestRec.addDisc
    | some p =>
      let at_ := s.acting d.part u.bucket u.step p.loc
      if at_ ≠ s.me then s.forwardChunk port u at_
      else if (d.keys (s.awaits d) p.stage p.loc).contains p.key then s.takeChunk port u d p
      else s.chunkAt port u DigestRec.addDisc

/-- CHUNK_RECEIVE (R403, R414 to R423): a chunk at the module it is for, or at one on its way. -/
def execChunkReceive (port : Nat) (u : ChunkUnit) (s : State) : Res :=
  onUnit (portOk port) (
    if !s.su.linksDriven then s
    else if u.dst ≠ s.me then s.forwardChunk port u u.dst
    else match s.defFor u.bucket u.step with
    | none => s.refuseChunk port u 0x0420
    | some d => if d.epoch ≠ u.epoch then s.refuseChunk port u 0x0420 else s.chunkHere port u d)

/-- A formed sum of a stage of a chunk that waits to be sent. -/
def State.sumWaiting (s : State) (bucket : Nat) (step : W32) (chunk stage : Nat) : Option (Reduction × ChunkIn) :=
  match s.lnk.reductions.find? fun r =>
      decide (r.bucket = bucket) && decide (r.step = step) && decide (r.chunk = chunk) && decide (r.stage = stage) && r.sum.isSome && !r.sent with
  | none => none
  | some r => r.sum.map fun c => (r, c)

/-- A result goes on to one position of the reverse routes: over the links, or to another role of this module (R417, R494). -/
def State.passResult (s : State) (d : BktDef) (bucket : Nat) (step : W32) (chunk : Nat) (c : ChunkIn) (p : W32) : Option State :=
  let at_ := s.acting d.part bucket step p
  if at_ = s.me then
    if s.shut d.part then none
    else some (if (s.reduction bucket step chunk 5 p).isSome then s else s.resultArrives d bucket step chunk p c)
  else s.trySend d.part 1 at_ (chunkBytes (sumUnit d bucket step chunk 5 c))

/-- A result goes on to every position beyond a role; none where the links cannot take it all now. -/
def State.passAll (s : State) (d : BktDef) (bucket : Nat) (step : W32) (chunk : Nat) (c : ChunkIn) : List W32 → Option State
  | [] => some s
  | p :: r => match s.passResult d bucket step chunk c p with
    | none => none
    | some t => t.passAll d bucket step chunk c r

/-- SUM_SEND (R414 to R418, R528): a formed sum, re-quantized, or a result, leaves for its next hop; a sum of mode 3 or 4 that waited at its owner
for THAW becomes the result. -/
def execSumSend (bucket : Nat) (step : W32) (chunk stage : Nat) (s : State) : Res :=
  .next (match s.sumWaiting bucket step chunk stage, s.defFor bucket step with
    | some (r, c), some d =>
      if stage = 5 then
        match s.passAll d bucket step chunk { c with data := c.data.slice 0 8 } (d.childrenOf (s.awaits d) d.owner r.loc) with
        | none => s
        | some t => (t.putReduction { r with sent := true, done := decide (1 ≤ r.delivered) || !s.awaits d r.loc }).pruneSteps bucket
      else match d.nextPlace stage r.loc with
        | none =>
          if d.mode ≤ 2 ∨ s.shut d.part then s
          else ((s.putReduction { r with sent := true, done := true }).resultArrives d bucket step chunk r.loc c).pruneSteps bucket
        | some q =>
          match s.trySend d.part 1 (s.acting d.part bucket step q.loc) (chunkBytes (sumUnit d bucket step chunk stage (requant d.mode c))) with
          | none => s
          | some t => (t.putReduction { r with sent := true, done := true }).pruneSteps bucket
    | _, _ => s)

/-! ### Deliveries (R408, R417) -/

/-- User word 1 of message `k` of a delivery (R417). -/
def deliveryWord (bucket chunk k : Nat) (c : ChunkIn) : W64 :=
  BitVec.ofNat 64 (bucket + chunk * 2 ^ 16 + k * 2 ^ 32 + c.flags.toNat * 2 ^ 34 + (if c.backup then 2 ^ 37 else 0) + (c.count - 1) % 2 ^ 14 * 2 ^ 38)

/-- The tile of message `k` of a finished chunk of a mode (R411, R417). -/
def deliveryTile (mode k : Nat) (c : ChunkIn) : TileData :=
  if mode = 0 ∨ mode = 2 then { fmt := 5, payload := c.data.slice (8192 * k) 8192 } else { payload := c.data.slice 0 8192 }

/-- A reduction of a chunk that this module delivers: the owner's last sum, or a result at a participant (R417). -/
def State.delivers (s : State) (d : BktDef) (r : Reduction) : Bool :=
  if d.mode = 3 ∨ d.mode = 4 then decide (r.stage = 5) && s.awaits d r.loc
  else decide (r.stage = 4) && (d.nextPlace 4 r.loc).isNone

/-- A finished chunk that waits to be delivered. -/
def State.deliveryWaiting (s : State) (d : BktDef) (bucket : Nat) (step : W32) (chunk : Nat) : Option (Reduction × ChunkIn) :=
  match s.lnk.reductions.find? fun r =>
      decide (r.bucket = bucket) && decide (r.step = step) && decide (r.chunk = chunk) && s.delivers d r && r.sum.isSome
        && decide (r.delivered < deliveryCount d.mode) with
  | none => none
  | some r => r.sum.map fun c => (r, c)

/-- The hash of a chunk as its owner delivers it: of the header and payload that R412 and R413 give a result, or, for modes 0 and 2, whose
delivered binary32 values have no encoding on the wire, a free value (R424, R425, assumption 45). -/
def deliveredHash (d : BktDef) (u : ChunkUnit) : BitVec 128 :=
  if d.mode = 0 ∨ d.mode = 2 then Config.deliveredHash (chunkBytes u) else chunkHash (chunkBytes u)

/-- A message of a delivery is counted: the tile has landed for the step in progress; the last one completes the chunk and, at the owner,
enters the delivered digest (R425, R461). -/
def State.delivered (s : State) (d : BktDef) (r : Reduction) (c : ChunkIn) : State :=
  let n := r.delivered + 1
  let last := decide (n = deliveryCount d.mode)
  let t := s.putReduction { r with delivered := n, done := last && (r.sent || decide (d.mode ≤ 2)) }
  let t := if d.mode ≤ 2 then t.modPart d.part fun p => { p with ctx := p.ctx.map fun x => { x with landedAt := some r.step } } else t
  if last && decide (r.loc = d.owner) then
    t.digest r.bucket r.step 0xff fun e => e.addTaken (deliveredHash d (sumUnit d r.bucket r.step r.chunk 5 { c with data := c.data.slice 0 (encBytes c.enc) }))
  else t

/-- CHUNK_DELIVER (R408, R417, R418): the next message of a finished chunk goes to its landing rank, once the channel has a credit. -/
def execChunkDeliver (bucket : Nat) (step : W32) (chunk : Nat) (s : State) : Res :=
  .next (match s.defFor bucket step with
    | none => s
    | some d => match s.deliveryWaiting d bucket step chunk with
      | none => s
      | some (r, c) =>
        match s.rankCore d.part (d.rankFor chunk) with
        | none => s
        | some core =>
          if s.takesDeliveries d.part then
            match s.linkDeliver core d.landChan step (deliveryWord bucket chunk r.delivered c) (deliveryTile d.mode r.delivered c) with
            | none => s
            | some t => (t.delivered d r c).pruneSteps bucket
          else s)

/-- The definition a gather follows: the one that governs the link step of its partition's training context, or, where the partition has none,
the older of those installed (R409, R470, assumption 91). -/
def State.gatherDef (s : State) (bucket : Nat) : Option BktDef :=
  match (s.bucket bucket).getLast? with
  | none => none
  | some d => match s.stepNow d.part with
    | some t => s.defFor bucket t
    | none => (s.bucket bucket).head?

/-- The module that acts for a position in gathers (R494). -/
def State.actingNow (s : State) (part bucket : Nat) (p : W32) : W32 := s.actingAt part bucket (s.stepNow part) p

/-- A gather goes on to the positions beyond one, away from its sender (R408). -/
def State.spreadGather (s : State) (d : BktDef) (t : TransferUnit) : State :=
  (d.childrenOf (s.awaits d) t.origin t.dst).foldl (fun s c =>
    let u := { t with dst := c }
    let at_ := s.actingNow d.part t.bucket c
    if at_ = s.me then { s with lnk := { s.lnk with toDeliver := s.lnk.toDeliver ++ [u] } }
    else s.dispatch d.part 2 at_ (transferBytes u)) s

/-- The module that a unit is for, and the partition whose share it uses here (R404, R406, R408, R494). -/
def State.transferGoal (s : State) (t : TransferUnit) : W32 × Nat :=
  if t.gather then
    match s.gatherDef t.bucket with
    | some d => (s.actingNow d.part t.bucket t.dst, d.part)
    | none => (t.dst, 0xff)
  else (t.dst, t.part)

/-- What becomes of a unit at the module it is for (R408, R493): delivered to a core of a partition, passed on only, or discarded. -/
inductive Landing where
  | core (part k : Nat) | pass | drop (part : Nat)
deriving DecidableEq, Repr

/-- A unit whose core is not the partition's, or whose job tag differs, is discarded; a gather is passed on where its position is delivered
nothing (R408, R493). -/
def State.landing (s : State) (t : TransferUnit) : Landing :=
  let land := fun (part : Nat) (k : Option Nat) => match k with
    | some k => if (s.part part).jobTag = t.tag then Landing.core part k else .drop part
    | none => .drop part
  if t.gather then
    match s.gatherDef t.bucket with
    | none => .drop t.part
    | some d => if s.awaits d t.dst then land d.part (s.rankCore d.part t.core) else .pass
  else land t.part (if (s.coresIn t.part).contains t.core then some t.core else none)

/-- The further copies of a gather that has arrived (R408). -/
def State.spread (s : State) (t : TransferUnit) : State :=
  match t.gather, s.gatherDef t.bucket with
  | true, some d => s.spreadGather d t
  | _, _ => s

/-- A unit is taken: a copy held here is removed, or its receive buffer is freed; a gather goes on. -/
def State.takeTransfer (s : State) (t : TransferUnit) : State :=
  (if s.lnk.toDeliver.contains t then { s with lnk := { s.lnk with toDeliver := s.lnk.toDeliver.erase t } }
   else s.freeAny 2 (transferBytes t)).spread t

/-- TRANSFER_DELIVER (R403, R408): a transfer or gather goes on towards its module, is delivered as a message, or is discarded where the
job tag differs. -/
def execTransferDeliver (t : TransferUnit) (s : State) : Res :=
  .next (if !s.su.linksDriven then s
    else
      let goal := s.transferGoal t
      let l := transferBytes t
      if goal.1 ≠ s.me then
        match s.trySend goal.2 2 goal.1 l (s.portWith 2 l) with
        | none => s
        | some u => u.freeAny 2 l
      else match s.landing t with
        | .drop part => (s.takeTransfer t).lnkEvent 4 { status := 0x0436, part := some part, words := [part] }
        | .pass => s.takeTransfer t
        | .core part k =>
          if s.takesDeliveries part then
            match s.linkDeliver k t.chan t.word0 t.word1 t.tile with
            | none => s
            | some u => u.takeTransfer t
          else s)

/-! ### Posts (R405 to R407, R483) -/

/-- The unit's own tile: the posted payload, and the side data from byte 32 on (R406). -/
def unitTile (d : TileData) : TileData :=
  { d with side := d.side.slice 32 (d.sideLen - 32), sideLen := d.sideLen - 32 }

/-- The payload of a contribution of a mode (R412). -/
def chunkPayload (mode : Nat) (d : TileData) : Mem :=
  if mode = 0 ∨ mode = 2 then d.payload.slice 0 8192 ++ (d.side.slice 32 512).map fun e => (e.1 + 8192, e.2)
  else if mode = 1 then d.payload.slice 0 8192
  else d.payload.slice 0 8

/-- A contribution or backup copy as a unit (R406, R412, R413). -/
def postedChunk (d : BktDef) (p : TileData) (origin : W32) (backup : Bool) : ChunkUnit :=
  let f := fun o n => p.side.readNat o n
  { bucket := f 2 2, encoding := postEnc d.mode, stage := 0, epoch := d.epoch, step := BitVec.ofNat 32 (f 4 4), chunk := f 8 2, count := f 0xa 2
    origin, backup, flags := 0, selDigest := if d.mode = 2 then BitVec.ofNat 64 (f 0x10 8) else 0, payload := chunkPayload d.mode p }

/-- What becomes of a post: discarded as invalid, or taken; none while the links cannot take it (R405 to R408). -/
inductive Posted where
  | invalid
  | took (s : State)
  | wait
deriving DecidableEq, Repr

/-- A post taken, or one that waits. -/
def Posted.ofOption : Option State → Posted
  | none => .wait
  | some s => .took s

/-- A contribution or backup copy is posted (R405, R407, R419, R420). -/
def State.postChunk (s : State) (part : Nat) (p : TileData) (backup : Bool) : Posted :=
  let f := fun o n => p.side.readNat o n
  let step : W32 := BitVec.ofNat 32 (f 4 4)
  match s.defFor (f 2 2) step with
  | none => .invalid
  | some d =>
    let origin := if backup then BitVec.ofNat 32 (f 0xc 4) else s.originAt d (f 2 2) (some step)
    if decide (d.part = part) && decide (f 8 2 < d.chunks.toNat) && decide (1 ≤ f 0xa 2) && decide (f 0xa 2 ≤ modeElems d.mode)
        && s.participates d origin then
      .ofOption (s.contribute d (postedChunk d p origin backup))
    else .invalid

/-- A transfer is posted (R406, R408). -/
def State.postTransfer (s : State) (part : Nat) (p : TileData) : Posted :=
  let f := fun o n => p.side.readNat o n
  let t : TransferUnit := {
    gather := false, origin := s.me, tag := (s.part part).jobTag, dst := BitVec.ofNat 32 (f 0xc 4), part := f 0x18 1, core := f 0x1a 2
    chan := f 0x19 1, bucket := 0, word0 := BitVec.ofNat 32 (f 4 4), word1 := BitVec.ofNat 64 (f 0x10 8), tile := unitTile p }
  if partOk t.part && decide (t.chan ≤ 14) && coreOk t.core then
    if t.dst = s.me then .took { s with lnk := { s.lnk with toDeliver := s.lnk.toDeliver ++ [t] } }
    else .ofOption (s.trySend part 2 t.dst (transferBytes t))
  else .invalid

/-- A gather is posted: the sender's own copy waits here, and goes on from there (R406, R408). -/
def State.postGather (s : State) (part : Nat) (p : TileData) : Posted :=
  let f := fun o n => p.side.readNat o n
  match s.gatherDef (f 2 2) with
  | none => .invalid
  | some d =>
    let origin := s.originAt d (f 2 2) (s.stepNow part)
    let t : TransferUnit := {
      gather := true, origin, tag := (s.part part).jobTag, dst := origin, part, core := f 0x1a 2
      chan := f 0x19 1, bucket := f 2 2, word0 := BitVec.ofNat 32 (f 4 4), word1 := BitVec.ofNat 64 (f 0x10 8), tile := unitTile p }
    if decide (d.part = part) && decide (t.chan ≤ 14) && decide (t.core < (s.coresIn part).length) && s.participates d origin then
      .took { s with lnk := { s.lnk with toDeliver := s.lnk.toDeliver ++ [t] } }
    else .invalid

/-- A post by its descriptor's kind; reserved bytes must be 0 (R406, R407). -/
def State.postUnit (s : State) (part : Nat) (p : TileData) : Posted :=
  let kind := p.side.readNat 0 1
  if p.side.readNat 1 1 ≠ 0 ∨ p.side.readNat 0x1c 4 ≠ 0 then .invalid
  else if kind = 0 then s.postChunk part p false
  else if kind = 1 then s.postChunk part p true
  else if kind = 2 then s.postTransfer part p
  else if kind = 3 then s.postGather part p
  else .invalid

/-- A post while Winching is discarded, with event 0x0264 once for each re-shard (R483). -/
def State.postWinching (s : State) (part : Nat) : State :=
  match (s.part part).ctx with
  | none => s
  | some x => match x.reshard with
    | none => s
    | some r =>
      if r.raised264 then s
      else (s.modPart part fun p => { p with ctx := some { x with reshard := some { r with raised264 := true } } }).raise
        { status := 0x0264, part := some part, words := [part] }

/-- The partition's context is Winching. -/
def State.winching (s : State) (part : Nat) : Bool :=
  match (s.part part).ctx with
  | none => false
  | some x => x.st == .winching

/-- POST_WRITE (R405 to R408, R483): write `k` of a core, to its partition's post port, is taken by the links, discarded, or waits. -/
def execPostWrite (core k : Nat) (s : State) : Res :=
  onUnit (coreOk core) (match s.writeDue core k with
    | some (o, part, _, .postPort, a, d) =>
      if s.winching part then (s.postWinching part).accepted core k o a d
      else match s.postUnit part d with
        | .wait => s
        | .took t => t.accepted core k o a d
        | .invalid =>
          (s.lnkEvent 4 { status := 0x0435, part := some part, words := [part, d.side.readNat 2 2] }).accepted core k o a d
    | _ => s)

/-! ### The bucket table (R409, R410, R420) -/

/-- The bucket, partition and step of a link command. -/
def bktIdx (c : BitVec 512) : Nat := cmdField c 0x10 2
def bktPart (c : BitVec 512) : Nat := cmdField c 0x12 1
def bktStep (c : BitVec 512) : W32 := BitVec.ofNat 32 (cmdField c 0x18 4)
def bktPos (c : BitVec 512) (off : Nat) : W32 := BitVec.ofNat 32 (cmdField c off 4)

/-- A position within the topology (R5, R66, R68). -/
def posOk (p : W32) : Bool := decide (posX p < 16) && decide (posY p < 16) && decide (posB p < 8) && decide (posS p < 8)

/-- Some reduction of a bucket whose step a test accepts is unfinished. -/
def State.unfinished (s : State) (bucket : Nat) (f : W32 → Bool) : Bool :=
  s.lnk.reductions.any fun r => decide (r.bucket = bucket) && f r.step && !r.done

/-- BUCKET_DEF_RETIRE (R409): of two definitions the older is removed when no unfinished reduction is of a step that it governs. -/
def execBucketDefRetire (bucket : Nat) (s : State) : Res :=
  onUnit (decide (bucket < 4096)) (match s.bucket bucket with
    | [d, e] => if s.unfinished bucket fun t => decide (s.defFor bucket t = some d) then s else s.setBucket bucket [e]
    | _ => s)

/-- The definition a BKT_DEF gives (R410). -/
def bktDefOf (c : BitVec 512) : BktDef :=
  { part := bktPart c, mode := cmdField c 0x13 1, epoch := bktPos c 0x14, first := bktStep c, chunks := BitVec.ofNat 16 (cmdField c 0x1c 2)
    lastElems := BitVec.ofNat 16 (cmdField c 0x1e 2), owner := bktPos c 0x20, x0 := cmdField c 0x24 1, nx := cmdField c 0x25 1
    y0 := cmdField c 0x26 1, ny := cmdField c 0x27 1, boards := BitVec.ofNat 8 (cmdField c 0x28 1), sites := BitVec.ofNat 8 (cmdField c 0x29 1)
    landChan := cmdField c 0x2a 1, landRank := cmdField c 0x2c 2, landCount := cmdField c 0x2e 2 }

/-- The fields of a definition are in range, in a partition of `n` cores (R410). -/
def BktDef.fieldsOk (d : BktDef) (n : Nat) : Bool :=
  decide (d.mode ≤ 4) && decide (1 ≤ d.chunks.toNat) && decide (d.chunks.toNat ≤ (if 3 ≤ d.mode then 1 else 4096))
    && decide (1 ≤ d.lastElems.toNat) && decide (d.lastElems.toNat ≤ modeElems d.mode) && posOk d.owner
    && decide (d.x0 < 16) && decide (1 ≤ d.nx) && decide (d.nx ≤ 16) && decide (d.y0 < 16) && decide (1 ≤ d.ny) && decide (d.ny ≤ 16)
    && decide (d.landChan ≤ 14) && decide (d.landRank < n) && decide (1 ≤ d.landCount) && decide (d.landCount ≤ 256)

/-- An entry can take a definition (R409). -/
def mayDefine (l : List BktDef) (d : BktDef) : Bool :=
  match l with
  | [] => true
  | [e] => e.epoch != d.epoch && newer d.first e.first
  | _ => false

/-- BKT_DEF (R409 to R411, R414, R493). -/
def execBktDef (o : RingId) (s : State) : Res :=
  hostCommand o 0x50 s fun ref c s =>
    let i := bktIdx c
    let n := bktPart c
    let d := bktDefOf c
    s.checked ref (s.partChecks n (decide (i < 4096) && cmdZero c 0x2b 1 && cmdZero c 0x30 16) 0x0430 ++ [
      (!d.fieldsOk (s.coresIn n).length, 0x0430),
      (!s.participates d s.me || !s.participates d d.owner, 0x0431),
      (!mayDefine (s.bucket i) d, 0x0432)])
      fun s => (s.setBucket i (s.bucket i ++ [d])).complete ref 0

/-- A bucket's entry goes, and with it what is finished of it. -/
def State.removeBucket (s : State) (i : Nat) : State :=
  let t := s.setBucket i []
  { t with lnk := { t.lnk with
      reductions := t.lnk.reductions.filter fun r => decide (r.bucket ≠ i), floors := SMap.set none t.lnk.floors i none } }

/-- BKT_DEL (R409). -/
def execBktDel (o : RingId) (s : State) : Res :=
  hostCommand o 0x51 s fun ref c s =>
    let i := bktIdx c
    s.checked ref (s.partChecks (bktPart c) (decide (i < 4096) && cmdZero c 0x13 45) 0x0430 ++ [
      (s.unfinished i fun _ => true, 0x0433)])
      fun s => (s.removeBucket i).complete ref 0

/-- The definitions of a partition's buckets that a substitution concerns: of one bucket, or of every bucket with 0xffff (R420). -/
def State.substDefs (s : State) (part i : Nat) : List BktDef :=
  if i = 0xffff then (s.lnk.buckets.flatMap (·.2)).filter fun d => decide (d.part = part)
  else (s.bucket i).getLast?.toList

/-- BKT_SUBST (R420, R493). -/
def execBktSubst (o : RingId) (s : State) : Res :=
  hostCommand o 0x52 s fun ref c s =>
    let i := bktIdx c
    let n := bktPart c
    let served := bktPos c 0x20
    let serving := bktPos c 0x24
    let fieldsOk := (decide (i < 4096) || i == 0xffff) && posOk served && posOk serving && cmdZero c 0x13 5 && cmdZero c 0x1c 4 && cmdZero c 0x28 24
    let defs := s.substDefs n i
    s.checked ref (s.partChecks n fieldsOk 0x0430 ++ [
      (defs.any (fun d => !(s.participates d served && s.participates d serving)) || (decide (i ≠ 0xffff) && defs.isEmpty), 0x0436)])
      fun s => (s.modPart n fun p =>
        { p with substs := p.substs ++ [{ bucket := BitVec.ofNat 16 i, served, serving, step := bktStep c }] }).complete ref 0

/-- POST_CFG (R405, R410). -/
def execPostCfg (o : RingId) (s : State) : Res :=
  hostCommand o 0x53 s fun ref c s =>
    let n := bktPart c
    let a := cmdField c 0x30 8
    let fieldsOk := cmdZero c 0x10 2 && cmdZero c 0x13 1 && cmdZero c 0x18 24 && cmdZero c 0x38 8 && a % 8192 == 0 && decide (a < 2 ^ 52)
    s.checked ref (s.partChecks n fieldsOk 0x0430 ++ [(!s.ownsAll n [a / 2 ^ 21], 0x0430)])
      fun s => (s.modPart n fun p => { p with postPort := some (BitVec.ofNat 64 a), jobTag := bktPos c 0x14 }).complete ref 0

/-! ### Digest records (R426) -/

/-- A port entry, and a choice entry, of a digest record (R426). -/
def DigestRec.bytes (d : DigestRec) : List Byte :=
  [BitVec.ofNat 8 d.port, 0, 0, 0] ++ bytesLE d.sentN.toNat 4 ++ bytesLE d.takenN.toNat 4 ++ bytesLE d.discN.toNat 4
    ++ wordBytes d.sent ++ wordBytes d.taken ++ wordBytes d.disc
def Choice.bytes (c : Choice) : List Byte := bytesLE c.origin.toNat 4 ++ bytesLE c.chunk 2 ++ [if c.backup then 1 else 0, 0]

/-- The digest record of a bucket and step, its ports in order; none where nothing of the step is kept (R426). -/
def State.digestRecord (s : State) (bucket : Nat) (step : W32) : Option (List Byte) :=
  let mine := s.lnk.digests.filter fun d => decide (d.bucket = bucket) && decide (d.step = step)
  let ports := (List.range 256).flatMap fun p => mine.filter fun d => decide (d.port = p)
  let ch := s.lnk.choices.filter fun d => decide (d.bucket = bucket) && decide (d.step = step)
  if mine.isEmpty then none
  else some (bytesLE bucket 2 ++ bytesLE ports.length 2 ++ bytesLE step.toNat 4 ++ bytesLE ch.length 4 ++ List.replicate 52 0#8
    ++ ports.flatMap DigestRec.bytes ++ ch.flatMap Choice.bytes)

/-- Bytes written into consecutive tile slots as tiles of format code 0. -/
def State.putBytes (s : State) (part slot : Nat) (l : List Byte) : State :=
  (List.range (ceilDiv l.length 8192)).foldl (fun s i => s.putTile part (slot + i) { payload := Mem.ofList ((l.drop (8192 * i)).take 8192) }) s

/-- The extents of `n` tile slots from an address on. -/
def slotExts (addr n : Nat) : List Nat := (List.range (if n = 0 then 0 else (addr + 8192 * n - 1) / 2 ^ 21 - addr / 2 ^ 21 + 1)).map fun i => addr / 2 ^ 21 + i

/-- DIGEST_READ (R426). -/
def execDigestRead (o : RingId) (s : State) : Res :=
  hostCommand o 0x54 s fun ref c s =>
    let i := bktIdx c
    let n := bktPart c
    let a := cmdField c 0x30 8
    let fieldsOk := decide (i < 4096) && cmdZero c 0x13 5 && cmdZero c 0x1c 20 && cmdZero c 0x38 8 && a % 8192 == 0 && decide (a < 2 ^ 52)
    let rec_ := s.digestRecord i (bktStep c)
    let l := rec_.getD []
    s.checked ref (s.partChecks n fieldsOk 0x0430 ++ [
      (rec_.isNone, 0x0434),
      (!s.ownsAll n (slotExts a (ceilDiv l.length 8192)), 0x0437)])
      fun s => (s.putBytes n (a / 8192) l).complete ref 0

end Sys2Proof.Machine
end

