-- ==== Sys2Proof/Machine/Train.lean ====
section
/-! DEFINITION. The training context's commands, the update-done mark and the tandem (R432 to R464, R483, R490, R497). -/

namespace Sys2Proof.Machine

/-! ### Command fields (R452) -/

def trnPart (c : BitVec 512) : Nat := cmdField c 0x1c 1
def trnAddr (c : BitVec 512) : Nat := cmdField c 0x10 8
def trnPos (c : BitVec 512) : W32 := BitVec.ofNat 32 (cmdField c 0x24 4)
def trnVersion (c : BitVec 512) : W32 := BitVec.ofNat 32 (cmdField c 0x28 4)
def trnStep (c : BitVec 512) : W32 := BitVec.ofNat 32 (cmdField c 0x2c 4)

/-- The geometry a command gives (R432, R452). -/
def trnGeo (c : BitVec 512) : Geometry :=
  { base := BitVec.ofNat 64 (trnAddr c), blocks := BitVec.ofNat 32 (cmdField c 0x18 4), compact := decide (cmdField c 0x1d 1 % 2 = 1)
    errTiles := BitVec.ofNat 32 (cmdField c 0x20 4), landSlots := BitVec.ofNat 16 (cmdField c 0x1e 2), landed := BitVec.ofNat 32 (cmdField c 0x34 4) }

/-- B and E are in range. -/
def Geometry.sizesOk (g : Geometry) : Bool := decide (1 ≤ g.blocks.toNat) && decide (g.blocks.toNat ≤ 2 ^ 24) && decide (g.errTiles.toNat ≤ 2 ^ 24)

/-- D and the landing slots are in range. -/
def Geometry.landOk (g : Geometry) : Bool := decide (1 ≤ g.landSlots.toNat) && decide (1 ≤ g.landed.toNat) && decide (g.landed.toNat ≤ 2 ^ 24)

/-- The `n` tile slots from an address lie within the span, in extents that the partition owns, lossless and under its own envelope (R433). -/
def State.ownLossless (s : State) (part addr n : Nat) : Bool :=
  decide (addr + 8192 * n ≤ 2 ^ 52) && (slotExts addr n).all fun e => match s.extent part e with
    | none => false
    | some x => !x.ro && x.mode == 0 && x.env == 0

/-- A partition's context, if it has one and its state is one of a list. -/
def State.ctxIn (s : State) (part : Nat) (l : List CtxState) : Option Ctx :=
  match (s.part part).ctx with
  | none => none
  | some x => if l.contains x.st then some x else none

/-! ### TRAIN_CFG, STEP_REDO, STEP_REVERT (R446, R453, R463, R464, R497) -/

/-- The context that a TRAIN_CFG makes (R446, R453); a fetch in progress goes on into it (R510). -/
def trnCtx (c : BitVec 512) : Ctx :=
  { geo := trnGeo c, version := trnVersion c, linkStep := trnStep c, twoPass := (trnGeo c).twoPass
    normBucket := BitVec.ofNat 16 (cmdField c 0x30 2), tokenBucket := BitVec.ofNat 16 (cmdField c 0x32 2)
    clip := BitVec.ofNat 32 (cmdField c 0x38 4), ceil := BitVec.ofNat 32 (cmdField c 0x3c 4) }

/-- The held re-shard of a partition's context is cancelled (R481). -/
def State.cancelHeld (s : State) (part : Nat) : State :=
  match (s.part part).ctx with
  | none => s
  | some x => (s.modPart part fun p => { p with ctx := some { x with reshard := none } }).cancelReshard x

/-- TRAIN_CFG (R432, R433, R446, R452, R453, R481). -/
def execTrainCfg (o : RingId) (s : State) : Res :=
  hostCommand o 0x58 s fun ref c s =>
    let n := trnPart c
    let g := trnGeo c
    let x := trnCtx c
    let fieldsOk := trnAddr c % 8192 == 0 && decide (cmdField c 0x1d 1 ≤ 1) && g.sizesOk && g.landOk && cmdZero c 0x24 4
      && decide (x.normBucket.toNat ≤ 4095) && decide (x.tokenBucket.toNat ≤ 4095)
      && decide (x.clip.toNat < 0x7f800000) && decide (1 ≤ x.ceil.toNat) && decide (x.ceil.toNat ≤ 0x7f800000)
    s.checked ref (s.partChecks n fieldsOk 0x0240 ++ [
      (!s.ownLossless n (trnAddr c) g.slots, 0x0241),
      ((s.part n).ctx.isSome && (s.ctxIn n [.reducing, .interrupted, .faulted]).isNone, 0x0242)])
      fun s => ((s.cancelHeld n).putCtx n { x with restoring := ((s.part n).ctx.map (·.restoring)).getD [] }).complete ref 0 x.passes

/-- STEP_REDO (R463). -/
def execStepRedo (o : RingId) (s : State) : Res :=
  hostCommand o 0x5a s fun ref c s =>
    let n := trnPart c
    s.checked ref (s.partChecks n (cmdZero c 0x10 12 && cmdZero c 0x1d 35) 0x0240 ++ [
      (match s.ctxIn n [.interrupted] with
        | none => true
        | some x => x.twoPass, 0x0242)])
      fun s => (match s.ctxIn n [.interrupted] with
        | none => s
        | some x => s.putCtx n { x with st := .updating }).complete ref 0

/-- An input that has been taken and is discarded moves from the taken to the discarded digest of its port (R425, R497). -/
def State.untake (s : State) (bucket : Nat) (step : W32) (c : ChunkIn) : State :=
  match c.port with
  | none => s
  | some p => s.digest bucket step p fun d =>
      { d with takenN := d.takenN - 1, taken := d.taken - c.hash, discN := d.discN + 1, disc := d.disc + c.hash }

/-- The reductions of a partition's buckets for link steps before `n` are discarded; an input for one is late from then on (R497). -/
def State.discardBefore (s : State) (part : Nat) (n : W32) : State :=
  let mine := fun (b : Nat) => (s.bucket b).any fun d => decide (d.part = part)
  let old := s.lnk.reductions.filter fun r => mine r.bucket && newer n r.step
  let t := (old.filter fun r => !r.done).foldl (fun t r => r.inputs.foldl (fun t c => t.untake r.bucket r.step c) t) s
  let floors := (s.lnk.buckets.filter fun e => mine e.1).foldl (fun m e => SMap.set none m e.1 (some n)) t.lnk.floors
  { t with lnk := { t.lnk with reductions := t.lnk.reductions.filter fun r => !(mine r.bucket && newer n r.step), floors } }

/-- Tandem copies of a partition, of a version that a test accepts, that have not left are stopped (R456). -/
def State.stopCopy (s : State) (part : Nat) (f : W32 → Bool) : State :=
  { s with lnk := { s.lnk with waiting := s.lnk.waiting.filter fun u =>
      !(decide (u.part = part) && decide (u.bytes.head? = some kindTandem) && f (unitWord 3 u.bytes)) } }

/-- A version that a context can revert to: K, or K + 1 in Voting (R464). -/
def Ctx.holds (x : Ctx) (v : W32) : Bool := (x.hasVersion && v == x.version) || (x.st == .voting && v == x.version + 1)

/-- A context reverted to a version and a link step (R464). -/
def Ctx.revert (x : Ctx) (v n : W32) : Ctx :=
  { x with
    version := v, linkStep := n, st := .reducing, verdict := 0, heldGate := none, reshard := none, landedAt := none
    tandemK := if v = x.version then x.tandemK else x.tandemK1, tandemK1 := false, awaitK := x.awaitK && decide (v = x.version) }

/-- STEP_REVERT (R456, R464, R481, R497). -/
def execStepRevert (o : RingId) (s : State) : Res :=
  hostCommand o 0x5b s fun ref c s =>
    let n := trnPart c
    let v := trnVersion c
    let fieldsOk := cmdZero c 0x10 12 && cmdZero c 0x1d 11 && cmdZero c 0x30 16
    let cur := s.ctxIn n [.reducing, .copying, .voting, .interrupted, .faulted]
    s.checked ref (s.partChecks n fieldsOk 0x0240 ++ [
      (cur.isNone, 0x0242), (!(cur.any fun x => x.holds v), 0x0243)])
      fun s => match cur with
        | none => s
        | some x =>
          let t := if x.st = .copying then s.stopCopy n fun w => w == x.version + 1 else s
          (((t.cancelReshard x).putCtx n (x.revert v (trnStep c))).discardBefore n (trnStep c)).complete ref 0

/-! ### The tandem (R455 to R461, R490) -/

/-- The step controller starts to copy a version of a context to its tandem: the state bank, then the error bank (R456, R459, R460). A poisoned
tile is reported and not sent, so that the tandem does not come to hold the version (R319, assumption 99). -/
def State.copyVersion (s : State) (part : Nat) (x : Ctx) (v : W32) : State :=
  match x.tandem with
  | none => s
  | some pos =>
    let p := s.part part
    ((x.geo.bankSlots (v.toNat % 2)).zipIdx).foldl (fun t e =>
      let f := t.fetchTile part e.1
      match f.2 with
      | some d => f.1.dispatch part 2 pos (tandemBytes kindTandem part p.jobTag s.me pos v e.2 d)
      | none => f.1) s

/-- The store record of a tandem store: each bank's version and whether it is complete (R459). -/
def TandemStore.record (t : TandemStore) : Mem :=
  Mem.ofList (wordBytes t.ver0 ++ wordBytes t.ver1 ++ [if t.complete0 then 1 else 0, if t.complete1 then 1 else 0])

/-- A tandem store changes, and its record in slot 0 with it. -/
def State.putStore (s : State) (part : Nat) (t : TandemStore) : State :=
  (s.modPart part fun p =>
    { p with stores := (p.stores.filter fun u => decide (u.base ≠ t.base)) ++ [t] }).putTile part (t.base.toNat / 8192) { payload := t.record }

/-- The sizes of two geometries agree. -/
def Geometry.same (a b : Geometry) : Bool := a.blocks == b.blocks && a.errTiles == b.errTiles && a.compact == b.compact

/-- A store is made, or an existing one of this base and geometry kept for another mirrored module (R459, R498). -/
def State.makeStore (s : State) (part : Nat) (g : Geometry) (pos : W32) : State :=
  match (s.part part).stores.find? fun t => decide (t.base = g.base) && t.geo.same g with
  | some t => s.putStore part { t with mirrored := pos }
  | none => s.putStore part { base := g.base, geo := g, mirrored := pos }

/-- A context's tandem is named: version K is copied to it, and in Copying or Voting K + 1 too (R460). -/
def State.nameTandem (s : State) (part : Nat) (x : Ctx) (pos : W32) : State :=
  let y := { x with tandem := some pos, tandemK := false, tandemK1 := false, awaitK := true }
  let t := ((s.stopCopy part fun _ => true).putCtx part y).copyVersion part y y.version
  if y.st = .copying ∨ y.st = .voting then t.copyVersion part y (y.version + 1) else t

/-- TANDEM_CFG (R459, R460, R483, R498). -/
def execTandemCfg (o : RingId) (s : State) : Res :=
  hostCommand o 0x59 s fun ref c s =>
    let n := trnPart c
    let g := { trnGeo c with landSlots := 0, landed := 0 }
    let role := decide (cmdField c 0x1d 1 / 2 % 2 = 1)
    let fieldsOk := decide (cmdField c 0x1d 1 ≤ 3) && cmdZero c 0x1e 2 && g.sizesOk && posOk (trnPos c) && cmdZero c 0x28 24
      && (if role then trnAddr c % 8192 == 0 else trnAddr c == 0)
    s.checked ref (s.partChecks n fieldsOk 0x0240 ++ [
      (role && !s.ownLossless n (trnAddr c) (1 + 2 * (g.bank + g.errTiles.toNat)), 0x0241),
      (s.winching n || (!role && (s.part n).ctx.isNone), 0x0242)])
      fun s => (if role then s.makeStore n g (trnPos c)
        else match (s.part n).ctx with
          | none => s
          | some x => s.nameTandem n x (trnPos c)).complete ref 0

/-- UPDATE_DONE_MARK (R455, R456): write `k` of a core, to its partition's step port, is accepted. -/
def execUpdateDoneMark (core k : Nat) (s : State) : Res :=
  onUnit (coreOk core) (match s.writeDue core k with
    | some (o, part, _, .stepPort, a, d) => match (s.part part).ctx with
      | none => s
      | some x =>
        let t := if (x.st = .updating ∨ x.st = .applying) ∧ d.payload.read 32 0 = x.linkStep ∧ d.payload.byte 4 = 1 then
            let y := { x with st := .copying, tandemK1 := false }
            (s.putCtx part y).copyVersion part y (x.version + 1)
          else s.raise { status := 0x0255, part := some part, words := [part, x.linkStep.toNat] }
        t.accepted core k o a d
    | _ => s)

/-- The tiles that a store bank holds of a version once tile `i` has come: a tile that it holds already begins a new copy of the version
(R459). -/
def gotTile (same : Bool) (got : List Nat) (i : Nat) : List Nat := if same && !got.contains i then got ++ [i] else [i]

/-- A tile of a version stored in its store bank (R459). -/
def TandemStore.take (t : TandemStore) (v : W32) (i : Nat) : TandemStore :=
  if v.toNat % 2 = 0 then { t with ver0 := v, got0 := gotTile (t.ver0 == v) t.got0 i }
  else { t with ver1 := v, got1 := gotTile (t.ver1 == v) t.got1 i }

/-- TANDEM_COPY_RECEIVE (R459): a copy is stored; the store acknowledges a version when its bank is complete. -/
def execTandemCopyReceive (part : Nat) (pos tag version : W32) (index : Nat) (tile : TileData) (s : State) : Res :=
  onUnit (partOk part) (if s.shut part then s else
    let s := s.freeAny 2 (tandemBytes kindTandem part tag pos s.me version index tile)
    match (s.part part).stores.find? fun t => decide (t.mirrored = pos) && decide ((s.part part).jobTag = tag) with
    | none => s.raise { status := 0x0253, part := some part, words := [part, pos.toNat] }
    | some t =>
      if index < t.bankSize then
        let u := t.take version index
        let v := (s.putTile part (t.base.toNat / 8192 + 1 + version.toNat % 2 * t.bankSize + index) tile).putStore part u
        if u.completeFor version then v.dispatch part 2 pos (tandemBytes kindAck part tag s.me pos version 0 {}) else v
      else s)

/-- TANDEM_ACKNOWLEDGE (R456, R458, R460, R528): the tandem holds a version; in Copying, once it holds K + 1, and K where it was newly named,
the commit token is posted. In a partition that is Frozen or Saving it waits. -/
def execTandemAcknowledge (part : Nat) (pos version : W32) (s : State) : Res :=
  onUnit (partOk part) (if s.shut part then s else
    let s := s.freeAny 2 (tandemBytes kindAck part (s.part part).jobTag pos s.me version 0 {})
    match (s.part part).ctx with
    | none => s
    | some x =>
      if x.tandem ≠ some pos then s
      else
        let y := { x with
          tandemK := x.tandemK || decide (version = x.version), awaitK := x.awaitK && decide (version ≠ x.version)
          tandemK1 := x.tandemK1 || (decide (version = x.version + 1) && (decide (x.st = .copying) || decide (x.st = .voting))) }
        if y.st = .copying && !y.awaitK && y.tandemK1 then (s.putCtx part { y with st := .voting }).postToken part
        else s.putCtx part y)

/-- A context that TANDEM_RESTORE may restore to a version (R461, R490). -/
def Ctx.restorable (x : Ctx) (v : W32) : Bool :=
  match x.st with
  | .reducing => !x.landed
  | .interrupted | .faulted => true
  | .winching => x.hasVersion && v == x.version
  | _ => false

/-- The region whose banks a restore writes: in Winching the old one, although the part may have completed (R490). -/
def Ctx.oldRegion (x : Ctx) : Geometry := ((x.reshard.bind (·.oldGeo))).getD x.geo

/-- TANDEM_RESTORE (R461, R490): the version is asked of the tandem; the command completes with TANDEM_RESTORE_COMPLETE. -/
def execTandemRestore (o : RingId) (s : State) : Res :=
  hostCommand o 0x5c s fun ref c s =>
    let n := trnPart c
    let v := trnVersion c
    let fieldsOk := cmdZero c 0x10 12 && cmdZero c 0x1d 7 && posOk (trnPos c) && cmdZero c 0x2c 20
    s.checked ref (s.partChecks n fieldsOk 0x0240 ++ [
      (!((s.part n).ctx.any fun x => x.restorable v), 0x0242)])
      fun s => (s.modPart n fun p => { p with ctx := p.ctx.map fun x => { x with restoring := x.restoring ++ [(ref, v, trnPos c)] } }).dispatch n 2
        (trnPos c) (tandemBytes kindRequest n (s.part n).jobTag s.me (trnPos c) v (((s.part n).ctx.map fun x => x.oldRegion.code).getD 0) {})

/-- A context that a restore from the module at `pos` has made to hold a version, in its old region (R454, R461, R490): its tandem holds that
version where the restore came from it, or where it held it before. -/
def Ctx.restored (x : Ctx) (v pos : W32) : Ctx :=
  { x with
    geo := x.oldRegion, twoPass := x.oldRegion.twoPass
    version := v, hasVersion := true, st := .reducing, verdict := 0, heldGate := none, landedAt := none, restoring := x.restoring.drop 1, reshard := none
    tandemK := decide (x.tandem = some pos) || (if v = x.version then x.tandemK else x.tandemK1 && v == x.version + 1)
    tandemK1 := false, awaitK := x.awaitK && decide (v = x.version) }

/-- TANDEM_RESTORE_COMPLETE (R461, R490, R528): the tiles of the version that was asked for first have come, or the tandem does not hold it
complete. In a partition that is Frozen or Saving they wait. -/
def execTandemRestoreComplete (part : Nat) (tiles : Option (List TileData)) (s : State) : Res :=
  onUnit (partOk part) (if s.shut part then s else
    match (s.part part).ctx with
    | none => s
    | some x => match x.restoring with
      | [] => s
      | (ref, v, pos) :: l =>
        let u := s.dropReplies part v
        match tiles with
        | none => (u.modPart part fun p => { p with ctx := some { x with restoring := l } }).complete ref 0x0244
        | some tl =>
          let slots := x.oldRegion.bankSlots (v.toNat % 2)
          if tl.length = slots.length then
            let t := (slots.zip tl).foldl (fun t e => t.putTile part e.1 e.2) u
            (((t.cancelReshard x).putCtx part (x.restored v pos))).complete ref 0
          else s)

end Sys2Proof.Machine
end

