-- ==== Sys2Proof/Machine/Reshard.lean ====
section
/-! DEFINITION. Re-sharding, the winch and reserve modules (R478 to R493). -/

namespace Sys2Proof.Machine

/-! ### RESHARD (R479 to R481) -/

/-- A plan entry (R485). -/
def planEntry (m : Mem) (i : Nat) : PlanEntry :=
  { src := m.read 64 (32 * i), dst := m.read 64 (32 * i + 8), count := m.read 32 (32 * i + 16), pos := m.read 32 (32 * i + 20) }

/-- A plan entry is as R485 gives. -/
def planEntryOk (m : Mem) (i : Nat) : Bool :=
  let e := planEntry m i
  e.src.toNat % 8192 == 0 && e.dst.toNat % 8192 == 0 && decide (1 ≤ e.count.toNat) && decide (e.count.toNat ≤ 2 ^ 24) && posOk e.pos
    && m.readNat (32 * i + 24) 8 == 0

/-- The region that a re-shard record gives (R479). -/
def recGeo (m : Mem) : Geometry :=
  { base := m.read 64 0x40, blocks := m.read 32 0x2c, compact := decide (m.byte 0x3a = 1), errTiles := m.read 32 0x30
    landSlots := m.read 16 0x38, landed := m.read 32 0x34 }

/-- The new-region fields of a record are all zero. -/
def recNoRegion (m : Mem) : Bool :=
  m.readNat 0x2c 4 == 0 && m.readNat 0x30 4 == 0 && m.readNat 0x34 4 == 0 && m.readNat 0x38 2 == 0 && m.readNat 0x40 8 == 0

/-- A re-shard record is as R479 and R480 give, but for its class and its plan's entries. -/
def recOk (m : Mem) : Bool :=
  let flags := (m.byte 0x3b).toNat
  let g := recGeo m
  m.readNat 0 4 == 0x5352475a && m.readNat 4 2 == 1 && m.readNat 6 2 == 0
    && m.readNat 0x10 8 % 8192 == 0 && decide (m.readNat 0x18 4 ≤ 2 ^ 20) && decide (m.readNat 0x1c 4 ≤ 2 ^ 28)
    && decide (m.readNat 0x28 4 ≤ 2 ^ 24) && m.readNat 0x20 8 % 8192 == 0 && (m.readNat 0x28 4 != 0 || m.readNat 0x20 8 == 0)
    && decide ((m.byte 0x3a).toNat ≤ 1) && decide (flags ≤ 2) && m.readNat 0x3c 4 == 0 && m.readNat 0x48 56 == 0
    && (if flags = 2 then m.readNat 0x1c 4 == 0 && recNoRegion m else g.sizesOk && g.landOk && g.base.toNat % 8192 == 0)

/-- The slots a plan takes. -/
def planSlots (m : Mem) : Nat := ceilDiv (32 * m.readNat 0x18 4) 8192

/-- A partition's context has the record's class, or there is none. -/
def State.classOk (s : State) (part : Nat) (m : Mem) : Bool :=
  match (s.part part).ctx with
  | none => true
  | some x => decide (x.geo.compact = decide (m.byte 0x3a = 1))

/-- The plan, the staging area and the new region lie as R480 asks; a leaving record's region is not looked at. -/
def State.recPlaces (s : State) (part : Nat) (m : Mem) : Bool :=
  s.ownLossless part (m.readNat 0x10 8) (planSlots m) && s.ownLossless part (m.readNat 0x20 8) (m.readNat 0x28 4)
    && (decide (m.byte 0x3b = 2) || s.ownLossless part (m.readNat 0x40 8) (recGeo m).slots)

/-- The partition may hold the re-shard (R480). -/
def State.mayReshard (s : State) (part : Nat) (m : Mem) : Bool :=
  if m.byte 0x3b = 1 then (s.part part).ctx.isNone && m.readNat 0x1c 4 != 0
  else match s.ctxIn part [.reducing, .updating, .applying, .copying, .voting] with
    | none => false
    | some x => x.reshard.isNone

/-- A re-shard as it is held. -/
def reshardOf (ref : CmdRef) (m plan : Mem) : Reshard :=
  { ref, epoch := m.read 32 8, spoolGen := m.read 32 0xc, plan := (List.range (m.readNat 0x18 4)).map (planEntry plan), incoming := m.read 32 0x1c
    staging := m.read 64 0x20, stagingSlots := m.read 32 0x28, geo := recGeo m, joining := decide (m.byte 0x3b = 1), leaving := decide (m.byte 0x3b = 2) }

/-- An accepted re-shard is held, or a joining partition is Winching at once, with a context whose buckets and limits no command has given
(R481). -/
def State.holdReshard (s : State) (part : Nat) (r : Reshard) : State :=
  match (s.part part).ctx with
  | some x => s.modPart part fun p => { p with ctx := some { x with reshard := some r } }
  | none =>
    let f := fun i => Config.joinField s.free i
    s.tick.putCtx part {
      geo := r.geo, version := f 0, hasVersion := false, linkStep := f 1, st := .winching, twoPass := r.geo.twoPass
      normBucket := (f 2).setWidth 16, tokenBucket := (f 3).setWidth 16, clip := f 4, ceil := f 5, reshard := some r }

/-- RESHARD (R318, R478 to R481): the record is read, and then the plan that it names. -/
def execReshard (cmd : ReadCmd) (s : State) : Res :=
  hostCommand cmd.ring 0x5d s fun ref c s =>
    let n := trnPart c
    let a := trnAddr c
    let fieldsOk := a % 8192 == 0 && decide (a < 2 ^ 52) && cmdZero c 0x18 4 && cmdZero c 0x1d 35
    let first := s.partChecks n fieldsOk 0x0260 ++ [(!s.ownLossless n a 1, 0x0261)]
    let s := s.afterChecks first fun s => s.meetCodewords n a 128 cmd.errs
    let m := s.spanRead n a 128
    let pa := m.readNat 0x10 8
    let pl := 32 * m.readNat 0x18 4
    let second := first ++ [((s.bytesFault n a 128 false).isSome, 0x0318), (!recOk m || !s.classOk n m, 0x0260), (!s.recPlaces n m, 0x0261)]
    let s := s.afterChecks second fun s => s.meetCodewords n pa pl cmd.errs
    let plan := s.spanRead n pa pl
    let bad := if (s.bytesFault n a 128 false).isSome then s.poisonedIn n a 128 else s.poisonedIn n pa pl
    s.checkedMeeting ref n 0x0318 bad (second ++ [((s.bytesFault n pa pl false).isSome, 0x0318),
      (!((List.range (m.readNat 0x18 4)).all (planEntryOk plan)), 0x0260),
      (!s.mayReshard n m, 0x0262)])
      fun s => s.holdReshard n (reshardOf ref m plan)

/-! ### RESERVE_SET (R492) -/

/-- Some later step is still served under a substitution that a later one ends or replaces from step `m` on: `m` is after the substitution's own first
step, and it has not come, neither in the partition's training context nor for a reduction that this module holds (R420). -/
def State.stillServes (s : State) (part : Nat) (first m : W32) : Bool :=
  newer m first && ((s.stepNow part).any (fun t => newer m t)
    || s.lnk.reductions.any fun r => (s.bucket r.bucket).any (fun d => decide (d.part = part)) && !r.done && newer m r.step)

/-- A substitution of the partition names a position, and none that has come since serves every step in its place (R420, R492, assumption 49). -/
def State.substNames (s : State) (part : Nat) (pos : W32) : Bool :=
  let l := (s.part part).substs
  l.zipIdx.any fun e => e.1.serving != e.1.served && (e.1.served == pos || e.1.serving == pos)
    && (l.drop (e.2 + 1)).all fun u => !(u.served == e.1.served && (u.bucket == e.1.bucket || u.bucket == 0xffff)) || s.stillServes part e.1.step u.step

/-- The reductions of a partition's buckets that wait for no input any more form their sums (R414, R493). -/
def State.formWaiting (s : State) (part : Nat) : State :=
  s.lnk.reductions.foldl (fun t r =>
    match t.defFor r.bucket r.step, t.reduction r.bucket r.step r.chunk r.stage r.loc with
    | some d, some q =>
      if d.part = part ∧ q.stage ≤ 4 ∧ q.sum = none ∧ q.done = false ∧ d.keys (t.awaits d) q.stage q.loc ≠ [] then
        (t.formSum d q fun v p sum => v.takeInput d q.bucket q.step q.chunk p sum 8).pruneSteps q.bucket
      else t
    | _, _ => t) s

/-- RESERVE_SET (R492, R493): a reduction that waited only for a position that is now listed goes on. -/
def execReserveSet (o : RingId) (s : State) : Res :=
  hostCommand o 0x5e s fun ref c s =>
    let n := trnPart c
    let pos := trnPos c
    let add := decide (cmdField c 0x1d 1 = 1)
    let p := s.part n
    let fieldsOk := cmdZero c 0x10 12 && decide (cmdField c 0x1d 1 ≤ 1) && cmdZero c 0x1e 6 && posOk pos && cmdZero c 0x28 24
    s.checked ref (s.partChecks n fieldsOk 0x0260 ++ [
      ((if add then decide (64 ≤ p.reserves.length) || p.reserves.contains pos else !p.reserves.contains pos) || s.substNames n pos, 0x0267)])
      fun s => ((s.modPart n fun p => { p with reserves := if add then p.reserves ++ [pos] else p.reserves.erase pos }).formWaiting n).complete ref 0

/-! ### The winch (R482, R485 to R488) -/

/-- A context that is winching, with its re-shard, while no restore stops it (R490). -/
def State.winch (s : State) (part : Nat) : Option (Ctx × Reshard) :=
  match s.ctxIn part [.winching] with
  | none => none
  | some x => if x.restoring.isEmpty then x.reshard.map fun r => (x, r) else none

/-- A re-shard changes. -/
def State.putReshard (s : State) (part : Nat) (x : Ctx) (r : Reshard) : State :=
  s.modPart part fun p => { p with ctx := some { x with reshard := some r } }

/-- The tiles of a plan, in order: source slot, destination slot and position (R486). -/
def Reshard.total (r : Reshard) : Nat := (r.plan.map fun e => e.count.toNat).sum
def planTile : List PlanEntry → Nat → Option (Nat × Nat × W32)
  | [], _ => none
  | e :: l, i =>
    if i < e.count.toNat then some (e.src.toNat / 8192 + i, e.dst.toNat / 8192 + i, e.pos) else planTile l (i - e.count.toNat)

/-- The place of a slot among the sources of a plan, counted in plan order. -/
def planPlace : List PlanEntry → Nat → Option Nat
  | [], _ => none
  | e :: l, slot =>
    let a := e.src.toNat / 8192
    if a ≤ slot ∧ slot < a + e.count.toNat then some (slot - a) else (planPlace l slot).map (· + e.count.toNat)

/-- A slot is a source whose tile has not left (R487). -/
def Reshard.pendingSource (r : Reshard) (slot : Nat) : Bool :=
  match planPlace r.plan slot with
  | none => false
  | some i => decide (r.left ≤ i)

/-- The lowest staging slot that is free (R487). -/
def Reshard.freeStaging (r : Reshard) : Option Nat :=
  ((List.range r.stagingSlots.toNat).map fun i => r.staging.toNat / 8192 + i).find? fun a => !(r.staged.any fun e => decide (e.2 = a))

/-- A tile reaches a slot of this module's span: stored there, or in a staging slot while the slot's own tile has not left; none where no
staging slot is free (R487). -/
def State.placeTile (s : State) (part : Nat) (r : Reshard) (slot : Nat) (d : TileData) : Option (State × Reshard) :=
  if r.pendingSource slot then
    r.freeStaging.map fun a => (s.putTile part a d, { r with staged := r.staged ++ [(BitVec.ofNat 64 (8192 * slot), a)] })
  else some (s.putTile part slot d, r)

/-- A source slot's tile has left: a staged tile that waits for the slot moves to it (R487); a poisoned one is poisoned where it lands (R301). -/
def State.unstage (s : State) (part : Nat) (r : Reshard) (slot : Nat) : State × Reshard :=
  match r.staged.find? fun e => decide (e.1.toNat = 8192 * slot) with
  | none => (s, r)
  | some e =>
    let f := s.fetchTile part e.2
    let q := { r with staged := r.staged.erase e }
    match f.2 with
    | some d => (f.1.putTile part slot d, q)
    | none => ((f.1.putTile part slot (f.1.readTile part e.2)).poisonTile part slot, q)

/-- A winch tile as its bytes travel to a position, with its sender's (R486, R487). -/
def winchBytes (goal : W32) (w : WinchTile) : List Byte :=
  [kindWinch, BitVec.ofNat 8 w.part, BitVec.ofNat 8 w.tile.fmt, 0] ++ wordBytes w.tag ++ wordBytes w.pos ++ wordBytes goal ++ wordBytes w.epoch
    ++ wordBytes w.version ++ wordBytes w.linkStep ++ wordBytes w.dst ++ w.tile.payload.toList 0 8192 ++ w.tile.side.toList 0 w.tile.sideLen

/-- A winch tile leaves for its module, if the links can take it. -/
def State.sendWinch (s : State) (part : Nat) (x : Ctx) (r : Reshard) (w : WinchOut) : Option State :=
  s.trySend part 2 w.pos (winchBytes w.pos
    { port := 0, part, pos := s.me, tag := (s.part part).jobTag, epoch := r.epoch, version := x.version, linkStep := x.linkStep, dst := w.dst, tile := w.tile })

/-- A module's part of the winch is complete (R488). -/
def Reshard.winchDone (r : Reshard) : Bool :=
  decide (r.left = r.total) && r.refused.isEmpty && r.staged.isEmpty && decide (r.incoming.toNat ≤ r.taken)

/-- The context takes the record's region; the old one is kept until the re-shard ends (R446, R482, R490). -/
def State.reconfigure (s : State) (part : Nat) (x : Ctx) (r : Reshard) : State :=
  s.putCtx part { x with geo := r.geo, twoPass := r.geo.twoPass, reshard := some { r with partDone := true, oldGeo := some x.geo } }

/-- A module's part of the winch completes: the context is reconfigured, or removed where the module leaves (R482, R488). -/
def State.winchPart (s : State) (part : Nat) : State :=
  match s.winch part with
  | none => s
  | some (x, r) =>
    if r.winchDone && !r.partDone then
      if r.leaving then (s.modPart part fun p => { p with ctx := none }).complete r.ref 0 else s.reconfigure part x r
    else s

/-- After a step of the winch: complete at once where no tile of the part is on its way to another module. -/
def State.afterWinch (s : State) (part : Nat) : State :=
  match s.winch part with
  | none => s
  | some (_, r) => if r.sent.isEmpty then s.winchPart part else s

/-- WINCH_SEND (R318, R319, R486, R488): the next tile of the plan leaves its source slot, for another module or for a slot of this span; a poisoned
one is reported and stays, for it cannot be read in full (assumption 99). A local move to a slot that can take no tile yet is kept and tried again
as a refused tile is, so that sending never waits (assumption 92). -/
def execWinchSend (part : Nat) (s : State) : Res :=
  onUnit (partOk part) (match s.winch part with
    | none => s
    | some (x, r) => match planTile r.plan r.left with
      | none => s
      | some (src, dst, pos) =>
        let f := s.fetchTile part src
        match f.2 with
        | none => f.1
        | some d =>
        let w : WinchOut := { pos, dst := BitVec.ofNat 64 (8192 * dst), tile := d }
        let r' := { r with left := r.left + 1 }
        if pos = s.me then
          let p := (f.1.placeTile part r' dst w.tile).getD (f.1, { r' with refused := r'.refused ++ [w] })
          let u := p.1.unstage part p.2 src
          (u.1.putReshard part x u.2).afterWinch part
        else
          match f.1.sendWinch part x r w with
          | none => s
          | some t => let u := t.unstage part { r' with sent := r'.sent ++ [w] } src; u.1.putReshard part x u.2)

/-- The refusal of a winch tile, to its sender: partition and high bits of the slot, low bits of the slot, and this module as bucket, step and
origin (R402, R487, assumption 30). -/
def State.refuseWinch (s : State) (w : WinchTile) : State :=
  let slot := w.dst.toNat / 8192
  s.sendRefusal w.port 0x0265 (w.part + slot / 2 ^ 32 * 32) (BitVec.ofNat 32 slot) s.me w.pos

/-- A winch tile is discarded: event 0x0266, with partition and sender (R487, R502). -/
def State.discardWinch (s : State) (w : WinchTile) : State :=
  s.raise { status := 0x0266, part := some w.part, words := [w.part, w.pos.toNat] }

/-- The destination of a winch tile is a slot of an extent that the partition owns, and its sender has the partition's job tag. -/
def State.winchHere (s : State) (w : WinchTile) : Bool :=
  w.dst.toNat % 8192 == 0 && s.ownsAll w.part [w.dst.toNat / 2 ^ 21] && (s.part w.part).jobTag == w.tag

/-- A joining module has taken its version and link step, and a tile's differ (R487). -/
def joinDiffers (x : Ctx) (r : Reshard) (w : WinchTile) : Bool :=
  r.joining && x.hasVersion && !(x.version == w.version && x.linkStep == w.linkStep)

/-- WINCH_TILE_ARRIVE (R487). -/
def execWinchTileArrive (w : WinchTile) (s : State) : Res :=
  onUnit (portOk w.port && partOk w.part) (if s.shut w.part then s else
    let s := s.freeUnit w.port 2 (winchBytes s.me w)
    if !s.winchHere w then s.discardWinch w
    else match s.winch w.part with
      | none => s.refuseWinch w
      | some (x, r) =>
        if r.epoch ≠ w.epoch then s.refuseWinch w
        else if joinDiffers x r w then s.discardWinch w
        else match s.placeTile w.part r (w.dst.toNat / 8192) w.tile with
          | none => s.refuseWinch w
          | some (t, q) =>
            let q := { q with taken := q.taken + 1 }
            (if x.hasVersion then t.putReshard w.part x q
             else t.putCtx w.part { x with version := w.version, linkStep := w.linkStep, hasVersion := true, reshard := some q }).afterWinch w.part)

/-- WINCH_RESEND (R487): 100 µs after its refusal a tile is sent again; a local one that still finds no room waits behind the others. -/
def execWinchResend (part : Nat) (s : State) : Res :=
  onUnit (partOk part) (match s.winch part with
    | none => s
    | some (x, r) => match r.refused with
      | [] => s
      | w :: l =>
        if w.pos = s.me then
          match s.placeTile part { r with refused := l } (w.dst.toNat / 8192) w.tile with
          | none => s.putReshard part x { r with refused := l ++ [w] }
          | some (t, q) => (t.putReshard part x q).afterWinch part
        else match s.sendWinch part x r w with
        | none => s
        | some t => t.putReshard part x { r with refused := l })

/-- The record's spool generation, or a newer one, has reached its boundary (R134, R482). -/
def Part.reached (p : Part) (g : W32) : Bool :=
  match p.boundaryGen with
  | none => false
  | some h => h == g || newer h g

/-- The re-shard ends once the spool boundary has come: Reducing, completed with 0x0000 (R482). -/
def State.endReshard (s : State) (part : Nat) (x : Ctx) (r : Reshard) : State :=
  if (s.part part).reached r.spoolGen then (s.enterReducing part { x with reshard := none }).complete r.ref 0 else s

/-- RESHARD_COMPLETE (R482, R488): the winch part is complete, with every tile sent stored; after the spool boundary the re-shard ends. -/
def execReshardComplete (part : Nat) (s : State) : Res :=
  onUnit (partOk part) (
    let t := s.winchPart part
    match t.winch part with
    | none => t
    | some (x, r) => if r.partDone then t.endReshard part x r else t)

end Sys2Proof.Machine
end

