-- ==== Sys2Proof/Machine/Image.lean ====
section
/-! DEFINITION. Ripcord images as bytes: their sections, wrapped keys and signature, and what a module reads of one (R529 to R533, R559, R560). -/

namespace Sys2Proof.Machine

/-! ### Span entries with their units (R530, R555) -/

/-- An entry of a span section or of an import stream, with the stored units that follow it. -/
structure SpanEntry where
  addr : Nat
  units : Nat
  fmt : Nat
  sideLen : Nat
  word : W32
  crc : W64
  stored : List Byte
deriving DecidableEq, Repr, Inhabited

/-- The bits word of a span entry, from bit 0: mode, hint, fold, sealed, poisoned (assumption 45). -/
def SpanEntry.mode (t : SpanEntry) : BitVec 2 := t.word.extractLsb' 0 2
def SpanEntry.hint (t : SpanEntry) : Byte := (t.word.extractLsb' 2 2).setWidth 8
def SpanEntry.isFolded (t : SpanEntry) : Bool := bit t.word 4
def SpanEntry.isSealed (t : SpanEntry) : Bool := bit t.word 5
def SpanEntry.poisoned (t : SpanEntry) : Bool := bit t.word 6

/-- The slot of an entry. -/
def SpanEntry.slot (t : SpanEntry) : Nat := t.addr / 8192

/-- An entry's bytes, its units after it. -/
def SpanEntry.bytes (t : SpanEntry) : List Byte :=
  bytesLE t.addr 8 ++ bytesLE t.units 1 ++ bytesLE t.fmt 1 ++ bytesLE t.sideLen 2 ++ wordBytes t.word ++ wordBytes t.crc ++ List.replicate 8 0 ++ t.stored

/-- `n` entries read from bytes; none where these end too soon. -/
def spanEntries : Nat → List Byte → Option (List SpanEntry)
  | 0, _ => some []
  | n + 1, l =>
    let u := natLE (seg l 8 1)
    let k := 32 + 512 * u
    if l.length < k then none
    else
      let t : SpanEntry := {
        addr := natLE (seg l 0 8), units := u, fmt := natLE (seg l 9 1), sideLen := natLE (seg l 10 2), word := BitVec.ofNat 32 (natLE (seg l 12 4))
        crc := BitVec.ofNat 64 (natLE (seg l 16 8)), stored := seg l 32 (512 * u) }
      (spanEntries n (l.drop k)).map (t :: ·)

/-- An entry that a slot can hold: a whole slot of the span, a format and side data, and 1 to 18 units, or none where it is poisoned (R305, R530). -/
def SpanEntry.formOk (t : SpanEntry) : Bool :=
  decide (t.addr % 8192 = 0) && decide (t.addr < 2 ^ 52) && decide (t.fmt < 16) && decide (t.sideLen ≤ 1024)
    && (if t.poisoned then decide (t.units = 0) else decide (1 ≤ t.units) && decide (t.units ≤ 18))

/-- The content of an entry under the key of its slot's envelope; none where its CRC-64 fails (R305, R311). -/
def SpanEntry.content (t : SpanEntry) (key : BitVec 512) : Option TileData :=
  openTile key t.slot t.fmt t.sideLen t.isFolded t.crc t.stored

/-- The tile that an entry makes in a slot: its units are stored unchanged (R530, R533, R555). -/
def SpanEntry.tile (t : SpanEntry) (e : Extent) (old : Tile) (d : Option TileData) (poisoned : Bool) : Tile :=
  { data := d.getD {}, fresh := false, hint := if t.hint = e.hint then none else some t.hint, nearCore := old.nearCore, placed := old.placed
    poisoned, mode := t.mode, isSealed := t.isSealed, trim := e.trim, units := max 1 t.units, isFolded := t.isFolded, crc := t.crc
    raw := if poisoned then none else some t.stored }

/-- A written tile as an entry; a poisoned one has no units (R530). -/
def State.spanEntry (s : State) (n slot : Nat) : SpanEntry :=
  let t := s.tile n slot
  let bits := t.mode.toNat + 4 * (s.hintOf n slot t) + (if t.isFolded then 16 else 0) + (if t.isSealed then 32 else 0) + (if t.poisoned then 64 else 0)
  { addr := 8192 * slot, units := if t.poisoned then 0 else t.units, fmt := t.data.fmt, sideLen := t.data.sideLen, word := BitVec.ofNat 32 bits
    crc := t.crc, stored := if t.poisoned then [] else s.storedUnits n slot }

/-- The entries of a partition's written tiles in the extents it owns (R529). -/
def State.imageTiles (s : State) (n : Nat) : List SpanEntry := ((s.tilesOf n).filter fun e => !e.2.fresh).map fun e => s.spanEntry n e.1

/-! ### What the sections carry (R529) -/

/-- A core as its section carries it: the record of R153, the arrays' sets, the banks. Generator state is not in it (R276). -/
def Core.carried (c : Core) : Core :=
  { a := c.a, c := c.c, s := c.s, v := c.v, t := c.t, loops := c.loops, flags := c.flags, pc := c.pc, passes := c.passes, activeB := c.activeB
    bankA := c.bankA, bankB := c.bankB, rank := c.rank, store := c.store, gen := c.gen, chans := c.chans, slots := c.slots, arrA := c.arrA, arrB := c.arrB }

/-- What the control section carries of a core: where its batcher, its spools and its channels stand. -/
def Core.control (c : Core) : Core :=
  { run := c.run, inactive := c.inactive, gen := c.gen, snapped := c.snapped, readyGen := c.readyGen, rank := c.rank, n := c.n, chans := c.chans
    slots := c.slots }

/-- A partition as the control section carries it (R529, R556). -/
def Part.saved (p : Part) : Part :=
  { kites := p.kites, hbm := p.hbm, ballast := p.ballast, link := p.link, accepted := p.accepted, gen := p.gen, gens := p.gens
    boundaryGen := p.boundaryGen, batcher := p.batcher, stores := p.stores, reserves := p.reserves
    ctx := p.ctx.map fun x => { x with reshard := none, restoring := [] }
    postPort := p.postPort, jobTag := p.jobTag, nearReq := p.nearReq, nearEff := p.nearEff, locked := p.locked, ideReq := p.ideReq, share := p.share }

/-- The envelopes of a partition, by index. -/
def State.envsOf (s : State) (n : Nat) : List (Nat × Env) :=
  s.sec.envs.filterMap fun e => if e.1 / 16384 = n then e.2.map fun x => (e.1 % 16384, x) else none

/-- The gondolas a partition holds, its open reels, and the bucket indices that hold a definition of it. -/
def State.gondolasOf (s : State) (n : Nat) : List Nat :=
  (s.gon.table.filter fun e => decide (e.2.st ≠ .free) && decide (e.2.holder = n)).map (·.1)
def State.reelsOf (s : State) (n : Nat) : List Nat :=
  (s.gon.reels.filter fun e => e.2.isOpen && decide (e.2.holder = n)).map (·.1)
def State.bucketsOf (s : State) (n : Nat) : List Nat :=
  (s.lnk.buckets.filter fun e => e.2.any fun d => decide (d.part = n)).map (·.1)

/-- The key-encryption key of an image: of the partition's image binding set, or, without one, the sealing key (R559). -/
def State.imageKek (s : State) (ident : Option (BitVec 128)) (serial : W64) : Option (List Byte) :=
  match ident with
  | none => s.sec.sealing.map wordBytes
  | some i => (s.binding i).map fun b => b.imageKek serial

/-- What the control section of a partition's image carries; tenant envelopes go as index and wrapped key (R529, R559). -/
def State.controlOf (s : State) (n : Nat) : Control :=
  let kek := (s.imageKek (s.part n).imageSet s.fuses.serial).getD []
  { part := (s.part n).saved, arraysOff := s.arraysOff, cores := (s.coresIn n).map fun k => (s.core k).control, extents := s.mappings n
    gondolas := (s.gondolasOf n).map fun g => (g, s.gondola g), reels := (s.reelsOf n).map fun i => (i, s.reel i)
    buckets := (s.bucketsOf n).map fun b => (b, s.bucket b)
    envs := ((s.envsOf n).filter fun e => e.1 ≠ 0).map fun e => (e.1, keyWrap kek (wordBytes e.2.key)) }

/-! ### The bytes of an image (R530, R559) -/

/-- A length padded to a multiple of 4,096 bytes, and bytes padded so. -/
def pad4096 (n : Nat) : Nat := 4096 * ceilDiv n 4096
def padTo4096 (l : List Byte) : List Byte := fitBytes (pad4096 l.length) l

/-- A core's section: its record, then its arrays' sets, whose layout the manual leaves open, then its banks (R529, assumption 93). -/
def coreLen : Nat := 4521984
def Core.section (c : Core) (k : Nat) : List Byte :=
  (c.record k).toList 0 0x410000 ++ fitBytes 131072 (Config.arrayBytes c.arrA c.arrB) ++ c.bankA.toList 0 65536 ++ c.bankB.toList 0 65536

/-- The length of a control section, and its bytes, whose layout the manual leaves open (R529, assumption 93). -/
def Control.len (c : Control) : Nat := 4096 + 32 * c.extents.length + 256 * c.gondolas.length + 64 * c.reels.length
def Control.bytes (c : Control) : List Byte := fitBytes c.len (Config.controlBytes c)

/-- Bytes of whole data units of 512 at an image offset, encrypted or decrypted under an envelope (R530). -/
def sealAt (key : BitVec 512) (off : Nat) (l : List Byte) : List Byte :=
  (cutInto 512 l (l.length / 512)).zipIdx.flatMap fun u => xtsEncrypt (wordBytes key) (off / 512 + u.2) u.1
def openAt (key : BitVec 512) (off : Nat) (l : List Byte) : List Byte :=
  (cutInto 512 l (l.length / 512)).zipIdx.flatMap fun u => xtsDecrypt (wordBytes key) (off / 512 + u.2) u.1

/-- The certificates of the slot-0 chain as they stand; the device certificate is the last (R544). -/
def certBytes (chain : List Byte) : List (List Byte) := ((derItems 64 chain).getD []).map (·.whole)

/-- The wrapped-keys area (R559). -/
def wrappedKeys (kind tenants : Nat) (own cert : List Byte) : List Byte :=
  bytesLE kind 4 ++ bytesLE tenants 4 ++ fitBytes 72 own ++ bytesLE cert.length 2 ++ List.replicate 14 0 ++ fitBytes 1024 cert ++ List.replicate 928 0

/-- The offset and the length of each section: core, control, span (R530). -/
structure Sections where
  core : Nat
  ctl : Nat
  span : Nat
deriving DecidableEq, Repr

def Sections.ctlOff (x : Sections) : Nat := 4096 + pad4096 x.core
def Sections.spanOff (x : Sections) : Nat := x.ctlOff + pad4096 x.ctl
def Sections.block (x : Sections) : Nat := x.spanOff + pad4096 x.span
def Sections.bytes (x : Sections) : List Byte :=
  bytesLE 4096 8 ++ bytesLE x.core 8 ++ bytesLE x.ctlOff 8 ++ bytesLE x.ctl 8 ++ bytesLE x.spanOff 8 ++ bytesLE x.span 8

/-- The lengths of the sections of a partition's image. -/
def State.sections (s : State) (n : Nat) : Sections :=
  { core := (s.coresIn n).length * coreLen
    ctl := 4096 + 32 * (s.mappings n).length + 256 * (s.gondolasOf n).length + 64 * (s.reelsOf n).length
    span := ((s.imageTiles n).map fun t => 32 + 512 * t.units).sum }

/-- The image length of a partition (R529, R530). -/
def State.imageLength (s : State) (n : Nat) : Nat := (s.sections n).block + 4096

/-- The header of a partition's image (R530). -/
def State.imageHeader (s : State) (n : Nat) : List Byte :=
  let p := s.part n
  let kek := (s.imageKek p.imageSet s.fuses.serial).getD []
  asciiBytes [0x5a, 0x47, 0x52, 0x43] ++ bytesLE 1 2 ++ bytesLE 0 2 ++ bytesLE (s.imageLength n) 8 ++ wordBytes s.fuses.serial
    ++ wordBytes (p.imageSet.getD 0) ++ wordBytes p.kites ++ bytesLE (s.imageTiles n).length 4 ++ (s.sections n).bytes
    ++ wrappedKeys (if p.imageSet.isSome then 1 else 0) ((s.envsOf n).filter fun e => e.1 ≠ 0).length
      (keyWrap kek (wordBytes (((s.env n 0).map (·.key)).getD 0))) ((certBytes s.fuses.chain0).getLast?.getD [])
    ++ List.replicate 1952 0

/-- Every byte of a partition's image before the signature block (R530). -/
def State.imageBody (s : State) (n : Nat) : List Byte :=
  let x := s.sections n
  let own := ((s.env n 0).map (·.key)).getD 0
  s.imageHeader n
    ++ sealAt own 4096 (padTo4096 ((s.coresIn n).flatMap fun k => (s.core k).carried.section k))
    ++ sealAt own x.ctlOff (padTo4096 (s.controlOf n).bytes)
    ++ padTo4096 ((s.imageTiles n).flatMap SpanEntry.bytes)

/-- A partition's image, signed (R530). -/
def State.imageBytes (s : State) (n : Nat) : List Byte := let b := s.imageBody n; b ++ fitBytes 4096 (s.sign b)

/-- Bytes written in order across segments of host memory (R531). -/
def State.writeSegs (s : State) (fn : Nat) : List (W64 × W64) → List Byte → State
  | [], _ => s
  | e :: r, l =>
    let p := l.take e.2.toNat
    (if p.isEmpty then s else s.emit (.hostWrite fn e.1 (Mem.ofList p) p.length)).writeSegs fn r (l.drop e.2.toNat)

/-! ### Reading an image (R530, R533, R560) -/

/-- The fields of an image's header. -/
def imgLen (b : List Byte) : Nat := natLE (seg b 8 8)
def imgSerial (b : List Byte) : W64 := BitVec.ofNat 64 (natLE (seg b 0x10 8))
def imgIdent (b : List Byte) : BitVec 128 := BitVec.ofNat 128 (natLE (seg b 0x18 16))
def imgKites (b : List Byte) : W32 := BitVec.ofNat 32 (natLE (seg b 0x28 4))
def imgTiles (b : List Byte) : Nat := natLE (seg b 0x2c 4)
def imgKind (b : List Byte) : Nat := natLE (seg b 0x60 4)
def imgSections (b : List Byte) : Sections := { core := natLE (seg b 0x38 8), ctl := natLE (seg b 0x48 8), span := natLE (seg b 0x58 8) }

/-- The header is as R530 and R559 give, for an image as long as it says. -/
def imgFormOk (b : List Byte) : Bool :=
  let x := imgSections b
  seg b 0 4 == asciiBytes [0x5a, 0x47, 0x52, 0x43] && natLE (seg b 4 2) == 1 && segZero b 6 2 && decide (imgLen b ≤ b.length)
    && seg b 0x30 48 == x.bytes && decide (x.core = coreCount (imgKites b) * coreLen) && decide (imgLen b = x.block + 4096)
    && decide (imgKind b ≤ 1) && (decide (imgKind b = 1) == (imgIdent b != 0)) && decide (natLE (seg b 0xb0 2) ≤ 1024)
    && segZero b 0xb2 14 && segZero b 0x4c0 928 && segZero b 0x860 1952

/-- The image's certificate is signed by an authority of the slot-0 chain, whose root is Marrandun's, and its key verifies the signature over every
byte before the block (R530, R560, assumption 94). -/
def State.imgSigned (s : State) (b : List Byte) : Bool :=
  let block := imgLen b - 4096
  match (derItems 1 (seg b 0xc0 (natLE (seg b 0xb0 2)))).bind fun l => l.head?.bind certOf with
  | none => false
  | some c =>
    chainSigned s.fuses.chain0 && ((certsOf s.fuses.chain0).dropLast.any fun ca => c.signedBy ca.key)
      && ecdsaVerify c.key (b.take block) (seg b block 96)

/-- The key-encryption key that the image's kind gives on this module; none where it is not in the binding set (R559, R560). -/
def State.imgKek (s : State) (b : List Byte) : Option (List Byte) :=
  s.imageKek (if imgKind b = 1 then some (imgIdent b) else none) (imgSerial b)

/-- A wrapped envelope key, unwrapped. -/
def unwrapEnv (kek wrapped : List Byte) : Option (BitVec 512) := (keyUnwrap kek wrapped).map fun l => BitVec.ofNat 512 (natLE l)

/-- The sections decrypt, under the own envelope's key, to the control and the cores that the image is said to hold: with the layouts of
assumption 93 the bytes determine both. -/
def Image.sectionsOk (img : Image) (own : BitVec 512) : Bool :=
  let b := img.bytes
  let x := imgSections b
  let cores := (coresOf (imgKites b)).zip img.cores
  openAt own 4096 (seg b 4096 (pad4096 x.core)) == padTo4096 (cores.flatMap fun e => e.2.carried.section e.1)
    && img.cores.length == coreCount (imgKites b) && img.control.cores.length == img.cores.length
    && openAt own x.ctlOff (seg b x.ctlOff (pad4096 x.ctl)) == padTo4096 img.control.bytes
    && decide (natLE (seg b 0x64 4) = img.control.envs.length)

/-- What an image opens to: its tiles' entries, and the keys of its envelopes by index. -/
structure Opened where
  tiles : List SpanEntry
  keys : List (Nat × BitVec 512)
deriving DecidableEq, Repr

/-- An image opened, or the status it is refused with: its signature, its keys, its form (R530, R533, R560). -/
def State.openImage (s : State) (img : Image) : Except Nat Opened :=
  let b := img.bytes
  let x := imgSections b
  if !imgFormOk b then .error 0x0237
  else if !s.imgSigned b then .error 0x0233
  else match (s.imgKek b).bind fun k => (unwrapEnv k (seg b 0x68 72)).map fun own => (k, own) with
    | none => .error 0x0233
    | some (kek, own) =>
      if !img.sectionsOk own then .error 0x0237
      else match img.control.envs.mapM fun e => (unwrapEnv kek e.2).map fun k => (e.1, k) with
        | none => .error 0x0233
        | some keys => match spanEntries (imgTiles b) (seg b x.spanOff x.span) with
          | none => .error 0x0237
          | some tiles => if tiles.all SpanEntry.formOk then .ok { tiles, keys := (0, own) :: keys } else .error 0x0237

/-- The key of an entry's slot: of the envelope that the image's mapping of its extent names; none where the image maps no such extent of its
own. -/
def Opened.keyOf (x : Opened) (c : Control) (t : SpanEntry) : Option (BitVec 512) :=
  (c.extents.find? fun e => decide (e.1 = t.slot / 256) && !e.2.ro).bind fun e =>
    (x.keys.find? fun k => decide (k.1 = e.2.env.toNat)).map (·.2)

/-- Every tile lies in an owned extent of the image, and those that are not poisoned pass their CRC-64 (R305, R533). -/
def Opened.tilesOk (x : Opened) (c : Control) : Bool :=
  x.tiles.all fun t => match x.keyOf c t with
    | none => false
    | some k => t.poisoned || (t.content k).isSome

end Sys2Proof.Machine
end

