-- ==== Sys2Proof/Machine/Partition.lean ====
section
/-! DEFINITION. Partitions and the ripcord: creation, resizing, deletion, freezing, images (R519 to R535, R552, R554, R559, R560). -/

namespace Sys2Proof.Machine

/-! ### Creation and resizing (R521, R523) -/

/-- The kite mask and shares of a command of R519. -/
def tetKites (c : BitVec 512) : W32 := BitVec.ofNat 32 (cmdField c 0x28 4)
def tetHbm (c : BitVec 512) : Byte := BitVec.ofNat 8 (cmdField c 0x25 1)
def tetBallast (c : BitVec 512) : Byte := BitVec.ofNat 8 (cmdField c 0x26 1)
def tetLink (c : BitVec 512) : Byte := BitVec.ofNat 8 (cmdField c 0x27 1)

/-- Shares are as R90 gives. -/
def sharesOk (c : BitVec 512) : Bool :=
  decide (1 ≤ (tetHbm c).toNat) && decide ((tetHbm c).toNat ≤ 64) && decide ((tetBallast c).toNat ≤ 64) && decide ((tetLink c).toNat ≤ 64)

/-- With these shares for partition `n`, some kind of share would sum above 64 (R91). -/
def State.sharesOver (s : State) (n : Nat) (hbm ballast link : Byte) : Bool :=
  decide (64 < s.shareSum n (fun p => p.hbm.toNat) + hbm.toNat) || decide (64 < s.shareSum n (fun p => p.ballast.toNat) + ballast.toNat)
    || decide (64 < s.shareSum n (fun p => p.link.toNat) + link.toNat)

/-- PART_CREATE (R521, R542, R552, R589). -/
def execPartCreate (o : RingId) (s : State) : Res :=
  hostCommand o 0x18 s fun ref c s =>
    let n := tetPart c
    let k := tetKites c
    s.checked ref [
      (!(partOk n && sharesOk c && tetUnused c false false false true true), 0x0227), (s.hasPart n, 0x0220),
      (bit s.su.badTethers n, 0x0702), (k == 0 || k &&& s.kitesTaken != 0, 0x0221), (s.sharesOver n (tetHbm c) (tetBallast c) (tetLink c), 0x0222), (!s.sec.drbgOk, 0x0620)]
      fun s => (s.createPartition n k (tetHbm c) (tetBallast c) (tetLink c)).complete ref 0

/-- The reservations or keep-warm tiles of a partition exceed shares (R293, R298, R523). -/
def State.sharesShort (s : State) (n : Nat) (hbm ballast : Byte) : Bool :=
  decide (hbm.toNat * hbmUnit + ballast.toNat * ballastUnit < (s.ownExtents n).length * extentBytes)
    || decide (keepWarmLimit hbm.toNat < s.keepWarmTiles n * 9216)

/-- PART_RESIZE (R523, R593): shares change and tiles that no longer fit start to sink at once; the kites move at the next spool boundary. -/
def execPartResize (o : RingId) (s : State) : Res :=
  hostCommand o 0x19 s fun ref c s =>
    let n := tetPart c
    let k := tetKites c
    let p := s.part n
    s.checked ref [
      (!(partOk n && sharesOk c && k != 0 && tetUnused c false false false true true), 0x0227), (!s.hasPart n, 0x0223),
      (s.drainTested k, 0x0221), (p.resize.isSome || decide (p.st ≠ .running), 0x0225),
      (k &&& ~~~p.kites &&& s.kitesTaken != 0, 0x0221), (s.sharesOver n (tetHbm c) (tetBallast c) (tetLink c), 0x0222),
      (s.sharesShort n (tetHbm c) (tetBallast c), 0x0224)]
      fun s => ((s.modPart n fun p => { p with
        hbm := tetHbm c, ballast := tetBallast c, link := tetLink c, resize := some { ref := some ref, kites := k } }).roomFor n 0 (2 ^ 39)).1

/-! ### Deletion (R388, R428, R524, R554) -/

/-- An extent of the partition is mapped read-only elsewhere. -/
def State.anyoneMaps (s : State) (n : Nat) : Bool := (s.ownExtents n).any fun e => s.sharedRo n e.1

/-- The sequences of a partition end as SEQ_CLOSE would end them, and are scrubbed. -/
def State.endSequences (s : State) (n : Nat) : State :=
  (s.occupied.filter fun x => decide ((s.seq x).part = n)).foldl (fun t x =>
    let t := t.endSeq x 0
    if (t.seq x).st = .scrubbing then t.freeSeq x else t) s

/-- A gondola of a deleted holder goes as REVOKE would have it go; one that nothing references is free at once (R388). -/
def State.dropGondola (s : State) (g : Nat) : State :=
  let t := (s.endMoor g).endSwap g
  let d := t.gondola g
  let t := if d.st = .withdrawing ∨ d.st = .releasing then t else t.startRelease g none
  if (t.gondola g).st = .releasing then t.freeGondola g else t

/-- The commands that wait in a partition which goes: a held resize, a re-shard, a restore. -/
def State.dropWaiters (s : State) (n : Nat) : State :=
  let p := s.part n
  let t := match p.resize with
    | none => s
    | some r => s.completeOpt r.ref 0x0223
  match p.ctx with
  | none => t
  | some x =>
    let t := t.cancelReshard x
    x.restoring.foldl (fun t e => t.complete e.1 0x0223) t

/-- What PART_DELETE does up to the scrubbing of its extents (R524). -/
def State.deletePart (s : State) (n : Nat) : State :=
  let t := (s.abort n).endSequences n
  let t := (t.gondolasOf n).foldl State.dropGondola t
  let t := (t.reelsOf n).foldl State.closeReel t
  let t := (t.bucketsOf n).foldl State.removeBucket t
  let t := (t.dropWaiters n).modPart n fun p => { p with st := .deleting, ctx := none, resize := none, postPort := none }
  ((t.mappings n).map (·.1)).foldl (fun t e => t.unmapOne n e) t

/-- PART_DELETE (R524): it completes when the scrubbing ends. -/
def execPartDelete (o : RingId) (s : State) : Res :=
  hostCommand o 0x1a s fun ref c s =>
    let n := tetPart c
    s.checked ref [
      (!(partOk n && tetUnused c false false false false false), 0x0227), (!s.hasPart n, 0x0223),
      (decide ((s.part n).st ≠ .running ∧ (s.part n).st ≠ .frozen), 0x0230), (s.anyoneMaps n, 0x0226)]
      fun s => (s.deletePart n).addJob { kind := .partDelete, ref := some ref, part := n } false

/-- A deleted partition is gone: its envelopes, its own last, its kites, everything it held (R524, R554, R556). -/
def State.erasePart (s : State) (n : Nat) : State :=
  let ks := s.coresIn n
  let t := (s.staleMesh ks).modCores ks fun _ c => c.leave
  ks.foldl State.fitSupply { t.setPart n (s.part n).regs with
    sec := { t.sec with envs := SMap.keep (fun k _ => !(decide (envKey n 0 ≤ k) && decide (k < envKey (n + 1) 0))) t.sec.envs } }

/-- What a deletion still waits for: a sequence not yet scrubbed, a gondola that other sequences reference (R358). -/
def State.deleteDue (s : State) (n : Nat) : Bool :=
  (s.gondolasOf n).isEmpty && s.occupied.all fun x => decide ((s.seq x).part ≠ n)

/-- SCRUB_COMPLETE (R322, R324, R382, R386, R524): the scrubbing that a command waits for has ended. -/
def execScrubComplete (job : Nat) (s : State) : Res :=
  .next (match s.spn.jobs[job]? with
    | none => s
    | some j =>
      if j.forMoves then s
      else
        let t := { s with spn := { s.spn with jobs := listDrop s.spn.jobs job } }
        if j.kind = .partDelete then (if s.deleteDue j.part then (t.erasePart j.part).completeOpt j.ref 0 else s)
        else t.completeOpt j.ref 0)

/-! ### FREEZE and THAW (R522, R525 to R528, R532) -/

/-- The partition is part of a multi-module job (R522). -/
def State.multiModule (s : State) (n : Nat) : Bool :=
  (s.part n).jobTag != 0 || (s.part n).ctx.isSome || !(s.bucketsOf n).isEmpty

/-- A partition of a multi-module job is at a commit boundary (R527). -/
def State.atCommit (s : State) (n : Nat) : Bool :=
  (match (s.part n).ctx with
    | none => true
    | some x => x.st == .reducing && !x.landed)
  && (s.bucketsOf n).all fun b => !s.unfinished b fun _ => true

/-- FREEZE (R525 to R527): the partition is Freezing until FREEZE_COMPLETE. -/
def execFreeze (o : RingId) (s : State) : Res :=
  hostCommand o 0x20 s fun ref c s =>
    let n := tetPart c
    s.checked ref (s.runningChecks n (tetUnused c false false false false false) ++ [
      ((s.part n).resize.isSome, 0x0230), (s.multiModule n && !s.atCommit n, 0x0231)])
      fun s => s.modPart n fun p => { p with st := .freezing, freezeRef := some ref }

/-- A snapshot is being written: every core has halted at its stop (R149, R150, R535). -/
def State.snapping (s : State) (n : Nat) : Bool :=
  (s.stopCore n).isSome && (s.coresIn n).all fun k => (s.core k).isHalted

/-- The stop of R526 is complete: no load in progress, every issued operation complete, no message on its way to or from the cores. -/
def State.stopped (s : State) (n : Nat) : Bool :=
  (s.part n).loads.isEmpty && (s.coresIn n).all (fun k => (s.core k).quiet)
    && s.mesh.all fun m => !((s.coresIn n).contains m.dst || (s.coresIn n).contains m.src)

/-- The batcher's requests for credits of the partition's channels are withdrawn; it asks anew once the partition runs (R526, R532). -/
def State.dropBatcher (s : State) (part : Nat) : State :=
  s.modCores (s.coresIn part) fun _ c =>
    { c with chans := SMap.mapVals Channel.blank (fun _ x => { x with waiters := x.waiters.filter (· ≠ 256 + part) }) c.chans }

/-- FREEZE_COMPLETE (R526): the cores have stopped; waits for credits are given up, the batcher's too, so that no credit that returns sends a
message into the stopped partition; near regions are written back; FREEZE completes with the image length. -/
def execFreezeComplete (part : Nat) (s : State) : Res :=
  onUnit (partOk part) (
    if decide ((s.part part).st = .freezing) && s.stopped part && !s.snapping part then
      let ks := s.coresIn part
      let t := ks.foldl State.dropCredit (s.dropBatcher part)
      let t := t.writeBack fun k _ => ks.contains k
      let ref := (s.part part).freezeRef
      (t.modPart part fun p => { p with st := .frozen, freezeRef := none }).completeOpt ref 0 (t.imageLength part)
    else s)

/-- THAW (R525, R528, R532): the cores and the batcher go on, and what waited in the links is released. -/
def execThaw (o : RingId) (s : State) : Res :=
  hostCommand o 0x22 s fun ref c s =>
    let n := tetPart c
    s.checked ref [
      (!(partOk n && tetUnused c false false false false false), 0x0227), (!s.hasPart n, 0x0223), (decide ((s.part n).st ≠ .frozen), 0x0230)]
      fun s => ((s.coresIn n).foldl State.fitSupply (s.modPart n fun p => { p with st := .running })).relay.complete ref 0

/-! ### SAVE and RESTORE (R529 to R534, R556, R559, R560) -/

/-- A segment list: every address and length is a multiple of 4,096 (R531). -/
def segsOk (segs : List (W64 × W64)) : Bool := segs.all fun e => e.1.toNat % 4096 == 0 && e.2.toNat % 4096 == 0

/-- The fields of SAVE. -/
def segFieldsOk (c : BitVec 512) : Bool :=
  cmdField c 0x10 8 % 4096 == 0 && decide (1 ≤ cmdField c 0x20 4) && decide (cmdField c 0x20 4 ≤ 65536)

/-- SAVE (R507, R525, R531, R584): `segs` is the segment list as host memory gives it; the command waits until that can be read, but for a
ladder that turns it away. -/
def execSave (o : RingId) (segs : List (W64 × W64)) (s : State) : Res :=
  if o.valid && !s.canPost o.fn && !s.lowLadder then .next s
  else hostCommand o 0x21 s fun ref c s =>
    let n := tetPart c
    let l := segs.take (cmdField c 0x20 4)
    s.checked ref [
      (!(partOk n && segFieldsOk c && tetUnused c true false true false false), 0x0227), (!s.hasPart n, 0x0223),
      (decide ((s.part n).st ≠ .frozen), 0x0230),
      (!segsOk l || decide ((l.map fun e => e.2.toNat).sum < s.imageLength n), 0x0232)]
      fun s => s.modPart n fun p => { p with st := .saving, busyRef := some ref, saveSegs := l }

/-- The function whose host memory a partition's SAVE or RESTORE uses can be reached (R507, R535). -/
def State.busyPost (s : State) (p : Part) : Bool := p.busyRef.any fun r => s.canPost r.ring.fn

/-- SAVE_COMPLETE (R318, R507, R525, R530, R531, R535): the image has been written in order across the segments, or host memory failed. A
tile that the codewords show poisoned as it is read is saved as poisoned. -/
def execSaveComplete (part : Nat) (result : ImageWritten) (s : State) : Res :=
  onUnit (partOk part) (
    let p := s.part part
    if decide (p.st = .saving) && s.busyPost p then
      let t := result.errs.foldl (fun t e => t.codewords part e.1 e.2) s
      let fn := (p.busyRef.map (·.ring.fn)).getD 0
      let u := if result.ok then t.tick.writeSegs fn p.saveSegs (t.imageBytes part) else t
      (u.modPart part fun p => { p with st := .frozen, busyRef := none, saveSegs := [] }).completeOpt p.busyRef (if result.ok then 0 else 0x0104)
    else s)

/-- RESTORE (R525, R533): the partition is Restoring until RESTORE_COMPLETE. -/
def execRestore (o : RingId) (s : State) : Res :=
  hostCommand o 0x23 s fun ref c s =>
    let n := tetPart c
    s.checked ref [
      (!(partOk n && segFieldsOk c && sharesOk c && tetKites c != 0 && tetUnused c true false true true true), 0x0227), (s.hasPart n, 0x0230)]
      fun s => s.setPart n { (s.part n).regs with st := .restoring, busyRef := some ref, restoring := some (tetKites c, tetHbm c, tetBallast c, tetLink c) }

/-- A core of a mask lacks an array that was enabled on the core of the same index at the source (R533). -/
def State.lacksArray (s : State) (kites : W32) (c : Control) : Bool :=
  (coresOf kites).any fun k => (bit s.arraysOff (2 * k) && !bit c.arraysOff (2 * k)) || (bit s.arraysOff (2 * k + 1) && !bit c.arraysOff (2 * k + 1))

/-- Shares, extent entries, indices, envelopes or read-only owners do not suit the image (R533, R552, assumption 94). -/
def State.noPlace (s : State) (c : Control) (hbm ballast : Byte) : Bool :=
  let own := c.extents.filter fun e => !e.2.ro
  decide (hbm.toNat * hbmUnit + ballast.toNat * ballastUnit < own.length * extentBytes)
    || decide (s.extFree < c.extents.length)
    || c.gondolas.any (fun e => decide ((s.gondola e.1).st ≠ .free)) || c.reels.any (fun e => (s.reel e.1).isOpen)
    || c.buckets.any (fun e => !(s.bucket e.1).isEmpty) || decide (s.envFree < c.envs.length)
    || c.extents.any fun e => e.2.ro && !s.ownsAll e.2.owner [e.1]

/-- The checks of R533 on an image that has been opened. -/
def State.imageChecks (s : State) (n : Nat) (img : Image) (x : Opened) (kites : W32) (hbm ballast link : Byte) : List (Bool × Nat) :=
  [ (decide (kites ≠ imgKites img.bytes) || kites &&& s.kitesTaken != 0, 0x0234), (s.lacksArray kites img.control, 0x0235)
  , (s.sharesOver n hbm ballast link, 0x0222), (s.noPlace img.control hbm ballast, 0x0236), (!x.tilesOk img.control, 0x0237)]

/-- A sender's number in a partition of another number: the batcher of partition n is 256 + n. -/
def senderIn (n w : Nat) : Nat := if 256 ≤ w ∧ w < 288 then 256 + n else w

/-- A core of this module with what an image holds of a core, in its own section and in the control section; everything else stays its own,
its generator among it (R276, R529). -/
def Core.install (c x y : Core) (n : Nat) : Core :=
  { c with
    a := x.a, c := x.c, s := x.s, v := x.v, t := x.t, loops := x.loops, flags := x.flags, pc := x.pc, passes := x.passes, activeB := x.activeB
    bankA := x.bankA, bankB := x.bankB, rank := y.rank, n := y.n, store := x.store, poison := [], arrA := x.arrA, arrB := x.arrB
    run := y.run, inactive := y.inactive, gen := y.gen, snapped := y.snapped, readyGen := y.readyGen
    slots := SMap.mapVals SeqSlot.blank (fun _ q => if q.st = .free then q else { q with part := n, closers := [] }) y.slots
    chans := SMap.mapVals Channel.blank (fun _ q => { q with waiters := q.waiters.map (senderIn n) }) y.chans
    ops := [], request := none, credit := none, ended := 0, endedAt := 0 }

/-- A tile of an image comes to rest in its slot, its units as they are (R297, R530, R533). -/
def State.installTile (s : State) (n : Nat) (x : Opened) (c : Control) (t : SpanEntry) : State :=
  match s.extent n (t.slot / 256) with
  | none => s
  | some e => s.restTile n t.slot (t.tile e (s.tile n t.slot) (if t.poisoned then none else (x.keyOf c t).bind t.content) t.poisoned)

/-- An image is installed: mappings, envelopes and tiles, then control and core state; the partition is Frozen (R533). -/
def State.install (s : State) (n : Nat) (img : Image) (x : Opened) (kites : W32) (hbm ballast link : Byte) : State :=
  let c := img.control
  let p := c.part.saved
  let t := s.setPart n { p with
    st := .frozen, kites, hbm, ballast, link, policy := (s.part n).policy, csel := (s.part n).csel, cntHi := (s.part n).cntHi
    poisonRead := (s.part n).poisonRead
    batcher := { p.batcher with toSend := p.batcher.toSend.map fun m => { m with src := senderIn n m.src } } }
  let t := c.extents.foldl (fun t e => t.setExtent n e.1 (some (if e.2.ro then e.2 else { e.2 with owner := n }))) t
  let t := x.keys.foldl (fun t e => t.setEnv n e.1 (some { key := e.2 })) t
  let t := x.tiles.foldl (fun t y => t.installTile n x c y) t
  let t := c.gondolas.foldl (fun t e => t.setGondola e.1 { e.2 with holder := n, ref := none, swapTo := none }) t
  let t := c.reels.foldl (fun t e => t.setReel e.1 { e.2 with holder := n }) t
  let t := c.buckets.foldl (fun t e => t.setBucket e.1 (e.2.map fun d => { d with part := n })) t
  ((coresOf kites).zip (img.cores.zip c.cores)).foldl (fun t e => t.modCore e.1 fun k => k.install e.2.1 e.2.2 n) t

/-- The status that a RESTORE is refused with, or what its image opens to (R533). -/
def State.restorable (s : State) (n : Nat) (img : Image) (kites : W32) (hbm ballast link : Byte) : Except Nat Opened :=
  match s.openImage img with
  | .error st => .error st
  | .ok x => match firstFail (s.imageChecks n img x kites hbm ballast link) with
    | some st => .error st
    | none => .ok x

/-- RESTORE_COMPLETE (R507, R525, R533, R535, R560): the image has been read, or host memory failed. -/
def execRestoreComplete (part : Nat) (img : Option Image) (s : State) : Res :=
  onUnit (partOk part) (
    let p := s.part part
    match p.st, p.restoring with
    | .restoring, some (kites, hbm, ballast, link) =>
      if s.busyPost p then
        let t := s.setPart part p.regs
        match img with
        | none => t.completeOpt p.busyRef 0x0104
        | some i => match t.restorable part i kites hbm ballast link with
          | .error st => t.completeOpt p.busyRef st
          | .ok x => (t.install part i x kites hbm ballast link).completeOpt p.busyRef 0
      else s
    | _, _ => s)

end Sys2Proof.Machine
end

