-- ==== Sys2Proof/Machine/Attest.lean ====
section
/-! DEFINITION. Attestation reports and measurements (R88, R563 to R565). -/

namespace Sys2Proof.Machine

/-- The states of a partition by TET_P_STATE's code, and of a descriptor by R353's (R353, R537). -/
def PartState.code : PartState → Nat
  | .none => 0
  | .running => 1
  | .freezing => 2
  | .frozen => 3
  | .saving => 4
  | .restoring => 5
  | .deleting => 6
def GonState.code : GonState → Nat
  | .free => 0
  | .mooring => 1
  | .moored => 2
  | .cut => 3
  | .stranded => 4
  | .withdrawing => 5
  | .releasing => 6

/-- Put an entry into a list sorted by rising key. -/
def insertBy {α : Type} (key : α → Nat) (x : α) : List α → List α
  | [] => [x]
  | y :: r => if key x < key y then x :: y :: r else y :: insertBy key x r

/-- A list sorted by rising key. -/
def sortBy {α : Type} (key : α → Nat) (l : List α) : List α := l.foldr (insertBy key) []

/-- A partition entry of a report (R564). -/
def partEntry (n : Nat) (p : Part) : List Byte :=
  [BitVec.ofNat 8 n, BitVec.ofNat 8 p.st.code, BitVec.ofNat 8 ((if p.locked then 1 else 0) + (if p.ideReq then 2 else 0)), p.hbm, p.ballast, p.link, 0, 0]
    ++ wordBytes p.kites ++ wordBytes p.share ++ wordBytes p.jobTag ++ wordBytes p.gen ++ List.replicate 8 0 ++ wordBytes (p.imageSet.getD 0)

/-- A generation runs on some core of a partition. That a core idle in it counts as running it is the model's choice (R126, R564, assumption 28). -/
def State.runsGen (s : State) (n : Nat) (g : W32) : Bool := (s.coresIn n).any fun k => (s.core k).gen == some g

/-- The spool entries of a partition: the generations that some core runs or holds ready, ascending (R564). -/
def State.spoolEntries (s : State) (n : Nat) : List (List Byte) :=
  (sortBy (fun g => g.gen.toNat) ((s.part n).gens.filter fun g => s.runsGen n g.gen || s.holdsReady n g.gen)).map fun g =>
    [BitVec.ofNat 8 n, if s.runsGen n g.gen then 0 else 1, 0, 0] ++ wordBytes g.gen ++ wordBytes g.digest

/-- A gondola entry (R564): one in Mooring shows a zero current digest. -/
def gondolaEntry (g : Nat) (d : Gondola) : List Byte :=
  bytesLE g 2 ++ [BitVec.ofNat 8 d.st.code, BitVec.ofNat 8 d.holder] ++ wordBytes d.version
    ++ wordBytes (if d.hasRetiring then d.retVersion else 0) ++ List.replicate 4 0
    ++ wordBytes (if d.st = .mooring then 0 else d.digest) ++ wordBytes (if d.hasRetiring then d.retDigest else 0) ++ wordBytes d.bindSet

/-- The envelopes that were derived from a binding set. -/
def State.derived (s : State) (ident : BitVec 128) : Nat :=
  (s.sec.envs.filter fun e => e.2.any fun x => decide (x.bindSet = some ident)).length

/-- A binding entry (R564). -/
def State.bindEntry (s : State) (b : Binding) : List Byte :=
  wordBytes b.ident ++ wordBytes b.members ++ bytesLE (s.derived b.ident) 2 ++ List.replicate 10 0

/-- A partition names a binding set: by an envelope, its image binding set or a gondola (R564). -/
def State.namesSet (s : State) (n : Nat) (ident : BitVec 128) : Bool :=
  (s.envsOf n).any (fun e => decide (e.2.bindSet = some ident)) || decide ((s.part n).imageSet = some ident)
    || (s.gondolasOf n).any fun g => decide ((s.gondola g).bindSet = ident)

/-- The partitions of a scope: the one named, or every existing one. -/
def State.scopeParts (s : State) (scope : Option Nat) : List Nat :=
  match scope with
  | some n => [n]
  | none => (List.range 32).filter s.hasPart

/-- The entries of a report: partitions, spools, gondolas, binding sets (R564). -/
structure Entries where
  parts : List (List Byte)
  spools : List (List Byte)
  gons : List (List Byte)
  binds : List (List Byte)
deriving DecidableEq, Repr, Inhabited

/-- The entries of a scope, in ascending order. -/
def State.entries (s : State) (scope : Option Nat) : Entries :=
  let ps := s.scopeParts scope
  { parts := ps.map fun n => partEntry n (s.part n)
    spools := ps.flatMap s.spoolEntries
    gons := (ps.flatMap fun n => sortBy id (s.gondolasOf n)).map fun g => gondolaEntry g (s.gondola g)
    binds := (sortBy (fun b => b.ident.toNat) (s.sec.bindings.filter fun b => ps.any fun n => s.namesSet n b.ident)).map s.bindEntry }

/-- The bytes of the entries, in the order of R563. -/
def Entries.bytes (e : Entries) : List Byte := e.parts.flatten ++ e.spools.flatten ++ e.gons.flatten ++ e.binds.flatten

/-- The length of a report: its fixed part, its entries, its signature (R563). -/
def Entries.reportLen (e : Entries) : Nat :=
  512 + 48 * e.parts.length + 56 * e.spools.length + 128 * e.gons.length + 32 * e.binds.length + 96

/-- The launch-image digest and the firmware digest (R88). -/
def State.launchDigest (s : State) : List Byte := sha384 (s.su.image.toList 0 (s.su.imageLen - 192))
def State.firmwareDigest (s : State) : List Byte := sha384 (vendorMessage s.su.image)

/-- Report bytes 0x010 to 0x01f, and 0x140 to 0x17f (R563). -/
def State.reportUnit (s : State) : List Byte :=
  wordBytes s.fuses.serial ++ [s.fuses.grade.setWidth 8, s.fuses.dieRev] ++ bytesLE (512 - popCount s.arraysOff) 2
    ++ [BitVec.ofNat 8 s.fuses.floor, BitVec.ofNat 8 (securityVersion s.su.image), if s.su.slot then 1 else 0, 0]
def State.reportArrays (s : State) : List Byte := wordBytes s.arraysOff

/-- The fixed part of a report (R563). -/
def State.reportHead (s : State) (scope : Option Nat) (nonce : List Byte) (e : Entries) : List Byte :=
  let flags := (if s.su.belowGrade then 1 else 0) + (if s.su.degraded then 2 else 0) + (if s.su.owner then 4 else 0)
  [0x5a#8, 0x47#8, 0x41#8, 0x52#8, 1, 0, BitVec.ofNat 8 (scope.getD 0xff), BitVec.ofNat 8 flags]
    ++ bytesLE e.reportLen 4 ++ wordBytes (s.sec.reports + 1) ++ s.reportUnit ++ wordBytes (s.su.image.read 32 12)
    ++ wordBytes (if s.siteConfig.isSome then s.me else 0xffffffff)
    ++ (match s.siteConfig with
      | none => List.replicate 8 0
      | some m => m.toList 8 8)
    ++ nonce ++ s.firmwareDigest ++ s.launchDigest ++ wordBytes s.fuses.owner ++ wordBytes s.gon.base
    ++ (if s.sec.chain1.isEmpty then List.replicate 48 0 else sha384 s.sec.chain1)
    ++ s.reportArrays ++ bytesLE e.parts.length 2 ++ bytesLE e.spools.length 2 ++ bytesLE e.gons.length 4
    ++ bytesLE e.binds.length 2 ++ List.replicate 118 0

/-- A signed report (R563). -/
def State.report (s : State) (scope : Option Nat) (nonce : List Byte) : List Byte :=
  let e := s.entries scope
  let b := s.reportHead scope nonce e ++ e.bytes
  b ++ s.sign b

/-- The measurement of an index (R565). -/
def State.measurement (s : State) (index : Nat) : Option (List Byte) :=
  if index = 1 then some s.firmwareDigest
  else if index = 2 then some s.launchDigest
  else if index = 3 then some (sha384 (s.reportUnit ++ s.reportArrays))
  else if index = 4 then some (wordBytes s.gon.base)
  else if index = 5 then some (sha384 (s.entries none).bytes)
  else none

end Sys2Proof.Machine
end

