-- ==== Sys2Proof/Machine/Security.lean ====
section
/-! DEFINITION. Security: binding sets, envelopes, imports, locks, attestation, the entropy source, SPDM and IDE (R539 to R570), and the end
of the host-memory accesses of commands (R520). -/

namespace Sys2Proof.Machine

/-! ### Command fields (R566) -/

def secPart (c : BitVec 512) : Nat := cmdField c 0x1c 1
def secFlags (c : BitVec 512) : Nat := cmdField c 0x1d 1
def secEnv (c : BitVec 512) : Nat := cmdField c 0x1e 2
def secAddr (c : BitVec 512) : W64 := BitVec.ofNat 64 (cmdField c 0x10 8)
def secLen (c : BitVec 512) : Nat := cmdField c 0x18 4
def secIdent (c : BitVec 512) : BitVec 128 := BitVec.ofNat 128 (cmdField c 0x20 16)

/-- The fields of R566 that only some commands use: address, length, partition, flags, envelope, identifier, label, share mask. -/
def secUnused (c : BitVec 512) (addr len part flags env ident label share : Bool) : Bool :=
  (addr || cmdZero c 0x10 8) && (len || cmdZero c 0x18 4) && (part || cmdZero c 0x1c 1) && (flags || cmdZero c 0x1d 1)
    && (env || cmdZero c 0x1e 2) && (ident || cmdZero c 0x20 16) && (label || cmdZero c 0x30 8) && (share || cmdZero c 0x38 4) && cmdZero c 0x3c 4

/-! ### Binding sets (R549 to R551) -/

/-- BIND (R550, R566): the record is read from host memory. -/
def execBind (o : RingId) (s : State) : Res :=
  hostCommand o 0x60 s fun ref c s =>
    let len := secLen c
    s.checked ref [
      (!(secUnused c true true false false false false false false && decide (320 ≤ len) && decide (len ≤ 256 + 64 * 16384) && len % 64 == 0), 0x0610)]
      fun s => s.addHostOp (.bind ref (secAddr c) len)

/-- The member entries of a binding record (R549). -/
def recEntries (l : List Byte) : List (List Byte) := cutInto 64 (l.drop 256) ((l.length - 256) / 64)

/-- The form of a binding record (R549). -/
def recordOk (l : List Byte) : Bool :=
  seg l 0 4 == asciiBytes [0x5a, 0x47, 0x42, 0x52] && natLE (seg l 4 2) == 1 && segZero l 6 2
    && natLE (seg l 8 4) == (l.length - 256) / 64 && segZero l 12 4 && !segZero l 0x10 16 && natLE (seg l 0x20 1) == 4
    && segZero l 0x81 15 && segZero l 0xd0 48 && (recEntries l).all fun e => segZero e 8 8 && segZero e 0x38 8

/-- W of a record for this module: its entry's wrapped key, unwrapped under the member KEK (R550); the inner none is a failed unwrap. -/
def State.recordKey (s : State) (l : List Byte) : Option (Option (List Byte)) :=
  match (recEntries l).find? fun e => decide (natLE (seg e 0 8) = s.fuses.serial.toNat) with
  | none => none
  | some e => some ((s.identityEcdh (seg l 0x20 97)).bind fun z =>
      keyUnwrap (hkdf384 (seg l 0x10 16) z (labelBind ++ wordBytes s.fuses.serial) 32) (seg e 0x10 40))

/-- The record's MAC and key check value hold under W (R549, R550). -/
def recordMacOk (l w : List Byte) : Bool :=
  hmac384 w (seg l 0 0xa0 ++ l.drop 256) == seg l 0xa0 48 && (hmac384 w (labelKcv ++ seg l 0x10 16)).take 16 == seg l 0x90 16

/-- Take a binding record: the status BIND completes with, and the table as it leaves it (R550, R567). -/
def State.takeRecord (s : State) (l : List Byte) : State × Nat :=
  if !recordOk l then (s, 0x0615)
  else match s.recordKey l with
    | none => (s, 0x0616)
    | some none => (s, 0x0615)
    | some (some w) =>
      if !recordMacOk l w then (s, 0x0615)
      else
        let b : Binding := {
          ident := BitVec.ofNat 128 (natLE (seg l 0x10 16)), w := BitVec.ofNat 256 (natLE w), members := BitVec.ofNat 32 (natLE (seg l 8 4))
          kcv := BitVec.ofNat 128 (natLE (seg l 0x90 16)) }
        match s.binding b.ident with
        | some x => (s, if x.kcv = b.kcv then 0 else 0x0619)
        | none =>
          if 256 ≤ s.sec.bindings.length then (s, 0x0617)
          else ({ s with sec := { s.sec with bindings := s.sec.bindings ++ [b] } }, 0)

/-- An envelope was derived from a binding set, or some partition's image binding set names it (R551). -/
def State.bindingUsed (s : State) (ident : BitVec 128) : Bool :=
  decide (0 < s.derived ident) || (List.range 32).any fun n => decide ((s.part n).imageSet = some ident)

/-- UNBIND (R551). -/
def execUnbind (o : RingId) (s : State) : Res :=
  hostCommand o 0x61 s fun ref c s =>
    let i := secIdent c
    s.checked ref [
      (!secUnused c false false false false false true false false, 0x0610), ((s.binding i).isNone, 0x0612), (s.bindingUsed i, 0x0618)]
      fun s => ({ s with sec := { s.sec with bindings := s.sec.bindings.filter fun b => b.ident != i } }).complete ref 0

/-! ### Envelopes (R552, R553) -/

/-- The checks that ENV_CREATE and ENV_BIND share: index 0 is the partition's own (R552, R553). -/
def State.newEnvChecks (s : State) (c : BitVec 512) (fieldsOk : Bool) : List (Bool × Nat) :=
  s.partChecks (secPart c) (fieldsOk && decide (secEnv c < 16384)) 0x0610 ++
    [(s.envHeld (secPart c) (secEnv c), 0x0611), (s.envFree == 0, 0x0614)]

/-- ENV_CREATE (R542, R553): a fresh key is drawn. -/
def execEnvCreate (o : RingId) (s : State) : Res :=
  hostCommand o 0x62 s fun ref c s =>
    s.checked ref (s.newEnvChecks c (secUnused c false false true false true false false false) ++ [(!s.sec.drbgOk, 0x0620)])
      fun s => (s.setEnv (secPart c) (secEnv c) (some { key := Config.freshKey s.free })).tick.complete ref 0

/-- A key whose two halves are equal cannot be used (R553). -/
def halvesEqual (k : BitVec 512) : Bool := k.extractLsb' 0 256 == k.extractLsb' 256 256

/-- ENV_BIND (R553). -/
def execEnvBind (o : RingId) (s : State) : Res :=
  hostCommand o 0x63 s fun ref c s =>
    let b := s.binding (secIdent c)
    let k := (b.getD default).envKey (bytesLE (cmdField c 0x30 8) 8)
    s.checked ref (s.newEnvChecks c (secUnused c false false true false true true true false) ++ [(b.isNone, 0x0612), (halvesEqual k, 0x0615)])
      fun s => (s.setEnv (secPart c) (secEnv c) (some { key := k, bindSet := some (secIdent c) })).complete ref 0

/-- An extent mapping, a sequence slot or a descriptor of a partition names an envelope (R553). A reel names none but that of its extents. -/
def State.envUsed (s : State) (part idx : Nat) : Bool :=
  (s.mappings part).any (fun e => !e.2.ro && decide (e.2.env.toNat = idx))
    || s.occupied.any (fun x => decide ((s.seq x).part = part) && decide ((s.seq x).env.toNat = idx))
    || (s.gondolasOf part).any fun g => decide ((s.gondola g).env.toNat = idx)

/-- ENV_DESTROY (R553). -/
def execEnvDestroy (o : RingId) (s : State) : Res :=
  hostCommand o 0x64 s fun ref c s =>
    let n := secPart c
    let i := secEnv c
    s.checked ref (s.partChecks n (secUnused c false false true false true false false false && decide (1 ≤ i) && decide (i < 16384)) 0x0610 ++
      [((s.env n i).isNone, 0x0612), (s.envUsed n i, 0x0613)])
      fun s => (s.setEnv n i none).complete ref 0

/-! ### Importing bound weights (R555) -/

/-- The envelope of a partition was made by ENV_BIND. -/
def State.boundEnv (s : State) (part idx : Nat) : Bool := (s.env part idx).any fun e => e.bindSet.isSome

/-- IMPORT (R555, R566): the list and the stream are read from host memory. -/
def execImportTiles (o : RingId) (s : State) : Res :=
  hostCommand o 0x65 s fun ref c s =>
    let n := secPart c
    s.checked ref (s.partChecks n (secUnused c true true true false true true false false && cmdZero c 0x24 12 && decide (secEnv c < 16384)
        && cmdField c 0x10 8 % 4096 == 0 && decide (1 ≤ secLen c) && decide (secLen c ≤ 65536)) 0x0610 ++ [(!s.boundEnv n (secEnv c), 0x061e)])
      fun s => s.addHostOp (.importTiles ref n (secEnv c) (secAddr c) (secLen c) (cmdField c 0x20 4))

/-- An entry may be stored: it is well formed and not poisoned, and its slot lies in an extent that the partition owns under the envelope
(R555). -/
def State.importOk (s : State) (part env : Nat) (t : SpanEntry) : Bool :=
  !t.poisoned && t.formOk &&
    (match s.extent part (t.slot / 256) with
      | none => false
      | some e => !e.ro && decide (e.env.toNat = env))

/-- Store one imported tile, its units unchanged; the flag says that it was stored poisoned (R318, R555). -/
def State.importOne (s : State) (part : Nat) (key : BitVec 512) (t : SpanEntry) : State × Bool :=
  match s.extent part (t.slot / 256) with
  | none => (s, false)
  | some e =>
    let d := t.content key
    let x := t.tile e (s.tile part t.slot) d false
    let u := (((s.restTile part t.slot x).writeNear x).countTier part x).settleJobs
    if d.isSome then (u, false) else (u.poisonTile part t.slot, true)

/-- Store every tile of an import, counting the poisoned. -/
def State.importAll (s : State) (part : Nat) (key : BitVec 512) (l : List SpanEntry) : State × Nat :=
  l.foldl (fun a t =>
    let r := a.1.importOne part key t
    (r.1, if r.2 then a.2 + 1 else a.2)) (s, 0)

/-- The segments that a list of bytes names: addresses and lengths (R531). -/
def segList (l : List Byte) (segs : Nat) : List (Nat × Nat) := (cutInto 16 l segs).map fun e => (natLE (e.take 8), natLE (e.drop 8))

/-- The bytes that a segment list and its segments hold (R531, R555). -/
def segTotal (l : List Byte) (segs : Nat) : Nat := 16 * segs + ((segList l segs).map (·.2)).sum

/-- The stream of an import: the bytes of its segments, which follow the list; none where the list is not aligned (R531, R555). -/
def importBytes (l : List Byte) (segs : Nat) : Option (List Byte) :=
  if (segList l segs).all fun e => e.1 % 4096 == 0 && e.2 % 4096 == 0 then some (l.drop (16 * segs)) else none

/-- IMPORT ends: every entry is checked before any is stored (R555, R570). -/
def State.endImport (s : State) (ref : CmdRef) (part env segs tiles : Nat) (l : List Byte) : State :=
  match importBytes l segs, s.env part env with
  | some b, some e =>
    match spanEntries tiles b with
    | none => s.complete ref 0x061e
    | some ts =>
      if e.bindSet.isNone || !ts.all (s.importOk part env) then s.complete ref 0x061e
      else
        let r := s.importAll part e.key ts
        if r.2 = 0 then r.1.complete ref 0
        else ({ r.1 with sec := { r.1.sec with event := setBit r.1.sec.event 2 } }).complete ref 0x061f r.2
  | _, _ => s.complete ref 0x061e

/-! ### LOCK, IMAGE_BIND, ATTEST (R556, R559, R563) -/

/-- Some partition maps extents of `n` read-only that a share mask leaves out (R556). -/
def State.maskBars (s : State) (n : Nat) (mask : W32) : Bool :=
  (List.range 32).any fun m => m != n && !bit mask m && (s.mappings m).any fun e => e.2.ro && decide (e.2.owner = n)

/-- LOCK (R556). -/
def execLock (o : RingId) (s : State) : Res :=
  hostCommand o 0x66 s fun ref c s =>
    let n := secPart c
    let mask := BitVec.ofNat 32 (cmdField c 0x38 4)
    let lk := (s.part n).locked || secFlags c % 2 == 1
    s.checked ref (s.partChecks n (secUnused c true false true true false false false true && decide (secFlags c < 4)
        && (secAddr c).toNat % 8192 == 0 && decide ((secAddr c).toNat < 2 ^ 52)) 0x0610 ++ [(lk && s.maskBars n mask, 0x061b)])
      fun s => (s.modPart n fun p => { p with
        locked := lk, ideReq := p.ideReq || secFlags c / 2 == 1, share := mask, readSlot := secAddr c }).complete ref 0

/-- IMAGE_BIND (R559, R566). -/
def execImageBind (o : RingId) (s : State) : Res :=
  hostCommand o 0x67 s fun ref c s =>
    let n := secPart c
    let i := secIdent c
    s.checked ref (s.partChecks n (secUnused c false false true false false true false false) 0x0610 ++ [(i != 0 && (s.binding i).isNone, 0x0612)])
      fun s => (s.modPart n fun p => { p with imageSet := if i = 0 then none else some i }).complete ref 0

/-- ATTEST (R563, R567): the report is assembled and signed, and then written. A module scope uses no partition. -/
def execAttest (o : RingId) (s : State) : Res :=
  hostCommand o 0x68 s fun ref c s =>
    let scope := if secFlags c = 1 then none else some (secPart c)
    s.checked ref ((if secFlags c = 1 then [(!partOk (secPart c), 0x0610)] else s.partChecks (secPart c) (decide (secFlags c < 2) && cmdZero c 0x1e 2) 0x0610)
        ++ [(!cmdZero c 0x1e 2, 0x0610)])
      fun s =>
        let need := (s.entries scope).reportLen
        if secLen c < need then s.complete ref 0x061d need
        else
          let r := s.report scope (bytesLE (cmdField c 0x20 32) 32)
          { (s.addHostOp (.attest ref (secAddr c) r)).tick with sec := { s.sec with reports := s.sec.reports + 1 } }

/-! ### The end of host-memory accesses (R520) -/

/-- A copy in progress has met the codewords of the tiles it reads (R318). -/
def State.meetHostOp (s : State) (x : HostOp) (errs : List (Nat × CodeErrs)) : State :=
  match x with
  | .copyIn _ part addr _ len => s.meetCodewords part addr.toNat len errs
  | .copyOut _ part addr _ len => s.meetCodewords part addr.toNat len errs
  | _ => s

/-- A host-memory access ends as its command gives; `none` is an error completion or poisoned data. -/
def State.endHostOp (s : State) (x : HostOp) (result : Option (List Byte)) : State :=
  match result with
  | none => s.stopCopyOp x 0x0104
  | some l =>
    match x with
    | .copyIn ref part addr _ _ => s.endCopyIn ref part addr.toNat l
    | .copyOut ref part addr host len => s.endCopyOut ref part addr.toNat host len
    | .bind ref _ _ =>
      let r := s.takeRecord l
      r.1.complete ref r.2
    | .importTiles ref part env _ segs tiles => s.endImport ref part env segs tiles l
    | .attest ref host r => (s.emit (.hostWrite ref.ring.fn host (Mem.ofList r) r.length)).complete ref 0 r.length

/-- The bytes that host memory returns are as many as the access reads; an import's list is followed by its segments' bytes. -/
def HostOp.lengthOk (x : HostOp) (l : List Byte) : Bool :=
  match x with
  | .copyIn _ _ _ _ len => decide (l.length = len)
  | .bind _ _ len => decide (l.length = len)
  | .importTiles _ _ _ _ segs _ => decide (16 * segs ≤ l.length) && decide (l.length = segTotal l segs)
  | _ => true

/-- The function whose access it is. -/
def HostOp.fn : HostOp → Nat
  | .copyIn ref .. | .copyOut ref .. | .bind ref .. | .importTiles ref .. | .attest ref .. => ref.ring.fn

/-- HOST_MEMORY_ACCESS_COMPLETE (R318, R520, R550, R555, R563): the `k`th access in progress ends, with what
host memory returned and what the codewords of the tiles it read gave. -/
def execHostMemoryAccessComplete (k : Nat) (result : HostReturn) (s : State) : Res :=
  .next (match s.hif.hostOps[k]? with
    | none => s
    | some x =>
      if s.canPost x.fn && (result.bytes.all x.lengthOk) then
        (({ s with hif := { s.hif with hostOps := listDrop s.hif.hostOps k } }).meetHostOp x result.errs).endHostOp x result.bytes
      else s)

/-! ### Readings (R561) -/

/-- A reading of a fraction: min(63, ⌊64 · a / b⌋); 0 of nothing. -/
def reading (a b : Nat) : Byte := BitVec.ofNat 8 (min 63 (64 * a / b))

/-- What a performance counter of a partition has counted since its last readings (R561, R606). -/
def Part.counted (p : Part) (k : Nat) : Nat := (SMap.get 0 p.since k).toNat

/-- The readings of a second, from 0x04 on: what the partition's counters have counted in it, and the bytes that the tiers store now. -/
def State.readings (s : State) (part : Nat) (r : Readings) : List Byte :=
  let p := s.part part
  [ reading (p.counted 0) r.arrayPossible, reading (p.counted 1) r.vectorPossible
  , reading (64 * p.counted 3) (p.hbm.toNat * 13670000000000), reading (64 * p.counted 4) (p.ballast.toNat * 460000000000)
  , reading (64 * p.counted 5) (p.link.toNat * (18 * 189200000000))
  , reading (s.tier1Bytes part) (s.hbmBytes part), reading (s.tier2Bytes part) (p.ballast.toNat * ballastUnit), reading r.watts 2500 ]

/-- READINGS_WRITE (R561): the interval number, then the readings, are written into the partition's reading slot, if it owns that; a new second
begins. -/
def execReadingsWrite (part : Nat) (r : Readings) (s : State) : Res :=
  onUnit (partOk part) (
    let p := s.part part
    let t := s.modPart part fun p => { p with since := [] }
    match s.addrRef part p.readSlot with
    | some x =>
      if p.readSlot = 0 || x.ro then t
      else
        (t.modPart part fun p => { p with readNo := p.readNo + 1 }).spanWrite part p.readSlot.toNat 8192
          (Mem.ofList (wordBytes (p.readNo + 1) ++ s.readings part r))
    | none => t)

/-! ### Entropy, owner, floor, certificates, SPDM (R542 to R546, R565, R569) -/

/-- SEC_ENTROPY_FAIL (R542): event 0x0621, once. -/
def execSecEntropyFail (s : State) : Res :=
  .next (if s.sec.drbgOk then ({ s with sec := { s.sec with drbgOk := false } }).secEvent 0 { status := 0x0621 } else s)

/-- SEC_ENTROPY_RECOVER (R542). -/
def execSecEntropyRecover (s : State) : Res :=
  .next (if s.sec.ready then { s with sec := { s.sec with drbgOk := true } } else s)

/-- A failed authentication or a refused request is counted, with event 0x0622; the counter sticks with event 0x0623 (R545, R569). -/
def State.authFailed (s : State) : State :=
  let v := stick s.sec.authFail
  let t := ({ s with sec := { s.sec with authFail := v } }).secEvent 1 { status := 0x0622 }
  if v = BitVec.allOnes 32 ∧ s.sec.authFail ≠ BitVec.allOnes 32 then t.secEvent 3 { status := 0x0623 } else t

/-- An SPDM answer: the request's code, whether it was accepted, what it returns. -/
def State.spdm (s : State) (code : Nat) (ok : Bool) (result : List Byte) : State := s.emit (.spdm code ok result)

/-- The SPDM responder answers: the security block has its identity key (R565). -/
def State.responder (s : State) : Bool := s.su.awake && s.sec.ready

/-- An owner session is open (R545). -/
def State.ownerSession (s : State) : Bool := s.sec.sessions.any (·.owner)

/-- A session is open that came by a path (R545, R557). -/
def State.sessionBy (s : State) (p : SpdmPath) : Bool := s.sec.sessions.any fun x => x.path == p

/-- A request that is accepted has its effect; one that is not is an SPDM error, counted (R545). -/
def State.ownerRequest (s : State) (code : Nat) (ok : Bool) (f : State → State) : Res :=
  .next (if !s.responder then s else if ok then (f s).spdm code true [] else (s.spdm code false []).authFailed)

/-- OWNER_PROVISION (R545). -/
def execOwnerProvision (smbus : Bool) (digest : BitVec 384) (s : State) : Res :=
  s.ownerRequest 0xfe (!s.fuses.ownerLock && smbus && s.sessionBy .smbus)
    fun s => { s with fuses := { s.fuses with owner := digest, ownerLock := true } }

/-- FLOOR_ADVANCE (R545, R567). -/
def execFloorAdvance (floor : Nat) (s : State) : Res :=
  s.ownerRequest 0xfe (s.ownerSession && decide (s.fuses.floor < floor) && decide (floor ≤ 64) && decide (floor ≤ securityVersion s.su.image))
    fun s => { s with fuses := { s.fuses with floorBits := s.fuses.floorBits ||| BitVec.ofNat 64 (2 ^ floor - 1) } }

/-- A port held with 0x0403 trains again once slot 1 is written, unless LNK_P_CTL.HOLD or a self-test holds it too (R395, R546). -/
def Port.newChain (x : Port) : Port :=
  if x.st = .held ∧ x.status = 0x0403 then { x with st := if x.hold || x.testHold then .held else .training, status := 0 } else x

/-- SET_CERTIFICATE (R395, R544, R546): slot 1 is written, and ports held with 0x0403 train again. -/
def execSetCertificate (slot : Nat) (chain : List Byte) (s : State) : Res :=
  s.ownerRequest 0xee (s.ownerSession && decide (slot = 1) && decide (chain.length ≤ 4096))
    fun s => (List.range 18).foldl (fun s p => s.modPort p Port.newChain) { s with sec := { s.sec with chain1 := chain } }

/-- A certificate chain that the module answers with (R544). -/
def State.chainOf (s : State) (slot : Nat) : Option (List Byte) :=
  if slot = 0 then some s.fuses.chain0 else if slot = 1 && !s.sec.chain1.isEmpty then some s.sec.chain1 else none

/-- A requester's chain makes its session an owner session: its root public key has the fused owner digest (R545). -/
def State.ownerChain (s : State) (chain : List Byte) : Bool := s.fuses.ownerLock && chainOk s.fuses.owner chain

/-- A session is agreed by ECDH with the requester's share: with its chain where it authenticates itself, of at most four at once (R545, R565). A
chain that is not signed down from its root is a failed authentication; a share that is no point of the curve gives no session. -/
def State.openSession (s : State) (path : SpdmPath) (share chain : List Byte) : State :=
  if !(chain.isEmpty || chainSigned chain) then (s.spdm 0xe4 false []).authFailed
  else match ecdh (freshPrivate s.free) share with
    | none => s.spdm 0xe4 false []
    | some z =>
      if s.sec.drbgOk && decide (s.sec.sessions.length < 4) then
        let x : Session := { owner := s.ownerChain chain, path, secret := BitVec.ofNat 384 (natLE z) }
        let r := freshShare s.free
        ({ s with sec := { s.sec with sessions := x :: s.sec.sessions } }).tick.spdm 0xe4 true (r ++ s.tick.sign (share ++ r))
      else s.spdm 0xe4 false []

/-- The SPDM versions of R565, major and minor in a byte. -/
def spdmVersions : List Byte := [0x12, 0x13]

/-- The capabilities of R565 by their flag bits in SPDM: CERT 1, CHAL 2, MEAS with signature 4 (the value 2 of bits 3 and 4), ENCRYPT 6, MAC 7,
MUT_AUTH 8, KEY_EX 9, SET_CERT 19 (assumption 58). -/
def spdmCapabilities : List Byte := bytesLE (2 ^ 1 + 2 ^ 2 + 2 ^ 4 + 2 ^ 6 + 2 ^ 7 + 2 ^ 8 + 2 ^ 9 + 2 ^ 19) 4

/-- The algorithms of R565: SHA-384 as SPDM's measurement and base hash, AES-256-GCM as its cipher suite, and ECDSA and ECDH on brainpoolP384r1 as
extended algorithms, each with the vendor's identifier and algorithm identifier 0x0001 (assumption 58). -/
def spdmAlgorithms : List Byte :=
  bytesLE (2 ^ 2) 4 ++ bytesLE (2 ^ 1) 4 ++ bytesLE (2 ^ 1) 2 ++ (wordBytes Config.vendorId ++ bytesLE 1 2) ++ (wordBytes Config.vendorId ++ bytesLE 1 2)

/-- SPDM_REQUEST (R544, R545, R565): certificates, challenges, measurements, sessions. -/
def execSpdmRequest (req : SpdmReq) (s : State) : Res :=
  .next (if !s.responder then s else match req with
    | .getCertificate slot => match s.chainOf slot with
      | some l => s.spdm 0x82 true l
      | none => s.spdm 0x82 false []
    | .getVersion => s.spdm 0x84 true spdmVersions
    | .getCapabilities => s.spdm 0xe1 true spdmCapabilities
    | .negotiateAlgorithms => s.spdm 0xe3 true spdmAlgorithms
    | .challenge slot nonce =>
      if s.sec.drbgOk && (s.chainOf slot).isSome then
        s.tick.spdm 0x83 true (freshNonce s.free ++ s.tick.sign (nonce ++ freshNonce s.free))
      else s.spdm 0x83 false []
    | .getMeasurements index =>
      match s.measurement index with
      | none => s.spdm 0xe0 false []
      | some m => s.tick.spdm 0xe0 true (m ++ s.sign m)
    | .keyExchange path share chain => s.openSession path share chain
    | .endSession k =>
      if k < s.sec.sessions.length then ({ s with sec := { s.sec with sessions := listDrop s.sec.sessions k } }).spdm 0xec true []
      else s.spdm 0xec false []
    | .badAuth => (s.spdm 0xe4 false []).authFailed)

/-! ### PCIe IDE (R557, R558) -/

/-- An access that a function's stream carries for a partition that requires IDE. -/
def State.ideOp (s : State) (fn : Nat) (x : HostOp) : Bool :=
  match x with
  | .copyIn ref part .. | .copyOut ref part .. => ref.ring.fn == fn && fn != 0 && (s.part part).ideReq
  | _ => false

/-- A function's stream leaves the Secure state: the copies it carries stop with 0x061c (R558). -/
def State.leaveSecure (s : State) (fn : Nat) : State :=
  let f := s.func fn
  if f.ideSecure then
    let t := s.setFunc fn { f with ideSecure := false }
    let stop := t.hif.hostOps.filter (t.ideOp fn)
    let t := { t with hif := { t.hif with hostOps := t.hif.hostOps.filter fun x => !t.ideOp fn x } }
    stop.foldl (fun t x => t.stopCopyOp x 0x061c) t
  else s

/-- An IDE_KM request in an SPDM session over the PF's mailbox, on a link in Flit Mode; without them it is an error (R557). -/
def State.ideKm (s : State) (fn code : Nat) (ok : Bool) (f : State → State) : Res :=
  onUnit (fnOk fn) (
    if s.responder && s.hif.linkUp && s.su.perstN then
      (if ok && s.sessionBy .doe && s.hif.flit then (f s).emit (.ideKm fn code true) else s.emit (.ideKm fn code false))
    else s)

/-- QUERY (R557). -/
def execQuery (fn : Nat) (s : State) : Res := s.ideKm fn 0 true id

/-- KEY_PROG (R539, R557): the stream's AES-256-GCM key. -/
def execKeyProg (key : StreamKey) (s : State) : Res :=
  s.ideKm key.fn 2 true fun s => s.setFunc key.fn { s.func key.fn with ideKey := some key.key }

/-- K_SET_GO (R557): with its keys programmed the stream becomes Secure. -/
def execKSetGo (fn : Nat) (s : State) : Res :=
  s.ideKm fn 4 (s.func fn).ideKey.isSome fun s => s.setFunc fn { s.func fn with ideSecure := true, ideCount := 1 }

/-- K_SET_STOP (R557, R558). -/
def execKSetStop (fn : Nat) (s : State) : Res :=
  s.ideKm fn 5 true fun s =>
    let t := s.leaveSecure fn
    t.setFunc fn { t.func fn with ideKey := none }

/-- IDE_LEAVE_SECURE (R558). -/
def execIdeLeaveSecure (fn : Nat) (s : State) : Res := onUnit (fnOk fn) (s.leaveSecure fn)

end Sys2Proof.Machine
end

