-- ==== Sys2Proof/Machine/Power.lean ====
section
/-! DEFINITION. The power ladder, the cores' supplies and temperatures, and self-test (R571 to R596). -/

namespace Sys2Proof.Machine

/-! ### Answers to the host and to management (R513, R599) -/

/-- The packets of an MCTP message: its bytes in units of 64 (R597). -/
def packets (l : List Byte) : List (List Byte) := (List.range (ceilDiv l.length 64)).map fun i => seg l (64 * i) 64

/-- A vendor-defined response: its message type, Marrandun's identifier, the command, the status, the result (R26, R597, R599, assumption 64). -/
def State.vendor (s : State) (cmd st : Nat) (result : List Byte) : State :=
  s.emit (.vendor (packets ([0x7e] ++ bytesBE Config.vendorId.toNat 2 ++ bytesLE cmd 1 ++ bytesLE st 2 ++ result)))

/-- A command ends: a completion for the host, or a vendor-defined response for management. -/
def State.answer (s : State) (ref : Option CmdRef) (cmd st : Nat) (result : Nat) (n : Nat) : State :=
  match ref with
  | some r => s.complete r st result
  | none => s.vendor cmd st (bytesLE result n)

/-- A command is refused with the first failing check's status, or accepted. -/
def State.guarded (s : State) (ref : Option CmdRef) (cmd : Nat) (checks : List (Bool × Nat)) (f : State → State) : State :=
  match firstFail checks with
  | some st => s.answer ref cmd st 0 0
  | none => f s

/-! ### The ladder (R577 to R584, R592, R593) -/

/-- The target of LADDER, by its code; 1 names no target (R592). -/
def rungOf (t : Nat) : Option Rung :=
  if t = 0 then some .aloft else if t = 2 then some .grounded else if t = 3 then some .folded else if t = 4 then some .packed else none

/-- A rung's depth. -/
def Rung.depth : Rung → Nat
  | .aloft => 0
  | .grounded => 2
  | .folded => 3
  | .packed => 4

/-- A partition is quiet (R580). -/
def State.quietPart (s : State) (n : Nat) : Bool :=
  let p := s.part n
  (s.coresIn n).all (fun k => decide ((s.core k).run = .idle) && (List.range 16).all fun ch => ((s.core k).chan ch).empty)
    && (s.slotsIn n).all (fun x => decide ((s.seq x).st = .free)) && p.loads.isEmpty && !p.batcher.on && p.ctx.isNone

/-- LADDER below Slack is refused: a partition is not quiet or is part of a multi-module job (R580). -/
def State.busyParts (s : State) : Bool :=
  (List.range 32).any fun n => s.hasPart n && (!s.quietPart n || s.multiModule n)

/-- Tier-1 bytes stored, and tier-2 bytes not stored (R287, R582). -/
def State.allTier1 (s : State) : Nat := ((List.range 32).map s.tier1Bytes).sum
def State.freeTier2 (s : State) : Nat := 480000000000 - ((List.range 32).map s.tier2Bytes).sum

/-- LADDER to Folded finds no room in tier 2, or tiles in tier 1 that it may not save (R582). -/
def State.foldShort (s : State) (save : Bool) : Bool :=
  if save then decide (s.freeTier2 < s.allTier1)
  else s.spn.tiles.any fun e => !e.2.fresh && !e.2.inTier2

/-- The checks of LADDER; `bad` is the status of a field out of range (R580, R582, R583, R592, R593, R601). -/
def State.ladderChecks (s : State) (target : Option Rung) (flags : Nat) (bad : Nat) (fieldsOk : Bool) : List (Bool × Nat) :=
  let t := target.getD .aloft
  let save := flags % 2 == 1
  [ (!fieldsOk || target.isNone || decide (2 ≤ flags), bad)
  , (s.pwr.test.isSome || s.pwr.move.isSome || s.mgt.update.isSome, 0x0712)
  , (t == .packed && (List.range 32).any s.hasPart, 0x0714)
  , (s.pwr.low == .aloft && t != .aloft && s.busyParts, 0x0714)
  , (t == .folded && s.pwr.low != .folded && s.foldShort save, 0x0715)]

/-- LADDER from the host or from management: a move begins, or the module is there already (R579, R593). One to Aloft that management sends in
Packed completes when Aloft is reached, after a wake: no rule refuses it (R598, assumption 59). -/
def State.ladder (s : State) (ref : Option CmdRef) (target : Option Rung) (flags bad : Nat) (fieldsOk : Bool) : State :=
  s.guarded ref 0x04 (s.ladderChecks target flags bad fieldsOk) fun s =>
    let t := target.getD .aloft
    if t = s.pwr.low && !s.su.packed then s.answer ref 0x04 0 0 0
    else { s with pwr := { s.pwr with move := some { ref, target := t, save := flags % 2 == 1 } } }

/-- LADDER (R579, R592). -/
def execLadder (o : RingId) (s : State) : Res :=
  hostCommand o 0x70 s fun ref c s =>
    s.ladder (some ref) (rungOf (cmdField c 0x10 1)) (cmdField c 0x13 1) 0x0716 (cmdZero c 0x11 2 && cmdZero c 0x14 44)

/-- A core without power keeps its place in its partition, its tether's count of dropped spools and its temperature (R577, R581). -/
def Core.powerOff (c : Core) : Core :=
  { rank := c.rank, n := c.n, drops := c.drops, lanes := c.lanes, temp := c.temp, entropyFail := c.entropyFail, off := true }

/-- A port that the ladder holds, whatever it was (R581). -/
def Port.ladderDown (x : Port) : Port := { x with st := .held, status := 0x0710, ladderHold := true }

/-- The ladder holds a port; one that was not Held becomes so, which is an event (R429, R581). The manual lists no status for it. -/
def State.groundPort (s : State) (p : Nat) : State :=
  if (s.port p).st = .held then s.modPort p Port.ladderDown
  else (s.modPort p Port.ladderDown).lnkEvent 1 { status := unlistedCode 3, words := [p] }

/-- Entry to Grounded (R581). -/
def State.enterGrounded (s : State) : State :=
  let t := s.writeBack fun _ _ => true
  let t := (List.range 18).foldl State.groundPort t
  let t := t.modCores (List.range 256) fun _ c => c.powerOff
  (List.range 32).foldl (fun t n => if t.hasPart n then t.modPart n fun p => { p with gens := [] } else t) t

/-- A tile as Folded leaves it: in tier 2, marked folded if it was saved (R582). -/
def Tile.fold (t : Tile) : Tile :=
  if t.fresh then t
  else { t with tier2 := true, moving := none, savedMark := t.savedMark || !t.inTier2, placed := if t.tier2 then t.placed else t.placed + 1 }

/-- Entry to Folded (R582). -/
def State.enterFolded (s : State) : State :=
  ({ s with spn := { s.spn with tiles := SMap.mapVals Tile.blank (fun _ t => t.fold) s.spn.tiles } }).settleJobs

/-- Leaving Folded: saved tiles hinted keep-warm move to tier 1 at once (R582). -/
def State.leaveFolded (s : State) : State :=
  { s with spn := { s.spn with tiles := SMap.mapVals Tile.blank (fun key t =>
      if t.savedMark && decide (s.hintOf (key / 2 ^ 39) (key % 2 ^ 39) t = 2) then { t with moving := some false } else t) s.spn.tiles } }

/-- A port that the ladder held trains again, unless LNK_P_CTL.HOLD or a self-test holds it too, or it is `shut` for want of rack coordinates
(R91, R395, R581). -/
def Port.ladderUp (shut : Bool) (x : Port) : Port :=
  { x with ladderHold := false, status := 0, st := if x.hold || x.testHold || shut then .held else .training }

/-- Leaving Grounded: core stores read as zero, every inactive bank is Empty, ports train (R581); supplies start within their range (R573). -/
def State.leaveGrounded (s : State) : State :=
  let t := (List.range 256).foldl State.fitSupply (s.modCores (List.range 256) fun _ c => { c with off := false })
  (List.range 18).foldl (fun t p => t.modPort p (Port.ladderUp (decide (14 ≤ p) && s.siteConfig.isNone))) t

/-- Entry to Packed: only the management controller runs, and the main switch stays closed (R583). -/
def State.enterPacked (s : State) : State :=
  let t := s.dark
  { t with su := { t.su with switchClosed := s.su.switchClosed, packed := true, stage := 0x01 } }

/-- The states between the present rung and a target, passed in order (R579). -/
def State.moveRung (s : State) (target : Rung) : State :=
  let low := s.pwr.low.depth
  let t := if low < 2 ∧ 2 ≤ target.depth then s.enterGrounded else s
  let t := if low < 3 ∧ 3 ≤ target.depth then t.enterFolded else t
  let t := if low = 3 ∧ target.depth < 3 then t.leaveFolded else t
  let t := if 2 ≤ low ∧ target.depth < 2 then t.leaveGrounded else t
  let t := { t with pwr := { t.pwr with low := target, move := none } }
  if target = .packed then t.enterPacked else t

/-- LADDER_COMPLETE (R579, R581 to R583): the target is reached. -/
def execLadderComplete (s : State) : Res :=
  .next (match s.pwr.move with
    | none => s
    | some m => if s.su.rails then (s.moveRung m.target).answer m.ref 0x04 0 0 0 else s)

/-! ### Self-test (R586 to R589, R592) -/

/-- A unit that SELFTEST names is in use (R587). -/
def State.unitInUse (s : State) (kind unit : Nat) : Bool :=
  if kind = 0 then (List.range 32).any fun n => s.hasPart n && bit (s.part n).kites unit
  else if kind = 1 then (s.port unit).st != .held && (s.port unit).st != .peerless && (s.port unit).st != .lost
  else if kind = 2 then s.hasPart unit
  else false

/-- The partition a kite belongs to. -/
def State.kiteHolder (s : State) (kite : Nat) : Option Nat :=
  (List.range 32).find? fun n => s.hasPart n && bit (s.part n).kites kite

/-- An at-drain test that cannot drain its unit (R587). -/
def State.cannotDrain (s : State) (kind unit : Nat) : Bool :=
  if kind = 0 then match s.kiteHolder unit with
    | none => false
    | some n => (s.part n).resize.isSome || decide (popCount (s.part n).kites = 1)
  else kind == 2

/-- SELFTEST's fields: kinds 1 and 2 are tested at depth 0 (R592). -/
def testFieldsOk (kind unit depth flags : Nat) : Bool :=
  decide (flags < 2) && decide (depth < 2) &&
    (if kind = 0 then decide (unit < 32) else if kind = 1 then decide (unit < 18) && depth == 0
     else if kind = 2 then decide (unit < 32) && depth == 0 else kind == 3 && unit == 0)

/-- The checks of SELFTEST; `bad` is the status of a field out of range (R587, R588, R592, R593). -/
def State.testChecks (s : State) (kind unit depth flags bad : Nat) (fieldsOk : Bool) : List (Bool × Nat) :=
  [ (!fieldsOk || !testFieldsOk kind unit depth flags, bad), (s.pwr.test.isSome || s.pwr.move.isSome, 0x0712)
  , (kind == 3 && (s.pwr.low != .grounded || (List.range 32).any s.hasPart), 0x0719)
  , (s.unitInUse kind unit && (flags == 0 || s.cannotDrain kind unit), 0x0712)]

/-- A unit in use is drained: its kite leaves at the next spool boundary, its port is held (R587). -/
def State.drainUnit (s : State) (kind unit : Nat) : State :=
  if !s.unitInUse kind unit then s
  else if kind = 0 then match s.kiteHolder unit with
    | none => s
    | some n => s.modPart n fun p => { p with resize := some { ref := none, kites := clearBit p.kites unit } }
  else
    (s.modPort unit fun x => { x with st := .held, testHold := true }).lnkEvent 1 { status := unlistedCode 3, words := [unit] }

/-- SELFTEST from the host or from management. -/
def State.selfTest (s : State) (ref : Option CmdRef) (kind unit depth flags bad : Nat) (fieldsOk : Bool) : State :=
  s.guarded ref 0x05 (s.testChecks kind unit depth flags bad fieldsOk) fun s =>
    let t := s.drainUnit kind unit
    { t with pwr := { t.pwr with test := some { ref, kind, unit, full := depth == 1, atDrain := s.unitInUse kind unit } } }

/-- SELFTEST (R586 to R588, R592). -/
def execSelftest (o : RingId) (s : State) : Res :=
  hostCommand o 0x71 s fun ref c s =>
    s.selfTest (some ref) (cmdField c 0x10 1) (cmdField c 0x11 1) (cmdField c 0x12 1) (cmdField c 0x13 1) 0x0716 (cmdZero c 0x14 44)

/-- A unit of a kind that a test covers (R586). -/
def SelfTest.covers (t : SelfTest) (u : TestUnit) : Bool :=
  u.valid && match u with
    | .array k _ | .vector k => (decide (t.kind = 0 ∧ k / 8 = t.unit) || t.kind == 3) && t.full
    | .coreStore k | .instrStore k | .router k => decide (t.kind = 0 ∧ k / 8 = t.unit) || t.kind == 3
    | .link p => decide (t.kind = 1 ∧ p = t.unit) || t.kind == 3
    | .tether n => decide (t.kind = 2 ∧ n = t.unit) || t.kind == 3
    | .spanCtl | .security | .hostIf => t.kind == 3

/-- A unit by SELFTEST's kind code and number, as the log names it. -/
def TestUnit.words : TestUnit → List Nat
  | .array k j => [0, k, 1 + j]
  | .vector k => [0, k, 3]
  | .coreStore k => [0, k, 4]
  | .instrStore k => [0, k, 5]
  | .router k => [0, k, 6]
  | .link p => [1, p]
  | .tether n => [2, n]
  | .spanCtl => [3, 1]
  | .security => [3, 2]
  | .hostIf => [3, 3]

/-- A unit whose failure halts the module: of R96's, all but a tether (R589). -/
def TestUnit.halting (u : TestUnit) : Bool := u.moduleWide && match u with
  | .tether _ => false
  | _ => true

/-- A failing unit outside start-up is taken out; a port that becomes Held by it is an event (R96, R429, R589). -/
def State.failUnit (s : State) (u : TestUnit) : State :=
  match u with
  | .link p => if (s.port p).st = .held then s.takeOut u else (s.takeOut u).lnkEvent 1 { status := 0x0702, words := [p] }
  | _ => s.takeOut u

/-- What mismatches do outside start-up (R96, R97, R589). -/
def State.testFailed (s : State) (fails : List TestUnit) : State :=
  let t := fails.foldl State.failUnit s
  if fails.any TestUnit.halting then t.halt 0x0701
  else if fails.any (fun u => match u with
    | .array _ _ => true
    | _ => false) then t.gradeCheck else t

/-- A tested port after a pass trains again, unless it is held otherwise (R395, R587). -/
def Port.testUp (x : Port) : Port :=
  if x.testHold then { x with testHold := false, st := if x.hold || x.ladderHold then .held else .training } else x

/-- The log names the failing units of a module test (R589). -/
def State.logFails (s : State) (fails : List TestUnit) : State :=
  fails.foldl (fun t u => t.log { status := 0x0702, words := u.words } 3) s

/-- The drained unit is out of use: a kite has left its partition. -/
def State.testDue (s : State) (t : SelfTest) : Bool := t.kind != 0 || !s.unitInUse 0 t.unit

/-- SELFTEST_COMPLETE (R587, R589): a single unit mismatches exactly where its signatures differ. -/
def execSelftestComplete (sig expd : W64) (fails : List TestUnit) (s : State) : Res :=
  onUnit (fails.all TestUnit.valid) (match s.pwr.test with
    | none => s
    | some x =>
      if s.su.rails && s.testDue x && fails.all x.covers && fails.all s.testable && (decide (x.kind = 3) || fails.isEmpty == (sig == expd)) then
        let t := { s with pwr := { s.pwr with test := none, stSig := sig, stExp := expd } }
        let t := if x.kind = 3 then t.logFails fails else t
        let t := if !fails.isEmpty then t.testFailed fails else if x.kind = 1 && x.atDrain then t.modPort x.unit Port.testUp else t
        t.answer x.ref 0x05 (if fails.isEmpty then 0 else 0x0702) (if x.kind = 3 then fails.length else sig.toNat) 8
      else s)

/-! ### Supply and temperature (R571 to R575) -/

/-- SUPPLY_STEP (R571, R573, R574): one step within the policy's range. -/
def execSupplyStep (core : Nat) (up : Bool) (s : State) : Res :=
  onUnit (coreOk core) (
    let v := (s.core core).supply.toNat
    if !s.su.rails || (s.core core).off then s
    else if up then (if v < s.ceilingOf core then (s.modCore core fun c => { c with supply := c.supply + 1 }).fitSupply core else s)
    else if s.floorOf core < v then (s.modCore core fun c => { c with supply := c.supply - 1 }).fitSupply core else s)

/-- A core reports its junction; PWR_TEMP follows the hottest core (R575, R594). -/
def State.heat (s : State) (core : Nat) (temp : Byte) : State :=
  let t := s.modCore core fun c => { c with temp }
  let hot := t.cores.foldl (fun (b : Nat × Byte) e => if b.2 < e.2.temp then (e.1, e.2.temp) else b) (0, 0)
  { t with pwr := { t.pwr with hotCore := BitVec.ofNat 16 hot.1, maxC := hot.2 } }

/-- A core measures its temperature while its rails are up. -/
def State.measures (s : State) (core : Nat) : Bool := s.su.rails && !(s.core core).off

/-- CORE_HOT (R575): the core begins to lower its ceiling; the manual lists no status for this event. -/
def execCoreHot (core : Nat) (temp : Byte) (s : State) : Res :=
  onUnit (coreOk core) (
    if s.measures core && decide (95 ≤ temp.toNat) then
      let t := s.heat core temp
      if (s.core core).hot then t
      else (t.modCore core fun c => { c with hot := true }).pwrEvent 1 { status := unlistedCode 4, words := [core] }
    else s)

/-- CEILING_STEP (R575): the ceiling falls by 10 mV while the junction is 93 °C or above, and then rises again. -/
def execCeilingStep (core : Nat) (temp : Byte) (s : State) : Res :=
  onUnit (coreOk core) (
    let c := s.core core
    if s.measures core && (c.hot || c.ceilingCut != 0) then
      let t := s.heat core temp
      if c.hot && decide (93 ≤ temp.toNat) then
        let t := if s.floorOf core < s.ceilingOf core then t.modCore core fun c => { c with ceilingCut := c.ceilingCut + 1 } else t
        t.modCore core fun c => { c with supply := if t.ceilingOf core < c.supply.toNat then BitVec.ofNat 6 (t.ceilingOf core) else c.supply }
      else t.modCore core fun c => { c with hot := false, ceilingCut := if c.ceilingCut = 0 then 0 else c.ceilingCut - 1 }
    else s)

/-- CORE_HOLD (R575, R593, R595): at its floor and 105 °C the core holds. -/
def execCoreHold (core : Nat) (temp : Byte) (s : State) : Res :=
  onUnit (coreOk core) (
    let c := s.core core
    if s.measures core && decide (105 ≤ temp.toNat) && decide (c.supply.toNat ≤ s.floorOf core) && !c.held then
      let v := stick s.pwr.holds
      let t := (s.heat core temp).modCore core fun c => { c with held := true }
      let t := ({ t with pwr := { t.pwr with holds := v } }).pwrEvent 0 { status := 0x0713, words := [core] }
      if v = BitVec.allOnes 32 ∧ s.pwr.holds ≠ BitVec.allOnes 32 then t.pwrEvent 2 { status := 0x0718 } else t
    else s)

/-- CORE_HOLD_RELEASE (R575): below 100 °C the core resumes. -/
def execCoreHoldRelease (core : Nat) (temp : Byte) (s : State) : Res :=
  onUnit (coreOk core) (
    if (s.core core).held && decide (temp.toNat < 100) then (s.heat core temp).modCore core fun c => { c with held := false } else s)

/-- ENGINE_GATE (R578): an engine of a waiting core, 0 and 1 its arrays and 2 its vector engine, that has had no operation for 256 steps. -/
def execEngineGate (core eng : Nat) (s : State) : Res :=
  onUnit (coreOk core && decide (eng < 3)) (
    let c := s.core core
    if !c.aloft then s
    else if eng = 0 then (if c.arrA.quiet then s.modCore core fun c => { c with gatedA := true } else s)
    else if eng = 1 then (if c.arrB.quiet then s.modCore core fun c => { c with gatedB := true } else s)
    else if c.flagsSettled then s.modCore core fun c => { c with gatedV := true } else s)

/-- HBM_CALIBRATION (R590): a pause of at most 2 µs, which changes nothing but time. -/
def execHbmCalibration (stack : Nat) (s : State) : Res := onUnit (decide (stack < 12)) s

end Sys2Proof.Machine
end

