-- ==== Sys2Proof/Machine/Registers.lean ====
section
/-! DEFINITION. The registers: what a read of each shows, and what a write does (R22 to R25, R75, R325, R353, R389, R429, R505, R536, R537,
R568, R594, R609, R613). -/

namespace Sys2Proof.Machine

/-! ### Reading (R505) -/

/-- Bit fields of a 32-bit register, lowest first, each a value and a width. -/
def fields (l : List (Nat × Nat)) : W32 := BitVec.ofNat 32 (packBits l)

/-- 1 for true. -/
def flag (b : Bool) : Nat := if b then 1 else 0

/-- MiB, rounded up. -/
def mib (n : Nat) : Nat := ceilDiv n 1048576

/-- Word `i` of a list of bytes. -/
def wordOf (l : List Byte) (i : Nat) : W32 := BitVec.ofNat 32 (natLE (seg l (4 * i) 4))

/-- The ring registers of a function's selected ring (R536). -/
def State.ringReg (s : State) (fn off : Nat) : W32 :=
  let r := s.ring (s.selected fn)
  if off = 0x40 then BitVec.ofNat 32 (s.func fn).rsel.toNat
  else if off = 0x44 then r.cmdBase.setWidth 32
  else if off = 0x48 then (r.cmdBase >>> 32).setWidth 32
  else if off = 0x4c then r.cplBase.setWidth 32
  else if off = 0x50 then (r.cplBase >>> 32).setWidth 32
  else if off = 0x54 then fields [(r.coalUs.toNat, 8), (r.coalCnt.toNat, 8), (r.log2.toNat, 5), (0, 10), (flag r.enable, 1)]
  else if off = 0x58 then fields [(r.cplTail.toNat, 16), (r.cmdHead.toNat, 16)]
  else 0

/-- HIF registers (R75, R536). -/
def State.hifReg (s : State) (off : Nat) : W32 :=
  if off = 0x00 then 0x00010000
  else if off = 0x04 then s.startupWord
  else if off = 0x08 then fields [(s.hif.speed.toNat, 4), (s.hif.width.toNat, 3), (flag s.hif.flit, 1)]
  else if off = 0x0c then s.hif.event.setWidth 32
  else if off = 0x10 then s.hif.eventEn.setWidth 32
  else if off = 0x14 then s.hif.evtRing.setWidth 32
  else if off = 0x18 then s.hif.evtDrop
  else s.ringReg 0 off

/-- A VF's registers (R536). -/
def State.vfReg (s : State) (fn off : Nat) : W32 :=
  if off = 0x00 then 0x00010000
  else if off = 0x04 then s.startupWord
  else if off = 0x20 then fields [(popCount (s.part (fn - 1)).kites, 6), (0, 22), ((s.part (fn - 1)).st.code, 4)]
  else s.ringReg fn off

/-- TET registers (R537). -/
def State.tetReg (s : State) (off : Nat) : W32 :=
  let p := s.part s.tetPsel.toNat
  if off = 0x00 then 0x00010000
  else if off = 0x40 then s.tetPsel.setWidth 32
  else if off = 0x44 then
    fields [(0, 25), (flag !p.loads.isEmpty, 1), (flag p.batcher.on, 1), (flag p.resize.isSome, 1), (p.st.code, 4)]
  else if off = 0x48 then p.kites
  else if off = 0x4c then fields [(p.link.toNat, 8), (p.ballast.toNat, 8), (p.hbm.toNat, 8)]
  else if off = 0x50 then p.gen
  else if off = 0x80 then s.tetCsel.setWidth 32
  else if off = 0x84 then (s.core s.tetCsel.toNat).drops.setWidth 32
  else 0

/-- SPN registers (R325). -/
def State.spnReg (s : State) (off : Nat) : W32 :=
  let n := s.spn.psel.toNat
  let p := s.part n
  if off = 0x00 then 0x00010000
  else if off = 0x04 then fields [(flag s.spn.ready, 1), (flag s.spn.patrol, 1), (flag s.spn.imbal, 1), (flag !s.spn.throttled.isEmpty, 1)]
  else if off = 0x08 then s.spn.event.setWidth 32
  else if off = 0x0c then s.spn.eventEn.setWidth 32
  else if off = 0x10 then fields [(s.spn.imbStack.toNat, 4), (0, 3), (flag s.spn.imbSingle, 1)]
  else if off = 0x14 then BitVec.ofNat 32 s.extFree
  else if off = 0x18 then s.spn.hbmCe
  else if off = 0x1c then s.spn.balCe
  else if off = 0x20 then s.spn.ue
  else if off = 0x24 then s.spn.period.setWidth 32
  else if off = 0x40 then s.spn.psel.setWidth 32
  else if off = 0x44 then BitVec.ofNat 32 (s.ownExtents n).length
  else if off = 0x48 then BitVec.ofNat 32 (mib (s.tier1Bytes n))
  else if off = 0x4c then BitVec.ofNat 32 (mib (s.tier2Bytes n))
  else if off = 0x50 then BitVec.ofNat 32 (s.keepWarmTiles n)
  else if off = 0x54 then fields [(p.nearReq.toNat, 8), (p.nearEff.toNat, 8)]
  else if off = 0x58 then fields [(flag p.poisonRead, 1)]
  else 0

/-- The states of a port by LNK_P_STATE's code (R429). -/
def PortState.code : PortState → Nat
  | .training => 0
  | .authenticating => 1
  | .up => 2
  | .degraded => 3
  | .peerless => 4
  | .lost => 5
  | .held => 6

/-- LNK registers (R429). -/
def State.lnkReg (s : State) (off : Nat) : W32 :=
  let x := s.port s.lnk.psel.toNat
  if off = 0x00 then 0x00010000
  else if off = 0x04 then (List.range 18).foldl (fun m p => if s.live p then setBit m p else m) 0
  else if off = 0x08 then s.lnk.event.setWidth 32
  else if off = 0x0c then s.lnk.eventEn.setWidth 32
  else if off = 0x10 then s.lnk.wdog.setWidth 32
  else if off = 0x14 then BitVec.ofNat 32 (4096 - s.lnk.buckets.length)
  else if off = 0x18 then s.me
  else if off = 0x40 then s.lnk.psel.setWidth 32
  else if 18 ≤ s.lnk.psel.toNat then 0
  else if off = 0x44 then fields [(x.status.toNat, 16), (x.lanes.toNat, 8), (0, 3), (flag x.keyed, 1), (x.st.code, 4)]
  else if off = 0x48 then x.peer
  else if off = 0x4c then x.ce
  else if off = 0x50 then x.ue
  else if off = 0x54 then x.retries
  else if off = 0x58 then x.tagFail
  else if off = 0x5c then fields [(flag x.hold, 1)]
  else 0

/-- A descriptor's 256 bytes (R353). -/
def Gondola.bytes (d : Gondola) : List Byte :=
  if d.st = .free then List.replicate 256 0
  else
    let flags := flag d.hasRetiring + 2 * flag d.cutByEvict + 4 * flag (d.reel != 0xffff)
    let ret (l : List Byte) : List Byte := if d.hasRetiring then l else List.replicate l.length 0
    [BitVec.ofNat 8 d.st.code, d.residency, d.policy, d.termKind, BitVec.ofNat 8 d.holder, BitVec.ofNat 8 flags] ++ wordBytes d.env
      ++ wordBytes d.version ++ ret (wordBytes d.retVersion) ++ bytesLE d.refs 2 ++ bytesLE d.retRefs 2 ++ wordBytes d.reel ++ [0, 0]
      ++ wordBytes d.termCount ++ wordBytes d.progress ++ wordBytes d.grace ++ List.replicate 4 0
      ++ wordBytes d.manifest ++ ret (wordBytes d.retManifest) ++ wordBytes d.bindSet ++ wordBytes d.baseDigest ++ wordBytes d.digest
      ++ ret (wordBytes d.retDigest) ++ wordBytes d.served ++ List.replicate 32 0

/-- GON registers (R389). -/
def State.gonReg (s : State) (off : Nat) : W32 :=
  if off = 0x00 then 0x00010000
  else if off = 0x04 then fields [(flag s.gon.ready, 1), (flag (s.countGon .stranded != 0), 1)]
  else if off = 0x08 then s.gon.event.setWidth 32
  else if off = 0x0c then s.gon.eventEn.setWidth 32
  else if off = 0x10 then fields [(s.countGon .moored, 16), (s.countGon .cut, 16)]
  else if off = 0x14 then fields [(s.countGon .stranded, 16), (16384 - (s.gon.table.filter fun e => decide (e.2.st ≠ .free)).length, 16)]
  else if off = 0x18 then s.gon.reelDrop
  else if 0x40 ≤ off ∧ off ≤ 0x6c then wordOf (wordBytes s.gon.base) ((off - 0x40) / 4)
  else if off = 0x80 then s.gon.sel.setWidth 32
  else if 0x100 ≤ off ∧ off ≤ 0x1fc then wordOf (s.gondola s.gon.sel.toNat).bytes ((off - 0x100) / 4)
  else 0

/-- SEC registers (R568). -/
def State.secReg (s : State) (off : Nat) : W32 :=
  let n := s.sec.psel.toNat
  let p := s.part n
  if off = 0x00 then 0x00010000
  else if off = 0x04 then
    fields [(flag s.sec.ready, 1), (flag s.fuses.ownerLock, 1), (flag !s.sec.chain1.isEmpty, 1), (flag !s.sec.sessions.isEmpty, 1),
            (flag s.ownerSession, 1), (flag s.sec.drbgOk, 1)]
  else if off = 0x08 then s.sec.event.setWidth 32
  else if off = 0x0c then s.sec.eventEn.setWidth 32
  else if off = 0x10 then BitVec.ofNat 32 s.fuses.floor
  else if off = 0x14 then fields [(securityVersion s.su.image, 7)]
  else if off = 0x18 then BitVec.ofNat 32 s.envFree
  else if off = 0x1c then BitVec.ofNat 32 (256 - s.sec.bindings.length)
  else if off = 0x20 then s.sec.reports
  else if off = 0x24 then s.sec.authFail
  else if off = 0x28 then s.fuses.serial.setWidth 32
  else if off = 0x2c then (s.fuses.serial >>> 32).setWidth 32
  else if off = 0x40 then s.sec.psel.setWidth 32
  else if off = 0x44 then fields [(flag p.locked, 1), (flag p.ideReq, 1), (flag (s.func (n + 1)).ideSecure, 1)]
  else if off = 0x48 then p.share
  else if off = 0x4c then BitVec.ofNat 32 ((s.envsOf n).filter fun e => decide (e.1 ≠ 0)).length
  else if off = 0x50 then p.readSlot.setWidth 32
  else if off = 0x54 then (p.readSlot >>> 32).setWidth 32
  else 0

/-- The ladder state by PWR_STATUS's code, 4 for Packed (R578, R594, R603). -/
def State.ladderCode (s : State) : Nat :=
  if s.su.packed then 4
  else match s.pwr.low with
    | .aloft => if (List.range 256).any fun k => (s.core k).aloft then 0 else 1
    | r => r.depth

/-- PWR registers (R594). The input power is what the module measures, 0 while its rails are not up
(assumption 98). -/
def State.pwrReg (s : State) (off : Nat) : W32 :=
  let c := s.core s.pwr.csel.toNat
  if off = 0x00 then 0x00010000
  else if off = 0x04 then fields [(s.ladderCode, 3), (flag s.pwr.test.isSome, 1)]
  else if off = 0x08 then s.pwr.event.setWidth 32
  else if off = 0x0c then s.pwr.eventEn.setWidth 32
  else if off = 0x10 then fields [(s.su.volts.toNat, 16), (if s.su.rails then Config.sensor s.free 1 else 0, 16)]
  else if off = 0x14 then s.pwr.vmax.setWidth 32
  else if off = 0x18 then fields [(s.pwr.maxC.toNat, 8), (0, 8), (s.pwr.hotCore.toNat, 16)]
  else if off = 0x1c then s.pwr.holds
  else if off = 0x20 then s.pwr.stSig.setWidth 32
  else if off = 0x24 then (s.pwr.stSig >>> 32).setWidth 32
  else if off = 0x28 then s.pwr.stExp.setWidth 32
  else if off = 0x2c then (s.pwr.stExp >>> 32).setWidth 32
  else if off = 0x40 then s.pwr.psel.setWidth 32
  else if off = 0x44 then (s.part s.pwr.psel.toNat).policy.setWidth 32
  else if off = 0x80 then s.pwr.csel.setWidth 32
  else if off = 0x84 then
    fields [(c.supply.toNat, 6), (0, 10), (c.temp.toNat, 8), (0, 6), (if c.off then 3 else if c.held then 2 else if c.aloft then 0 else 1, 2)]
  else 0

/-- A log entry's 64 bytes (R609). -/
def LogEntry.bytes (e : LogEntry) : List Byte :=
  wordBytes e.number ++ wordBytes e.wake ++ [e.cls, e.part] ++ wordBytes e.status ++ wordBytes e.time ++ wordBytes e.detail

/-- A log entry that is held (R608). -/
def State.logEntry (s : State) (n : W32) : Option LogEntry := s.mgt.log.find? fun e => e.number == n

/-- MGT registers (R613). -/
def State.mgtReg (s : State) (off : Nat) : W32 :=
  let p := s.part s.mgt.psel.toNat
  if off = 0x00 then 0x00010000
  else if off = 0x04 then fields [(flag s.mgt.update.isSome, 1), (flag (s.logEntry s.mgt.logSel).isSome, 1), (flag s.mgt.receiver.isSome, 1)]
  else if off = 0x08 then s.mgt.logNext
  else if off = 0x0c then s.mgt.logSel
  else if off = 0x10 then s.mgt.wakes.setWidth 32
  else if off = 0x40 then s.mgt.psel.setWidth 32
  else if off = 0x44 then p.csel.setWidth 32
  else if off = 0x48 then (SMap.get 0 p.perf p.csel.toNat).setWidth 32
  else if off = 0x4c then p.cntHi
  else if off = 0x50 then p.ovf.setWidth 32
  else if 0x100 ≤ off ∧ off ≤ 0x13c then match s.logEntry s.mgt.logSel with
    | none => 0
    | some e => wordOf e.bytes ((off - 0x100) / 4)
  else 0

/-- What a read of a 32-bit register of PF BAR0 shows; an address not assigned reads 0 (R505). -/
def State.pfReg (s : State) (offset : Nat) : W32 :=
  let b := offset / 0x10000
  let off := offset % 0x10000
  if b = 0 then s.hifReg off
  else if b = 1 then s.tetReg off
  else if b = 2 then s.spnReg off
  else if b = 3 then s.lnkReg off
  else if b = 4 then s.gonReg off
  else if b = 5 then s.secReg off
  else if b = 6 then s.pwrReg off
  else if b = 7 then s.mgtReg off
  else 0

/-! ### LNK_P_CTL (R395, R591) -/

/-- A port that HOLD holds down; the manual lists no status for its event. -/
def State.holdDown (s : State) (p : Nat) : State :=
  let x := s.port p
  if x.st = .held then s.setPort p { x with hold := true }
  else (s.setPort p { x with hold := true, st := .held }).lnkEvent 1 { status := unlistedCode 3, words := [p] }

/-- A running test of a port, or of the module. -/
def State.portTested (s : State) (p : Nat) : Bool :=
  match s.pwr.test with
  | none => false
  | some t => (t.kind == 1 && t.unit == p) || t.kind == 3

/-- A write of 0 to HOLD: a Held port trains, unless a ladder state or a running self-test holds it; a torus port without rack coordinates
stays held (R91, R395). -/
def State.unhold (s : State) (p : Nat) : State :=
  let x := s.port p
  let stays := x.ladderHold || s.portTested p || (decide (14 ≤ p) && s.siteConfig.isNone) || !s.su.linksDriven
  if x.st = .held ∧ stays = false then s.setPort p { x with hold := false, testHold := false, st := .training }
  else s.setPort p { x with hold := false }

/-- A full recalibration takes a port that carries traffic through Training (R395, R591). -/
def State.recal (s : State) (p : Nat) : State := if s.live p then s.modPort p fun x => { x with st := .training } else s

/-- A write of LNK_P_CTL of the selected port (R429). -/
def State.writePortCtl (s : State) (v : W32) : State :=
  let p := s.lnk.psel.toNat
  if p < 18 then
    let t := if bit v 0 then s.holdDown p else s.unhold p
    if bit v 1 then t.recal p else t
  else s

/-! ### Writing (R24, R25) -/

/-- A function's registers can be written: link active, out of reset, Ready reached, VFs enabled; before Ready and when halted the PF
exposes the start-up word and nothing else (R80, R103, R106). -/
def State.mmio (s : State) (fn : Nat) : Bool := s.hostReach fn

/-- A base address with its low or its high half written. -/
def putLow (x : W64) (v : W32) : W64 := putBits x 0 (v &&& 0xfffff000)
def putHigh (x : W64) (v : W32) : W64 := putBits x 32 v

/-- A write of a ring register; a base keeps its value while the ring is enabled, and HIF_R_CFG has behaviour of its own (R509, R536). -/
def State.writeRing (s : State) (fn off : Nat) (v : W32) : State :=
  let o := s.selected fn
  let r := s.ring o
  if off = 0x40 then
    if fn ≠ 0 ∧ 4 ≤ (bits v 0 4).toNat then s else s.setFunc fn { s.func fn with rsel := bits v 0 4 }
  else if r.enable then s
  else if off = 0x44 then s.setRing o { r with cmdBase := putLow r.cmdBase v }
  else if off = 0x48 then s.setRing o { r with cmdBase := putHigh r.cmdBase v }
  else if off = 0x4c then s.setRing o { r with cplBase := putLow r.cplBase v }
  else if off = 0x50 then s.setRing o { r with cplBase := putHigh r.cplBase v }
  else s

/-- Writes of the blocks' registers: RW fields are set, W1C bits cleared, everything else ignored. -/
def State.writeHif (s : State) (off : Nat) (v : W32) : State :=
  if off = 0x0c then { s with hif := { s.hif with event := s.hif.event &&& ~~~(bits v 0 2) } }
  else if off = 0x10 then { s with hif := { s.hif with eventEn := bits v 0 2 } }
  else if off = 0x14 then { s with hif := { s.hif with evtRing := bits v 0 4 } }
  else s.writeRing 0 off v
def State.writeTet (s : State) (off : Nat) (v : W32) : State :=
  if off = 0x40 then { s with tetPsel := bits v 0 5 } else if off = 0x80 then { s with tetCsel := bits v 0 8 } else s
def State.writeSpn (s : State) (off : Nat) (v : W32) : State :=
  if off = 0x08 then { s with spn := { s.spn with event := s.spn.event &&& ~~~(bits v 0 5) } }
  else if off = 0x0c then { s with spn := { s.spn with eventEn := bits v 0 5 } }
  else if off = 0x24 then { s with spn := { s.spn with period := bits v 0 5 } }
  else if off = 0x40 then { s with spn := { s.spn with psel := bits v 0 5 } }
  else if off = 0x54 then s.modPart s.spn.psel.toNat fun p => { p with nearReq := bits v 0 8 }
  else if off = 0x58 then s.modPart s.spn.psel.toNat fun p => { p with poisonRead := p.poisonRead && !bit v 0 }
  else s
def State.writeLnk (s : State) (off : Nat) (v : W32) : State :=
  if off = 0x08 then { s with lnk := { s.lnk with event := s.lnk.event &&& ~~~(bits v 0 6) } }
  else if off = 0x0c then { s with lnk := { s.lnk with eventEn := bits v 0 6 } }
  else if off = 0x10 then { s with lnk := { s.lnk with wdog := bits v 0 10 } }
  else if off = 0x40 then { s with lnk := { s.lnk with psel := bits v 0 5 } }
  else if off = 0x5c then s.writePortCtl v
  else s
def State.writeGon (s : State) (off : Nat) (v : W32) : State :=
  if off = 0x08 then { s with gon := { s.gon with event := s.gon.event &&& ~~~(bits v 0 4) } }
  else if off = 0x0c then { s with gon := { s.gon with eventEn := bits v 0 4 } }
  else if off = 0x80 then { s with gon := { s.gon with sel := bits v 0 14 } }
  else s
def State.writeSec (s : State) (off : Nat) (v : W32) : State :=
  if off = 0x08 then { s with sec := { s.sec with event := s.sec.event &&& ~~~(bits v 0 4) } }
  else if off = 0x0c then { s with sec := { s.sec with eventEn := bits v 0 4 } }
  else if off = 0x40 then { s with sec := { s.sec with psel := bits v 0 5 } }
  else s
def State.writePwr (s : State) (off : Nat) (v : W32) : State :=
  if off = 0x08 then { s with pwr := { s.pwr with event := s.pwr.event &&& ~~~(bits v 0 3) } }
  else if off = 0x0c then { s with pwr := { s.pwr with eventEn := bits v 0 3 } }
  else if off = 0x14 then (List.range 256).foldl State.fitSupply { s with pwr := { s.pwr with vmax := bits v 0 7 } }
  else if off = 0x40 then { s with pwr := { s.pwr with psel := bits v 0 5 } }
  else if off = 0x44 then
    let t := s.modPart s.pwr.psel.toNat fun p => { p with policy := bits v 0 2 }
    (t.coresIn s.pwr.psel.toNat).foldl State.fitSupply t
  else if off = 0x80 then { s with pwr := { s.pwr with csel := bits v 0 8 } }
  else s

/-- Clear counter `k` of a partition and its flag (R613). -/
def Part.clearCount (p : Part) (k : Nat) : Part := { p with perf := SMap.set 0 p.perf k 0, ovf := clearBit p.ovf k }

/-- A write of MGT_P_CLR (R613). -/
def State.clearCounts (s : State) (v : W32) : State :=
  s.modPart s.mgt.psel.toNat fun p => (List.range 8).foldl (fun p k => if bit v k then p.clearCount k else p) p

def State.writeMgt (s : State) (off : Nat) (v : W32) : State :=
  if off = 0x0c then { s with mgt := { s.mgt with logSel := v } }
  else if off = 0x40 then { s with mgt := { s.mgt with psel := bits v 0 5 } }
  else if off = 0x44 then s.modPart s.mgt.psel.toNat fun p => { p with csel := bits v 0 3 }
  else if off = 0x50 then s.modPart s.mgt.psel.toNat fun p => { p with ovf := p.ovf &&& ~~~(bits v 0 8) }
  else if off = 0x54 then s.clearCounts v
  else s

/-- A write of HIF_R_CFG (R509). -/
def State.writeRingCfg (s : State) (fn : Nat) (v : W32) : Res := if bit v 31 then execRingEnable fn v s else execRingDisable fn v s

/-- A write of a register of PF BAR0; one that is not assigned, RO or reserved is ignored (R24, R25, R505). -/
def State.writePf (s : State) (offset : Nat) (v : W32) : State :=
  let b := offset / 0x10000
  let off := offset % 0x10000
  if b = 0 then s.writeHif off v
  else if b = 1 then s.writeTet off v
  else if b = 2 then s.writeSpn off v
  else if b = 3 then s.writeLnk off v
  else if b = 4 then s.writeGon off v
  else if b = 5 then s.writeSec off v
  else if b = 6 then s.writePwr off v
  else if b = 7 then s.writeMgt off v
  else s

/-- REGISTER_WRITE (R24, R25, R505, R536): a 32-bit write to BAR0 of the PF or of a VF. -/
def execRegisterWrite (fn : Nat) (offset value : W32) (s : State) : Res :=
  if !fnOk fn then .fault .noSuchUnit
  else if offset = 0x54 then s.writeRingCfg fn value
  else if !s.mmio fn then .next s
  else if fn = 0 then .next (s.writePf offset.toNat value)
  else .next (s.writeRing fn offset.toNat value)

/-- RECAL (R395, R591): a write of LNK_P_CTL with RECAL 1. -/
def execRecal (value : W32) (s : State) : Res := .next (if s.mmio 0 && bit value 1 then s.writePortCtl value else s)

/-- PORT_HOLD (R395): a write of LNK_P_CTL with HOLD 1. -/
def execPortHold (value : W32) (s : State) : Res := .next (if s.mmio 0 && bit value 0 then s.writePortCtl value else s)

/-- PORT_UNHOLD (R395): a write of LNK_P_CTL with HOLD 0. -/
def execPortUnhold (value : W32) (s : State) : Res := .next (if s.mmio 0 && !bit value 0 then s.writePortCtl value else s)

/-- MGT_P_CLR (R604, R613). -/
def execMgtPClr (value : W32) (s : State) : Res := .next (if s.mmio 0 then s.clearCounts value else s)

/-- MGT_P_CNT_LO_READ (R606): the high half of the selected counter is latched. -/
def execMgtPCntLoRead (s : State) : Res :=
  .next (if s.mmio 0 then
    s.modPart s.mgt.psel.toNat fun p => { p with cntHi := ((SMap.get 0 p.perf p.csel.toNat) >>> 32).setWidth 32 }
  else s)

end Sys2Proof.Machine
end

