-- ==== Sys2Proof/Machine/Mgmt.lean ====
section
/-! DEFINITION. Management: MCTP and PLDM, the vendor-defined commands, the log, sensors and firmware update (R597 to R613). -/

namespace Sys2Proof.Machine

/-! ### MCTP (R597 to R600) -/


/-- The management controller's 7-bit SMBus address: 0x60 plus SITE (R62). -/
def State.smbusAddress (s : State) : BitVec 7 := 0x60 + s.su.site.zeroExtend 7

/-- The management controller answers while it is awake (R598). -/
def State.whenAwake (s : State) (t : State) : Res := .next (if s.su.awake then t else s)

/-- The main rails are not there for a request that needs them (R598). -/
def State.noRails (s : State) : Bool := decide (s.su.stage ∈ [0x01#8, 0x02#8, 0x0e#8, 0x0f#8]) || s.su.packed

/-- A message reaches the module by a path: over SMBus at the controller's address, over PCIe VDM while the host link is up (R62, R597). -/
def State.hears (s : State) : MctpPath → Bool
  | .smbus a => s.su.awake && a == s.smbusAddress
  | .vdm => s.su.awake && s.hif.linkUp

/-- The endpoint identifier that the bus owner has assigned on a path (R597). -/
def State.eid (s : State) : MctpPath → Byte
  | .smbus _ => s.mgt.eidSmbus
  | .vdm => s.mgt.eidVdm

/-- The bus owner assigns the endpoint identifier on a path. -/
def State.setEid (s : State) (p : MctpPath) (eid : Byte) : State :=
  match p with
  | .smbus _ => { s with mgt := { s.mgt with eidSmbus := eid } }
  | .vdm => { s with mgt := { s.mgt with eidVdm := eid } }

/-- The MCTP message types that the module serves: PLDM, SPDM, secured messages and vendor-defined PCI; MCTP control itself is type 0 (R597,
assumption 64). -/
def messageTypes : List Byte := [0x01, 0x05, 0x06, 0x7e]

/-- The PLDM types that the module serves, as a set of 64 bits: 0, 2 and 5 (R597). -/
def pldmTypes : List Byte := bytesLE (2 ^ 0 + 2 ^ 2 + 2 ^ 5) 8

/-- The identifier of the one component that an update writes (R601). -/
def componentIdent : List Byte := bytesLE 1 2

/-- What MCTP control answers: Set Endpoint ID (1) and Get Endpoint ID (2) with the identifier, Get Message Type Support (5) with the types; other
commands with their code alone (assumption 64). -/
def State.mctpAnswer (s : State) (p : MctpPath) (cmd : Nat) : List Byte :=
  [0x00, BitVec.ofNat 8 cmd] ++ (if cmd = 1 ∨ cmd = 2 then [s.eid p] else if cmd = 5 then messageTypes else [])

/-- What PLDM answers to a command without a row: GetPLDMTypes (type 0, 4) with the types, GetFirmwareParameters (type 5, 2) with the component's
identifier; any other is an error (R597, R601, assumption 64). -/
def pldmAnswer (kind cmd : Nat) : Out :=
  if kind = 0 ∧ cmd = 4 then .pldmData 0 4 pldmTypes
  else if kind = 5 ∧ cmd = 2 then .pldmData 5 2 componentIdent
  else .pldm cmd (if kind = 0 ∨ kind = 2 ∨ kind = 5 then 0x05 else 0x20)

/-- The codes of the vendor-defined commands (R599). -/
def vendorCodes : List Nat := [1, 2, 3, 4, 5, 6, 7, 8]

/-- MCTP_CONTROL (R597 to R600): a request without a row of its own, over SMBus or PCIe VDM. MCTP control assigns the endpoint identifier; a
vendor-defined command with an unknown code is answered with 0x0811; a message of a type that the module does not serve is dropped. -/
def execMctpControl (path : MctpPath) (req : MctpReq) (eid : Byte) (s : State) : Res :=
  .next (if s.hears path then match req with
    | .control cmd =>
      let t := if cmd = 1 then s.setEid path eid else s
      t.emit (.mctp (packets (t.mctpAnswer path cmd)))
    | .pldm kind cmd => s.emit (pldmAnswer kind cmd)
    | .vendor code => if vendorCodes.contains code then s else s.vendor code 0x0811 []
    | .other _ => s
  else s)

/-- GET_STARTUP (R75, R599). -/
def execGetStartup (s : State) : Res := s.whenAwake (s.vendor 0x01 0 (wordBytes s.startupWord))

/-- WAKE (R583, R599): Packed is left, and the rails come up. -/
def execWake (s : State) : Res :=
  s.whenAwake (
    let t := s.vendor 0x02 0 []
    if s.su.packed then { t with su := { t.su with packed := false, converters := true, stage := 0x02 } } else t)

/-- RESET (R599): a pulse of 1 ms of MOD_RESET_N; a pin that is low stays low. -/
def execReset (s : State) : Res :=
  s.whenAwake (
    let t := s.vendor 0x03 0 []
    if s.su.modResetN then t.modReset.modResetEnd 1000 else t.modReset)

/-- Byte `i` of a request's body. -/
def bodyByte (b : W32) (i : Nat) : Nat := (bits b (8 * i) 8).toNat

/-- The body of a ladder request is in range (R592). -/
def ladderBodyOk (b : W32) : Bool :=
  (rungOf (bodyByte b 0)).isSome && bodyByte b 1 == 0 && bodyByte b 2 == 0 && decide (bodyByte b 3 < 2)

/-- MGMT_LADDER (R598 to R600): a field out of range comes first (assumption 59). -/
def execMgmtLadder (body : W32) (s : State) : Res :=
  s.whenAwake (
    if !ladderBodyOk body then s.vendor 0x04 0x0811 []
    else if s.noRails && bodyByte body 0 != 0 then s.vendor 0x04 0x0812 []
    else s.ladder none (rungOf (bodyByte body 0)) (bodyByte body 3) 0x0811 true)

/-- MGMT_SELFTEST (R598 to R600): a field out of range comes first (assumption 59). -/
def execMgmtSelftest (body : W32) (s : State) : Res :=
  s.whenAwake (
    if !testFieldsOk (bodyByte body 0) (bodyByte body 1) (bodyByte body 2) (bodyByte body 3) then s.vendor 0x05 0x0811 []
    else if s.noRails then s.vendor 0x05 0x0812 []
    else s.selfTest none (bodyByte body 0) (bodyByte body 1) (bodyByte body 2) (bodyByte body 3) 0x0811 true)

/-- An entry has not yet been made (R600). -/
def State.logAhead (s : State) (first : W32) : Bool := decide ((first - s.mgt.logNext).toNat ≤ 2 ^ 30)

/-- An entry is older than every entry held (R600). -/
def State.logGone (s : State) (first : W32) : Bool :=
  s.mgt.log.all fun e => decide ((s.mgt.logNext - e.number).toNat < (s.mgt.logNext - first).toNat)

/-- The entries held of `count` numbers from `first` on, in order. -/
def State.logFrom (s : State) (first : W32) (count : Nat) : List LogEntry :=
  (List.range count).filterMap fun i => s.logEntry (first + BitVec.ofNat 32 i)

/-- LOG_READ (R599, R600). -/
def execLogRead (first : W32) (count : Byte) (s : State) : Res :=
  s.whenAwake (
    if count = 0 ∨ 8 < count.toNat then s.vendor 0x06 0x0811 []
    else if s.logAhead first then s.vendor 0x06 0 []
    else if s.logGone first then s.vendor 0x06 0x0813 []
    else s.vendor 0x06 0 ((s.logFrom first count.toNat).flatMap LogEntry.bytes))

/-- The error counters of a port cleared. -/
def Port.clearCounts (x : Port) : Port := { x with ce := 0, ue := 0, retries := 0, tagFail := 0 }

/-- Every error counter and dropped-spool counter of the module, cleared (R604). -/
def State.clearErrors (s : State) : State :=
  let t := { s with
    hif := { s.hif with evtDrop := 0 }, spn := { s.spn with hbmCe := 0, balCe := 0, ue := 0 }, gon := { s.gon with reelDrop := 0 }
    sec := { s.sec with authFail := 0 }, pwr := { s.pwr with holds := 0 } }
  let t := (List.range 18).foldl (fun t p => t.modPort p Port.clearCounts) t
  let t := t.modCores (t.cores.map (·.1)) fun _ c => { c with drops := 0 }
  let t := (t.gon.reels.map (·.1)).foldl (fun t i => if (t.reel i).isOpen && (t.reel i).dropCount != 0 then t.putReel i { t.reel i with dropCount := 0 } else t) t
  (List.range 32).foldl (fun t n => match (t.part n).ctx with
    | none => t
    | some x => if x.rejected = 0 then t else t.putCtx n { x with rejected := 0 }) t

/-- COUNTER_CLEAR (R599, R604): logged as 0x0818. -/
def execCounterClear (s : State) : Res := s.whenAwake ((s.clearErrors.log { status := 0x0818 } 0).vendor 0x07 0 [])

/-- REG_READ (R598 to R600): a register of PF BAR0, read without any effect. -/
def execRegRead (offset : W32) (s : State) : Res :=
  s.whenAwake (
    if offset.toNat % 4 ≠ 0 ∨ 0x100000 ≤ offset.toNat then s.vendor 0x08 0x0811 []
    else if s.noRails && decide (offset.toNat / 0x10000 ≠ 7) then s.vendor 0x08 0x0812 []
    else s.tick.vendor 0x08 0 (wordBytes (s.pfReg offset.toNat)))

/-! ### Sensors (R603) -/

/-- A measured sensor's value, which no command gives, rounded down to its resolution. -/
def State.measured (s : State) (ident : Nat) : Nat :=
  let v := Config.sensor s.free ident
  if ident = 1 then v / 5 * 5 else v

/-- A sensor's value: a measurement, or a count or state of the module (R603). -/
def State.sensorValue (s : State) (ident : Nat) : Option Nat :=
  if 1 ≤ ident ∧ ident ≤ 16 then some (s.measured ident)
  else if ident = 17 then some (512 - popCount s.arraysOff)
  else if ident = 32 then some s.ladderCode
  else if 33 ≤ ident ∧ ident ≤ 50 then some (s.port (ident - 33)).st.code
  else if ident = 51 then some s.shownStage.toNat
  else none

/-- The fixed thresholds of a sensor, in its unit: lower critical, lower warning, upper warning, upper critical (R603). The input voltage counts
in 0.1 V. -/
structure Limits where
  lowerCritical : Option Nat := none
  lowerWarning : Option Nat := none
  upperWarning : Nat
  upperCritical : Nat
deriving DecidableEq, Repr

/-- The thresholds of the sensors that have them (R603). -/
def sensorLimits (ident : Nat) : Option Limits :=
  if ident = 1 then some { upperWarning := 2400, upperCritical := 2500 }
  else if ident = 2 then some { lowerCritical := some 510, lowerWarning := some 540, upperWarning := 640, upperCritical := 660 }
  else if ident = 3 then some { upperWarning := 95, upperCritical := 105 }
  else if 4 ≤ ident ∧ ident ≤ 15 then some { upperWarning := 90, upperCritical := 95 }
  else if ident = 16 then some { upperWarning := 85, upperCritical := 95 }
  else none

/-- Where a value stands: at or above an upper threshold, at or below a lower one (R603, assumption 63). -/
def Limits.level (l : Limits) (v : Nat) : SensorLevel :=
  if l.upperCritical ≤ v then .upperCritical
  else if l.upperWarning ≤ v then .upperWarning
  else if l.lowerCritical.any fun x => decide (v ≤ x) then .lowerCritical
  else if l.lowerWarning.any fun x => decide (v ≤ x) then .lowerWarning
  else .normal

/-- The level of a sensor's value; one without thresholds is normal. -/
def sensorLevel (ident v : Nat) : SensorLevel := match sensorLimits ident with
  | none => .normal
  | some l => l.level v

/-- GET_SENSOR_READING (R603): the value, and where it stands against the thresholds; a sensor that the module does not have is a PLDM error. -/
def execGetSensorReading (ident : Nat) (s : State) : Res :=
  s.whenAwake (match s.sensorValue ident with
    | none => s.emit (.pldm 0x11 0x80)
    | some v => s.tick.emit (.sensor ident v (sensorLevel ident v)))

/-! ### The event receiver (R611) -/

/-- SET_EVENT_RECEIVER (R611): endpoint 0 sets none. -/
def execSetEventReceiver (eid : Byte) (s : State) : Res :=
  s.whenAwake ({ s with mgt := { s.mgt with
    receiver := if eid = 0 then none else some eid, unacked := if eid = 0 then [] else s.mgt.unacked } }.emit (.pldm 0x04 0))

/-- EVENT_RESEND (R611): after 1 s without an acknowledgement, at most three times. -/
def execEventResend (number : W32) (s : State) : Res :=
  .next (match s.mgt.unacked.find? (fun u => u.1 == number), s.logEntry number with
    | some u, some e =>
      if s.mgt.receiver.isSome && decide (u.2 ≤ 3) then
        { s with mgt := { s.mgt with unacked := s.mgt.unacked.map fun (x : W32 × Nat) => if x.1 = number then (x.1, x.2 + 1) else x } }.emit (.pldmEvent e)
      else { s with mgt := { s.mgt with unacked := s.mgt.unacked.filter fun x => x.1 != number } }
    | _, _ => { s with mgt := { s.mgt with unacked := s.mgt.unacked.filter fun x => x.1 != number } })

/-- EVENT_ACKNOWLEDGE (R611). -/
def execEventAcknowledge (number : W32) (s : State) : Res :=
  .next { s with mgt := { s.mgt with unacked := s.mgt.unacked.filter fun x => x.1 != number } }

/-! ### Firmware update (R104, R601, R602, R612) -/

/-- A PLDM answer: the request's code and a completion code. -/
def State.pldm (s : State) (code st : Nat) : State := s.emit (.pldm code (BitVec.ofNat 16 st))

/-- A firmware update ends, and FLASH_BUSY falls. -/
def State.endUpdate (s : State) : State := { s with mgt := { s.mgt with update := none }, su := { s.su with flashBusy := false } }

/-- REQUEST_UPDATE (R104, R601, R612): before stage 0x0b, other than in 0x0e, the answer asks for a retry. While FLASH_HOLD_N is low the update
waits for the flash (R60); the start-up word goes on showing stage 0x0b or 0x0e, since no rule lets it return to 0x04: the model's choice
(R76, assumption 65). -/
def execRequestUpdate (s : State) : Res :=
  s.whenAwake (
    if s.mgt.update.isSome then s.pldm 0x10 0x81
    else if s.su.stage != 0x0b && s.su.stage != 0x0e then s.pldm 0x10 0x8e
    else { s with mgt := { s.mgt with update := some { slot := !s.su.slot } }, su := { s.su with flashBusy := s.su.flashHoldN } }.pldm 0x10 0)

/-- FIRMWARE_DATA (R601): a block of the image is written to the slot that is not in use. -/
def execFirmwareData (offset : Nat) (data : List Byte) (s : State) : Res :=
  s.whenAwake (match s.mgt.update with
    | none => s
    | some u =>
      if u.transferred || !s.su.flashBusy then s
      else if 0x1000000 < offset + data.length then s.pldm 0x15 0x82
      else { s with flash := s.flash.splice ((if u.slot then 0x1000000 else 0) + offset) data.length (Mem.ofList data) })

/-- TRANSFER_COMPLETE (R602): the slot is read back, once the module has the flash (R60). -/
def execTransferComplete (s : State) : Res :=
  s.whenAwake (match s.mgt.update with
    | none => s.pldm 0x16 0x80
    | some u => if !s.su.flashBusy then s else ({ s with mgt := { s.mgt with update := some { u with transferred := true } } }).pldm 0x16 0)

/-- The check of a written slot (R602): an image that fails as a candidate would, or whose sequence is not newer than the running image's. -/
def State.updateFault (s : State) (slot : Bool) : Nat :=
  let img := slotImage s.flash slot
  if !candidate img || (imageFault s.fuses img).isSome then 0x0814
  else if s.su.imageLen ≠ 0 ∧ newer (img.read 32 12) (s.su.image.read 32 12) = false then 0x0815
  else 0

/-- VERIFY_COMPLETE (R602): every outcome is logged; an update that fails ends. -/
def execVerifyComplete (s : State) : Res :=
  s.whenAwake (match s.mgt.update with
    | none => s
    | some u =>
      if u.transferred && u.verified.isNone && s.su.flashBusy then
        let st := s.updateFault u.slot
        let t := (s.log { status := st } (if st = 0 then 0 else 2)).pldm 0x17 st
        if st = 0 then { t with mgt := { t.mgt with update := some { u with verified := some 0 } } } else t.endUpdate
      else s)

/-- ACTIVATE_FIRMWARE (R602): accepted once verified, with the report that activation needs a reset; the new image runs after the next start-up. -/
def execActivateFirmware (s : State) : Res :=
  s.whenAwake (match s.mgt.update with
    | none => s.pldm 0x1a 0x80
    | some u => if u.verified.isSome then (s.endUpdate.pldm 0x1a 0).emit (.activate true) else s.pldm 0x1a 0x85)

end Sys2Proof.Machine
end

