-- ==== Sys2Proof/Machine/Move.lean ====
section
/-! DEFINITION. The operations of the move slot: the next bundle issues if it holds the operation (R177 to R186). -/

namespace Sys2Proof.Machine

/-- SSET (R177): a scalar register takes a sign-extended immediate. -/
def execSset (core : Nat) (s : State) : Res := issueAt core (fun b => match b.mov with | .sset .. => true | _ => false) s

/-- SALU (R178): a scalar function of two registers. -/
def execSalu (core : Nat) (s : State) : Res := issueAt core (fun b => match b.mov with | .salu .. => true | _ => false) s

/-- SALI (R178): a scalar function of a register and an immediate. -/
def execSali (core : Nat) (s : State) : Res := issueAt core (fun b => match b.mov with | .sali .. => true | _ => false) s

/-- SLD (R181): 8 bytes of the core store into a scalar register. -/
def execSld (core : Nat) (s : State) : Res := issueAt core (fun b => match b.mov with | .sld .. => true | _ => false) s

/-- SST (R181): a scalar register into the core store. -/
def execSst (core : Nat) (s : State) : Res := issueAt core (fun b => match b.mov with | .sst .. => true | _ => false) s

/-- VLD (R181): 1,024 bytes of the core store into a vector register. -/
def execVld (core : Nat) (s : State) : Res := issueAt core (fun b => match b.mov with | .vld .. => true | _ => false) s

/-- VST (R181): a vector register into the core store. -/
def execVst (core : Nat) (s : State) : Res := issueAt core (fun b => match b.mov with | .vst .. => true | _ => false) s

/-- PLD (R182): 8 bytes of the parameter block of the active bank. -/
def execPld (core : Nat) (s : State) : Res := issueAt core (fun b => match b.mov with | .pld .. => true | _ => false) s

/-- SETA (R164): an address register's value, stride and bound. -/
def execSeta (core : Nat) (s : State) : Res := issueAt core (fun b => match b.mov with | .seta .. => true | _ => false) s

/-- GETA (R177): one part of an address register. -/
def execGeta (core : Nat) (s : State) : Res := issueAt core (fun b => match b.mov with | .geta .. => true | _ => false) s

/-- SETC (R177): a count register. -/
def execSetc (core : Nat) (s : State) : Res := issueAt core (fun b => match b.mov with | .setc .. => true | _ => false) s

/-- GETC (R177): read a count register. -/
def execGetc (core : Nat) (s : State) : Res := issueAt core (fun b => match b.mov with | .getc .. => true | _ => false) s

/-- RDX (R179): a live count, the flags, the loop depth, the active bank, the bundle index or a channel's message count. -/
def execRdx (core : Nat) (s : State) : Res := issueAt core (fun b => match b.mov with | .rdx .. => true | _ => false) s

/-- CLRF (R180): clear the sticky flags once earlier vector operations are complete. -/
def execClrf (core : Nat) (s : State) : Res := issueAt core (fun b => b.mov == .clrf) s

/-- TDEF (R183): define a local tile handle. -/
def execTdef (core : Nat) (s : State) : Res := issueAt core (fun b => match b.mov with | .tdef .. => true | _ => false) s

/-- TSPN (R183): define a span tile handle. -/
def execTspn (core : Nat) (s : State) : Res := issueAt core (fun b => match b.mov with | .tspn .. => true | _ => false) s

/-- TCOPY (R183): copy a tile between local places, or to or from the span. -/
def execTcopy (core : Nat) (s : State) : Res := issueAt core (fun b => match b.mov with | .tcopy .. => true | _ => false) s

/-- TINV (R183): invalidate a tile handle. -/
def execTinv (core : Nat) (s : State) : Res := issueAt core (fun b => match b.mov with | .tinv .. => true | _ => false) s

/-- SEND (R185): ask for a credit; with it, inject a message with an optional tile payload. -/
def execSend (core : Nat) (s : State) : Res := issueAt core (fun b => match b.mov with | .send .. => true | _ => false) s

/-- RECV (R185): take the message at the head of a channel and return its credit. -/
def execRecv (core : Nat) (s : State) : Res := issueAt core (fun b => match b.mov with | .recv .. => true | _ => false) s

end Sys2Proof.Machine
end

