-- ==== Sys2Proof/Machine/Vector.lean ====
section
/-! DEFINITION. The operations of the vector slot, and the entropy source of a core (R187 to R189, R259 to R281). -/

namespace Sys2Proof.Machine

/-- VADD (R188): va + vb in every lane. -/
def execVadd (core : Nat) (s : State) : Res := issueAt core (fun b => b.vec.op == .add) s

/-- VSUB (R188): va - vb. -/
def execVsub (core : Nat) (s : State) : Res := issueAt core (fun b => b.vec.op == .sub) s

/-- VMUL (R188): va × vb. -/
def execVmul (core : Nat) (s : State) : Res := issueAt core (fun b => b.vec.op == .mul) s

/-- VFMA (R188): va × vb + vc, rounded once. -/
def execVfma (core : Nat) (s : State) : Res := issueAt core (fun b => b.vec.op == .fma) s

/-- VDIV (R202): va / vb, correctly rounded. -/
def execVdiv (core : Nat) (s : State) : Res := issueAt core (fun b => b.vec.op == .div) s

/-- VSQRT (R202): the square root of va. -/
def execVsqrt (core : Nat) (s : State) : Res := issueAt core (fun b => b.vec.op == .sqrt) s

/-- VMIN (R202): the IEEE 754 minimum. -/
def execVmin (core : Nat) (s : State) : Res := issueAt core (fun b => b.vec.op == .min) s

/-- VMAX (R202): the IEEE 754 maximum. -/
def execVmax (core : Nat) (s : State) : Res := issueAt core (fun b => b.vec.op == .max) s

/-- VCMP (R188): compare under a predicate. -/
def execVcmp (core : Nat) (s : State) : Res := issueAt core (fun b => b.vec.op == .cmp) s

/-- VSEL (R188): select by the bit pattern of vc. -/
def execVsel (core : Nat) (s : State) : Res := issueAt core (fun b => b.vec.op == .sel) s

/-- VBCS (R188): a scalar in every lane. -/
def execVbcs (core : Nat) (s : State) : Res := issueAt core (fun b => b.vec.op == .bcs) s

/-- VRED (R263): sum, maximum, minimum or sum of squares over all lanes. -/
def execVred (core : Nat) (s : State) : Res := issueAt core (fun b => b.vec.op == .red) s

/-- VCVT (R189): convert between binary64, binary32, Z16 and Z8. -/
def execVcvt (core : Nat) (s : State) : Res := issueAt core (fun b => b.vec.op == .cvt) s

/-- VFUN (R269): exp, natural log, reciprocal square root, tanh, sigmoid, GELU or SiLU. -/
def execVfun (core : Nat) (s : State) : Res := issueAt core (fun b => b.vec.op == .func) s

/-- VRAND (R275): fresh random bits or uniform values. -/
def execVrand (core : Nat) (s : State) : Res := issueAt core (fun b => b.vec.op == .rand) s

/-- VUPD (R442): the fused optimizer update, or the error-feedback quantize. -/
def execVupd (core : Nat) (s : State) : Res := issueAt core (fun b => b.vec.op == .upd) s

/-- VRAND_RESEED (R277): the entropy source mixes 64 conditioned bits into the state of each lane, unless it has failed a health test. -/
def execVrandReseed (core : Nat) (s : State) : Res :=
  onUnit (coreOk core) (if (s.core core).entropyFail then s
    else (s.modCore core fun c => c.drawn ((List.range 256).map fun i => (c.lane i).mix s.free core i)).tick)

/-- CORE_ENTROPY_FAIL (R279): the lanes draw on without reseeding, and event 0x0910 names the core, once until it recovers; that the event is of
the module, and of no partition, is the model's choice (assumption 74). -/
def execCoreEntropyFail (core : Nat) (s : State) : Res :=
  onUnit (coreOk core) (if (s.core core).entropyFail then s
    else (s.modCore core fun c => { c with entropyFail := true }).raise { status := 0x0910, words := [core] })

/-- CORE_ENTROPY_RECOVER (R279): reseeding resumes. -/
def execCoreEntropyRecover (core : Nat) (s : State) : Res :=
  onUnit (coreOk core) (s.modCore core fun c => { c with entropyFail := false })

end Sys2Proof.Machine
end

