-- ==== Sys2Proof/Machine/Dispatch.lean ====
section
/-! DEFINITION. One arm per command or event: the one direct call of its meaning. -/

namespace Sys2Proof.Machine

def exec (i : Instr) (s : State) : Host.Outcome State Fault Refusal :=
  match i with
  | .standbyOn cv => Sys2Proof.Machine.execStandbyOn cv s
  | .managementWake site board => Sys2Proof.Machine.execManagementWake site board s
  | .standbyOff cv => Sys2Proof.Machine.execStandbyOff cv s
  | .mainSwitchClose cv mated => Sys2Proof.Machine.execMainSwitchClose cv mated s
  | .mainConvertersStart cv bulk => Sys2Proof.Machine.execMainConvertersStart cv bulk s
  | .railsSettled => Sys2Proof.Machine.execRailsSettled s
  | .railSettleTimeout => Sys2Proof.Machine.execRailSettleTimeout s
  | .mainCutOff cv => Sys2Proof.Machine.execMainCutOff cv s
  | .overvoltageCutOff cv => Sys2Proof.Machine.execOvervoltageCutOff cv s
  | .inputRangeLow cv => Sys2Proof.Machine.execInputRangeLow cv s
  | .thermalTrip core temp => Sys2Proof.Machine.execThermalTrip core temp s
  | .overcurrentTripSlow => Sys2Proof.Machine.execOvercurrentTripSlow s
  | .overcurrentTripFast => Sys2Proof.Machine.execOvercurrentTripFast s
  | .mateOkBreak => Sys2Proof.Machine.execMateOkBreak s
  | .modResetFall => Sys2Proof.Machine.execModResetFall s
  | .modResetRise lowUs => Sys2Proof.Machine.execModResetRise lowUs s
  | .perstAssert => Sys2Proof.Machine.execPerstAssert s
  | .perstRelease => Sys2Proof.Machine.execPerstRelease s
  | .flashHoldAssert => Sys2Proof.Machine.execFlashHoldAssert s
  | .flashHoldRelease => Sys2Proof.Machine.execFlashHoldRelease s
  | .flashReadComplete ok => Sys2Proof.Machine.execFlashReadComplete ok s
  | .fuseMapRead readable => Sys2Proof.Machine.execFuseMapRead readable s
  | .startupSelfTestComplete fails => Sys2Proof.Machine.execStartupSelfTestComplete fails s
  | .memoryStageComplete stack ballast => Sys2Proof.Machine.execMemoryStageComplete stack ballast s
  | .portPeerless port => Sys2Proof.Machine.execPortPeerless port s
  | .linkStageEnd => Sys2Proof.Machine.execLinkStageEnd s
  | .linkStageTimeout => Sys2Proof.Machine.execLinkStageTimeout s
  | .configRequest fn op => Sys2Proof.Machine.execConfigRequest fn op s
  | .hostLinkActive speed width flit => Sys2Proof.Machine.execHostLinkActive speed width flit s
  | .hostLinkDown => Sys2Proof.Machine.execHostLinkDown s
  | .functionLevelReset fn => Sys2Proof.Machine.execFunctionLevelReset fn s
  | .busMasterDisable fn => Sys2Proof.Machine.execBusMasterDisable fn s
  | .busMasterEnable fn => Sys2Proof.Machine.execBusMasterEnable fn s
  | .msixUnmask fn vec => Sys2Proof.Machine.execMsixUnmask fn vec s
  | .hifDbCmd o value => Sys2Proof.Machine.execHifDbCmd o value s
  | .hifDbCpl o value => Sys2Proof.Machine.execHifDbCpl o value s
  | .ringEnable fn value => Sys2Proof.Machine.execRingEnable fn value s
  | .ringDisable fn value => Sys2Proof.Machine.execRingDisable fn value s
  | .commandFetch o cmd => Sys2Proof.Machine.execCommandFetch o cmd s
  | .coalesceTimerExpiry o => Sys2Proof.Machine.execCoalesceTimerExpiry o s
  | .registerWrite fn offset value => Sys2Proof.Machine.execRegisterWrite fn offset value s
  | .recal value => Sys2Proof.Machine.execRecal value s
  | .portHold value => Sys2Proof.Machine.execPortHold value s
  | .portUnhold value => Sys2Proof.Machine.execPortUnhold value s
  | .mgtPClr value => Sys2Proof.Machine.execMgtPClr value s
  | .mgtPCntLoRead => Sys2Proof.Machine.execMgtPCntLoRead s
  | .hostIn o => Sys2Proof.Machine.execHostIn o s
  | .hostOut o => Sys2Proof.Machine.execHostOut o s
  | .load o => Sys2Proof.Machine.execLoad o s
  | .spoolReadComplete read => Sys2Proof.Machine.execSpoolReadComplete read s
  | .broadcastEnd part => Sys2Proof.Machine.execBroadcastEnd part s
  | .abort o => Sys2Proof.Machine.execAbort o s
  | .stopNow o => Sys2Proof.Machine.execStopNow o s
  | .stopMarkHalt core => Sys2Proof.Machine.execStopMarkHalt core s
  | .snapshotWrite part => Sys2Proof.Machine.execSnapshotWrite part s
  | .nop core => Sys2Proof.Machine.execNop core s
  | .rep core => Sys2Proof.Machine.execRep core s
  | .br core => Sys2Proof.Machine.execBr core s
  | .jmp core => Sys2Proof.Machine.execJmp core s
  | .wait core => Sys2Proof.Machine.execWait core s
  | .swapBundle core => Sys2Proof.Machine.execSwapBundle core s
  | .sset core => Sys2Proof.Machine.execSset core s
  | .salu core => Sys2Proof.Machine.execSalu core s
  | .sali core => Sys2Proof.Machine.execSali core s
  | .sld core => Sys2Proof.Machine.execSld core s
  | .sst core => Sys2Proof.Machine.execSst core s
  | .vld core => Sys2Proof.Machine.execVld core s
  | .vst core => Sys2Proof.Machine.execVst core s
  | .pld core => Sys2Proof.Machine.execPld core s
  | .seta core => Sys2Proof.Machine.execSeta core s
  | .geta core => Sys2Proof.Machine.execGeta core s
  | .setc core => Sys2Proof.Machine.execSetc core s
  | .getc core => Sys2Proof.Machine.execGetc core s
  | .rdx core => Sys2Proof.Machine.execRdx core s
  | .clrf core => Sys2Proof.Machine.execClrf core s
  | .tdef core => Sys2Proof.Machine.execTdef core s
  | .tspn core => Sys2Proof.Machine.execTspn core s
  | .tcopy core => Sys2Proof.Machine.execTcopy core s
  | .tinv core => Sys2Proof.Machine.execTinv core s
  | .send core => Sys2Proof.Machine.execSend core s
  | .recv core => Sys2Proof.Machine.execRecv core s
  | .creditGrant src dst => Sys2Proof.Machine.execCreditGrant src dst s
  | .messageArrive src dst chan => Sys2Proof.Machine.execMessageArrive src dst chan s
  | .operationComplete core op => Sys2Proof.Machine.execOperationComplete core op s
  | .vadd core => Sys2Proof.Machine.execVadd core s
  | .vsub core => Sys2Proof.Machine.execVsub core s
  | .vmul core => Sys2Proof.Machine.execVmul core s
  | .vfma core => Sys2Proof.Machine.execVfma core s
  | .vdiv core => Sys2Proof.Machine.execVdiv core s
  | .vsqrt core => Sys2Proof.Machine.execVsqrt core s
  | .vmin core => Sys2Proof.Machine.execVmin core s
  | .vmax core => Sys2Proof.Machine.execVmax core s
  | .vcmp core => Sys2Proof.Machine.execVcmp core s
  | .vsel core => Sys2Proof.Machine.execVsel core s
  | .vbcs core => Sys2Proof.Machine.execVbcs core s
  | .vred core => Sys2Proof.Machine.execVred core s
  | .vcvt core => Sys2Proof.Machine.execVcvt core s
  | .vfun core => Sys2Proof.Machine.execVfun core s
  | .vrand core => Sys2Proof.Machine.execVrand core s
  | .vupd core => Sys2Proof.Machine.execVupd core s
  | .vrandReseed core => Sys2Proof.Machine.execVrandReseed core s
  | .coreEntropyFail core => Sys2Proof.Machine.execCoreEntropyFail core s
  | .coreEntropyRecover core => Sys2Proof.Machine.execCoreEntropyRecover core s
  | .bridle core => Sys2Proof.Machine.execBridle core s
  | .stream core => Sys2Proof.Machine.execStream core s
  | .drain core => Sys2Proof.Machine.execDrain core s
  | .bridleStart core arr => Sys2Proof.Machine.execBridleStart core arr s
  | .bridleComplete core arr => Sys2Proof.Machine.execBridleComplete core arr s
  | .streamStart core arr => Sys2Proof.Machine.execStreamStart core arr s
  | .streamComplete core arr => Sys2Proof.Machine.execStreamComplete core arr s
  | .productsLanded core arr => Sys2Proof.Machine.execProductsLanded core arr s
  | .drainComplete core arr => Sys2Proof.Machine.execDrainComplete core arr s
  | .map o => Sys2Proof.Machine.execMap o s
  | .unmap o => Sys2Proof.Machine.execUnmap o s
  | .mode cmd => Sys2Proof.Machine.execMode cmd s
  | .hint cmd => Sys2Proof.Machine.execHint cmd s
  | .scrub o => Sys2Proof.Machine.execScrub o s
  | .rehome o => Sys2Proof.Machine.execRehome o s
  | .spanWriteAccept core k => Sys2Proof.Machine.execSpanWriteAccept core k s
  | .spanReadComplete core k cw => Sys2Proof.Machine.execSpanReadComplete core k cw s
  | .migrationComplete part slot cw => Sys2Proof.Machine.execMigrationComplete part slot cw s
  | .letSinkTimeout part slot => Sys2Proof.Machine.execLetSinkTimeout part slot s
  | .useCountHalving part => Sys2Proof.Machine.execUseCountHalving part s
  | .patrol ev => Sys2Proof.Machine.execPatrol ev s
  | .imbalanceRaise stack single => Sys2Proof.Machine.execImbalanceRaise stack single s
  | .imbalanceClear => Sys2Proof.Machine.execImbalanceClear s
  | .stackThrottle stack => Sys2Proof.Machine.execStackThrottle stack s
  | .seqOpen cmd => Sys2Proof.Machine.execSeqOpen cmd s
  | .seqClose o => Sys2Proof.Machine.execSeqClose o s
  | .sequenceScrubComplete slot => Sys2Proof.Machine.execSequenceScrubComplete slot s
  | .moor cmd => Sys2Proof.Machine.execMoor cmd s
  | .moorComplete g => Sys2Proof.Machine.execMoorComplete g s
  | .swap cmd => Sys2Proof.Machine.execSwap cmd s
  | .evict o => Sys2Proof.Machine.execEvict o s
  | .revoke o => Sys2Proof.Machine.execRevoke o s
  | .baseSet o => Sys2Proof.Machine.execBaseSet o s
  | .gondolaReleaseComplete g => Sys2Proof.Machine.execGondolaReleaseComplete g s
  | .retiringRelease g => Sys2Proof.Machine.execRetiringRelease g s
  | .reelOpen o => Sys2Proof.Machine.execReelOpen o s
  | .reelClose o => Sys2Proof.Machine.execReelClose o s
  | .reelAppend core k => Sys2Proof.Machine.execReelAppend core k s
  | .feed o => Sys2Proof.Machine.execFeed o s
  | .batchCfg o => Sys2Proof.Machine.execBatchCfg o s
  | .windowTimeExpiry part => Sys2Proof.Machine.execWindowTimeExpiry part s
  | .stepStart part => Sys2Proof.Machine.execStepStart part s
  | .stepDoneWrite core k => Sys2Proof.Machine.execStepDoneWrite core k s
  | .postWrite core k => Sys2Proof.Machine.execPostWrite core k s
  | .frameReceive port rx => Sys2Proof.Machine.execFrameReceive port rx s
  | .retryTimeout port => Sys2Proof.Machine.execRetryTimeout port s
  | .idleFrameTimer port => Sys2Proof.Machine.execIdleFrameTimer port s
  | .linkWatchdogExpiry port => Sys2Proof.Machine.execLinkWatchdogExpiry port s
  | .signalDetect port => Sys2Proof.Machine.execSignalDetect port s
  | .portTrained port found peer => Sys2Proof.Machine.execPortTrained port found peer s
  | .identityMessage port kind body => Sys2Proof.Machine.execIdentityMessage port kind body s
  | .authTimeout port => Sys2Proof.Machine.execAuthTimeout port s
  | .creditMessage port cls freed => Sys2Proof.Machine.execCreditMessage port cls freed s
  | .keyRenewal port => Sys2Proof.Machine.execKeyRenewal port s
  | .rekeyMessage port share switchCount => Sys2Proof.Machine.execRekeyMessage port share switchCount s
  | .refusalMessage port status bucket step refused => Sys2Proof.Machine.execRefusalMessage port status bucket step refused s
  | .chunkReceive port unit => Sys2Proof.Machine.execChunkReceive port unit s
  | .sumSend bucket step chunk stage => Sys2Proof.Machine.execSumSend bucket step chunk stage s
  | .chunkDeliver bucket step chunk => Sys2Proof.Machine.execChunkDeliver bucket step chunk s
  | .transferDeliver t => Sys2Proof.Machine.execTransferDeliver t s
  | .bucketDefRetire bucket => Sys2Proof.Machine.execBucketDefRetire bucket s
  | .bktDef o => Sys2Proof.Machine.execBktDef o s
  | .bktDel o => Sys2Proof.Machine.execBktDel o s
  | .bktSubst o => Sys2Proof.Machine.execBktSubst o s
  | .postCfg o => Sys2Proof.Machine.execPostCfg o s
  | .digestRead o => Sys2Proof.Machine.execDigestRead o s
  | .trainCfg o => Sys2Proof.Machine.execTrainCfg o s
  | .tandemCfg o => Sys2Proof.Machine.execTandemCfg o s
  | .stepRedo o => Sys2Proof.Machine.execStepRedo o s
  | .stepRevert o => Sys2Proof.Machine.execStepRevert o s
  | .tandemRestore o => Sys2Proof.Machine.execTandemRestore o s
  | .updateDoneMark core k => Sys2Proof.Machine.execUpdateDoneMark core k s
  | .tandemCopyReceive part pos tag version index tile => Sys2Proof.Machine.execTandemCopyReceive part pos tag version index tile s
  | .tandemAcknowledge part pos version => Sys2Proof.Machine.execTandemAcknowledge part pos version s
  | .reshard cmd => Sys2Proof.Machine.execReshard cmd s
  | .reserveSet o => Sys2Proof.Machine.execReserveSet o s
  | .winchSend part => Sys2Proof.Machine.execWinchSend part s
  | .winchTileArrive w => Sys2Proof.Machine.execWinchTileArrive w s
  | .winchResend part => Sys2Proof.Machine.execWinchResend part s
  | .reshardComplete part => Sys2Proof.Machine.execReshardComplete part s
  | .partCreate o => Sys2Proof.Machine.execPartCreate o s
  | .partResize o => Sys2Proof.Machine.execPartResize o s
  | .partDelete o => Sys2Proof.Machine.execPartDelete o s
  | .freeze o => Sys2Proof.Machine.execFreeze o s
  | .freezeComplete part => Sys2Proof.Machine.execFreezeComplete part s
  | .save o segs => Sys2Proof.Machine.execSave o segs s
  | .saveComplete part result => Sys2Proof.Machine.execSaveComplete part result s
  | .thaw o => Sys2Proof.Machine.execThaw o s
  | .restore o => Sys2Proof.Machine.execRestore o s
  | .restoreComplete part img => Sys2Proof.Machine.execRestoreComplete part img s
  | .bind o => Sys2Proof.Machine.execBind o s
  | .unbind o => Sys2Proof.Machine.execUnbind o s
  | .envCreate o => Sys2Proof.Machine.execEnvCreate o s
  | .envBind o => Sys2Proof.Machine.execEnvBind o s
  | .envDestroy o => Sys2Proof.Machine.execEnvDestroy o s
  | .importTiles o => Sys2Proof.Machine.execImportTiles o s
  | .lock o => Sys2Proof.Machine.execLock o s
  | .imageBind o => Sys2Proof.Machine.execImageBind o s
  | .attest o => Sys2Proof.Machine.execAttest o s
  | .readingsWrite part readings => Sys2Proof.Machine.execReadingsWrite part readings s
  | .secEntropyFail => Sys2Proof.Machine.execSecEntropyFail s
  | .ownerProvision smbus digest => Sys2Proof.Machine.execOwnerProvision smbus digest s
  | .floorAdvance floor => Sys2Proof.Machine.execFloorAdvance floor s
  | .setCertificate slot chain => Sys2Proof.Machine.execSetCertificate slot chain s
  | .spdmRequest req => Sys2Proof.Machine.execSpdmRequest req s
  | .query fn => Sys2Proof.Machine.execQuery fn s
  | .keyProg key => Sys2Proof.Machine.execKeyProg key s
  | .kSetGo fn => Sys2Proof.Machine.execKSetGo fn s
  | .kSetStop fn => Sys2Proof.Machine.execKSetStop fn s
  | .ideLeaveSecure fn => Sys2Proof.Machine.execIdeLeaveSecure fn s
  | .ladder o => Sys2Proof.Machine.execLadder o s
  | .ladderComplete => Sys2Proof.Machine.execLadderComplete s
  | .selftest o => Sys2Proof.Machine.execSelftest o s
  | .selftestComplete sig expd fails => Sys2Proof.Machine.execSelftestComplete sig expd fails s
  | .supplyStep core up => Sys2Proof.Machine.execSupplyStep core up s
  | .coreHot core temp => Sys2Proof.Machine.execCoreHot core temp s
  | .ceilingStep core temp => Sys2Proof.Machine.execCeilingStep core temp s
  | .coreHold core temp => Sys2Proof.Machine.execCoreHold core temp s
  | .coreHoldRelease core temp => Sys2Proof.Machine.execCoreHoldRelease core temp s
  | .engineGate core eng => Sys2Proof.Machine.execEngineGate core eng s
  | .hbmCalibration stack => Sys2Proof.Machine.execHbmCalibration stack s
  | .mctpControl path req eid => Sys2Proof.Machine.execMctpControl path req eid s
  | .getStartup => Sys2Proof.Machine.execGetStartup s
  | .wake => Sys2Proof.Machine.execWake s
  | .reset => Sys2Proof.Machine.execReset s
  | .mgmtLadder body => Sys2Proof.Machine.execMgmtLadder body s
  | .mgmtSelftest body => Sys2Proof.Machine.execMgmtSelftest body s
  | .logRead first count => Sys2Proof.Machine.execLogRead first count s
  | .counterClear => Sys2Proof.Machine.execCounterClear s
  | .regRead offset => Sys2Proof.Machine.execRegRead offset s
  | .getSensorReading ident => Sys2Proof.Machine.execGetSensorReading ident s
  | .setEventReceiver eid => Sys2Proof.Machine.execSetEventReceiver eid s
  | .eventResend number => Sys2Proof.Machine.execEventResend number s
  | .requestUpdate => Sys2Proof.Machine.execRequestUpdate s
  | .firmwareData offset data => Sys2Proof.Machine.execFirmwareData offset data s
  | .transferComplete => Sys2Proof.Machine.execTransferComplete s
  | .verifyComplete => Sys2Proof.Machine.execVerifyComplete s
  | .activateFirmware => Sys2Proof.Machine.execActivateFirmware s
  | .swapComplete g => Sys2Proof.Machine.execSwapComplete g s
  | .scrubComplete job => Sys2Proof.Machine.execScrubComplete job s
  | .hostMemoryAccessComplete k result => Sys2Proof.Machine.execHostMemoryAccessComplete k result s
  | .tandemRestoreComplete part tiles => Sys2Proof.Machine.execTandemRestoreComplete part tiles s
  | .stackThrottleEnd stack => Sys2Proof.Machine.execStackThrottleEnd stack s
  | .secEntropyRecover => Sys2Proof.Machine.execSecEntropyRecover s
  | .eventAcknowledge number => Sys2Proof.Machine.execEventAcknowledge number s

end Sys2Proof.Machine
end

