-- ==== Sys2Proof/WellFormed.lean ====
section
/-! DEFINITION. Which commands are well formed: every unit a command names is one the module has (R5, R8, R115, R329, R353, R393, R409, R503, R518). -/

namespace Sys2Proof

open Sys2Proof.Machine

/-- A core index: 256 cores, 16 by 16 (R8, R9). -/
def coreExists (k : Nat) : Bool := decide (k < 256)

/-- A partition number (R115). -/
def partExists (n : Nat) : Bool := decide (n < 32)

/-- A link port (R393). -/
def portExists (p : Nat) : Bool := decide (p < 18)

/-- A function: 0 is the PF, n + 1 is VF n (R503). -/
def fnExists (fn : Nat) : Bool := decide (fn ≤ 32)

/-- A ring pair: 16 of the PF, four of each VF (R503, R508). -/
def ringExists (o : RingId) : Bool := decide (o.fn ≤ 32) && decide (o.ring < (if o.fn = 0 then 16 else 4))

/-- An MSI-X vector: 17 of the PF, four of each VF (R518). -/
def vectorExists (fn vec : Nat) : Bool := fnExists fn && decide (vec < (if fn = 0 then 17 else 4))

/-- An HBM stack (R5). -/
def stackExists (k : Nat) : Bool := decide (k < 12)

/-- A gondola descriptor (R353). -/
def gondolaExists (g : Nat) : Bool := decide (g < 16384)

/-- A source of messages: a core, the batcher of partition n as 256 + n, the link interfaces as 288 (R137, R377, R408, R417). -/
def sourceExists (src : Nat) : Bool := decide (src < 289)

/-- A unit that self-test covers (R96, R586). -/
def unitExists : TestUnit → Bool
  | .array k j => coreExists k && decide (j < 2)
  | .vector k | .coreStore k | .instrStore k | .router k => coreExists k
  | .link p => portExists p
  | .tether n => partExists n
  | .spanCtl | .security | .hostIf => true

/-- Every unit that a command names exists. -/
def Instr.wf : Instr → Bool
  | .standbyOn _ => true
  | .managementWake _ _ => true
  | .standbyOff _ => true
  | .mainSwitchClose _ _ => true
  | .mainConvertersStart _ _ => true
  | .railsSettled => true
  | .railSettleTimeout => true
  | .mainCutOff _ => true
  | .overvoltageCutOff _ => true
  | .inputRangeLow _ => true
  | .thermalTrip core _ => coreExists core
  | .overcurrentTripSlow => true
  | .overcurrentTripFast => true
  | .mateOkBreak => true
  | .modResetFall => true
  | .modResetRise _ => true
  | .perstAssert => true
  | .perstRelease => true
  | .flashHoldAssert => true
  | .flashHoldRelease => true
  | .flashReadComplete _ => true
  | .fuseMapRead _ => true
  | .startupSelfTestComplete fails => fails.all unitExists
  | .memoryStageComplete stack _ => decide (stack.getD 0 < 12)
  | .portPeerless port => portExists port
  | .linkStageEnd => true
  | .linkStageTimeout => true
  | .configRequest fn op => match op with
    | .msixMask vec => vectorExists fn vec
    | _ => fnExists fn
  | .hostLinkActive _ _ _ => true
  | .hostLinkDown => true
  | .functionLevelReset fn => fnExists fn
  | .busMasterDisable fn => fnExists fn
  | .busMasterEnable fn => fnExists fn
  | .msixUnmask fn vec => vectorExists fn vec
  | .hifDbCmd o _ => ringExists o
  | .hifDbCpl o _ => ringExists o
  | .ringEnable fn _ => fnExists fn
  | .ringDisable fn _ => fnExists fn
  | .commandFetch o _ => ringExists o
  | .coalesceTimerExpiry o => ringExists o
  | .registerWrite fn _ _ => fnExists fn
  | .recal _ => true
  | .portHold _ => true
  | .portUnhold _ => true
  | .mgtPClr _ => true
  | .mgtPCntLoRead => true
  | .hostIn o => ringExists o
  | .hostOut o => ringExists o
  | .load o => ringExists o
  | .spoolReadComplete read => partExists read.part
  | .broadcastEnd part => partExists part
  | .abort o => ringExists o
  | .stopNow o => ringExists o
  | .stopMarkHalt core => coreExists core
  | .snapshotWrite part => partExists part
  | .nop core => coreExists core
  | .rep core => coreExists core
  | .br core => coreExists core
  | .jmp core => coreExists core
  | .wait core => coreExists core
  | .swapBundle core => coreExists core
  | .sset core => coreExists core
  | .salu core => coreExists core
  | .sali core => coreExists core
  | .sld core => coreExists core
  | .sst core => coreExists core
  | .vld core => coreExists core
  | .vst core => coreExists core
  | .pld core => coreExists core
  | .seta core => coreExists core
  | .geta core => coreExists core
  | .setc core => coreExists core
  | .getc core => coreExists core
  | .rdx core => coreExists core
  | .clrf core => coreExists core
  | .tdef core => coreExists core
  | .tspn core => coreExists core
  | .tcopy core => coreExists core
  | .tinv core => coreExists core
  | .send core => coreExists core
  | .recv core => coreExists core
  | .creditGrant src dst => sourceExists src && coreExists dst
  | .messageArrive src dst chan => sourceExists src && coreExists dst && decide (chan < 16)
  | .operationComplete core _ => coreExists core
  | .vadd core => coreExists core
  | .vsub core => coreExists core
  | .vmul core => coreExists core
  | .vfma core => coreExists core
  | .vdiv core => coreExists core
  | .vsqrt core => coreExists core
  | .vmin core => coreExists core
  | .vmax core => coreExists core
  | .vcmp core => coreExists core
  | .vsel core => coreExists core
  | .vbcs core => coreExists core
  | .vred core => coreExists core
  | .vcvt core => coreExists core
  | .vfun core => coreExists core
  | .vrand core => coreExists core
  | .vupd core => coreExists core
  | .vrandReseed core => coreExists core
  | .coreEntropyFail core => coreExists core
  | .coreEntropyRecover core => coreExists core
  | .bridle core => coreExists core
  | .stream core => coreExists core
  | .drain core => coreExists core
  | .bridleStart core arr => coreExists core && decide (arr < 2)
  | .bridleComplete core arr => coreExists core && decide (arr < 2)
  | .streamStart core arr => coreExists core && decide (arr < 2)
  | .streamComplete core arr => coreExists core && decide (arr < 2)
  | .productsLanded core arr => coreExists core && decide (arr < 2)
  | .drainComplete core arr => coreExists core && decide (arr < 2)
  | .map o => ringExists o
  | .unmap o => ringExists o
  | .mode cmd => ringExists cmd.ring
  | .hint cmd => ringExists cmd.ring
  | .scrub o => ringExists o
  | .rehome o => ringExists o
  | .spanWriteAccept core _ => coreExists core
  | .spanReadComplete core _ _ => coreExists core
  | .migrationComplete part _ _ => partExists part
  | .letSinkTimeout part _ => partExists part
  | .useCountHalving part => partExists part
  | .patrol _ => true
  | .imbalanceRaise stack _ => stackExists stack
  | .imbalanceClear => true
  | .stackThrottle stack => stackExists stack
  | .seqOpen cmd => ringExists cmd.ring
  | .seqClose o => ringExists o
  | .sequenceScrubComplete slot => decide (slot < 1536)
  | .moor cmd => ringExists cmd.ring
  | .moorComplete g => gondolaExists g
  | .swap cmd => ringExists cmd.ring
  | .evict o => ringExists o
  | .revoke o => ringExists o
  | .baseSet o => ringExists o
  | .gondolaReleaseComplete g => gondolaExists g
  | .retiringRelease g => gondolaExists g
  | .reelOpen o => ringExists o
  | .reelClose o => ringExists o
  | .reelAppend core _ => coreExists core
  | .feed o => ringExists o
  | .batchCfg o => ringExists o
  | .windowTimeExpiry part => partExists part
  | .stepStart part => partExists part
  | .stepDoneWrite core _ => coreExists core
  | .postWrite core _ => coreExists core
  | .frameReceive port rx => portExists port && rx.head.length == 16 && rx.payload.length == 608 && rx.check.length == 16
  | .retryTimeout port => portExists port
  | .idleFrameTimer port => portExists port
  | .linkWatchdogExpiry port => portExists port
  | .signalDetect port => portExists port
  | .portTrained port found _ => portExists port && found.length == 8
  | .identityMessage port _ _ => portExists port
  | .authTimeout port => portExists port
  | .creditMessage port _ _ => portExists port
  | .keyRenewal port => portExists port
  | .rekeyMessage port _ _ => portExists port
  | .refusalMessage port _ _ _ _ => portExists port
  | .chunkReceive port _ => portExists port
  | .sumSend _ _ _ _ => true
  | .chunkDeliver _ _ _ => true
  | .transferDeliver _ => true
  | .bucketDefRetire bucket => decide (bucket < 4096)
  | .bktDef o => ringExists o
  | .bktDel o => ringExists o
  | .bktSubst o => ringExists o
  | .postCfg o => ringExists o
  | .digestRead o => ringExists o
  | .trainCfg o => ringExists o
  | .tandemCfg o => ringExists o
  | .stepRedo o => ringExists o
  | .stepRevert o => ringExists o
  | .tandemRestore o => ringExists o
  | .updateDoneMark core _ => coreExists core
  | .tandemCopyReceive part _ _ _ _ _ => partExists part
  | .tandemAcknowledge part _ _ => partExists part
  | .reshard cmd => ringExists cmd.ring
  | .reserveSet o => ringExists o
  | .winchSend part => partExists part
  | .winchTileArrive w => portExists w.port && partExists w.part
  | .winchResend part => partExists part
  | .reshardComplete part => partExists part
  | .partCreate o => ringExists o
  | .partResize o => ringExists o
  | .partDelete o => ringExists o
  | .freeze o => ringExists o
  | .freezeComplete part => partExists part
  | .save o _ => ringExists o
  | .saveComplete part _ => partExists part
  | .thaw o => ringExists o
  | .restore o => ringExists o
  | .restoreComplete part _ => partExists part
  | .bind o => ringExists o
  | .unbind o => ringExists o
  | .envCreate o => ringExists o
  | .envBind o => ringExists o
  | .envDestroy o => ringExists o
  | .importTiles o => ringExists o
  | .lock o => ringExists o
  | .imageBind o => ringExists o
  | .attest o => ringExists o
  | .readingsWrite part _ => partExists part
  | .secEntropyFail => true
  | .ownerProvision _ _ => true
  | .floorAdvance _ => true
  | .setCertificate _ _ => true
  | .spdmRequest _ => true
  | .query fn => fnExists fn
  | .keyProg key => fnExists key.fn
  | .kSetGo fn => fnExists fn
  | .kSetStop fn => fnExists fn
  | .ideLeaveSecure fn => fnExists fn
  | .ladder o => ringExists o
  | .ladderComplete => true
  | .selftest o => ringExists o
  | .selftestComplete _ _ fails => fails.all unitExists
  | .supplyStep core _ => coreExists core
  | .coreHot core _ => coreExists core
  | .ceilingStep core _ => coreExists core
  | .coreHold core _ => coreExists core
  | .coreHoldRelease core _ => coreExists core
  | .engineGate core eng => coreExists core && decide (eng < 3)
  | .hbmCalibration stack => stackExists stack
  | .mctpControl _ _ _ => true
  | .getStartup => true
  | .wake => true
  | .reset => true
  | .mgmtLadder _ => true
  | .mgmtSelftest _ => true
  | .logRead _ _ => true
  | .counterClear => true
  | .regRead _ => true
  | .getSensorReading _ => true
  | .setEventReceiver _ => true
  | .eventResend _ => true
  | .requestUpdate => true
  | .firmwareData _ _ => true
  | .transferComplete => true
  | .verifyComplete => true
  | .activateFirmware => true
  | .swapComplete g => gondolaExists g
  | .scrubComplete _ => true
  | .hostMemoryAccessComplete _ _ => true
  | .tandemRestoreComplete part _ => partExists part
  | .stackThrottleEnd stack => stackExists stack
  | .secEntropyRecover => true
  | .eventAcknowledge _ => true

end Sys2Proof
end

