-- ==== Sys2Proof/Safety.lean ====
section
/-! DEFINITION. What counts as a safe state, and the conditions under which a command runs, in the terms the statements use. -/

namespace Sys2Proof.Machine

/-! ### Power -/

/-- Power, pins and stage: the part of the start-up state that the power order is about. -/
def Startup.power (u : Startup) : Startup :=
  { standby := u.standby, awake := u.awake, switchClosed := u.switchClosed, converters := u.converters, rails := u.rails, stage := u.stage
    thermalTrip := u.thermalTrip, currentTrip := u.currentTrip, modResetN := u.modResetN, packed := u.packed }

/-- The stages in which the main rails are up (R76). -/
def railStage (st : Byte) : Bool := decide (3 ≤ st.toNat) && decide (st.toNat ≤ 11)

/-- The power order (R38, R42, R43, R63, R76 to R79, R104, R583): each step of power has the one before it; every stage from flash to Ready
has its rails; a latched trip and MOD_RESET_N low keep the main switch open. -/
def Startup.ordered (u : Startup) : Bool :=
  (!u.awake || u.standby) && (!u.switchClosed || u.awake) && (!u.converters || u.switchClosed) && (!u.rails || u.converters)
    && (!railStage u.stage || u.rails) && (!u.switchClosed || (!u.thermalTrip && !u.currentTrip))
    && (u.modResetN || !u.awake || (u.stage == 0x0f && !u.switchClosed)) && (!u.packed || u.switchClosed)

/-- A fuse bit that is programmed stays so: `u` is `t` later (R94, R545). -/
def Fuses.grown (t u : Fuses) : Prop :=
  u.arrayOff = t.arrayOff ∧ u.grade = t.grade ∧ u.vendor = t.vendor ∧ u.serial = t.serial ∧ u.dieRev = t.dieRev ∧ u.seed = t.seed
    ∧ u.chain0 = t.chain0 ∧ (t.ownerLock = true → u.ownerLock = true ∧ u.owner = t.owner) ∧ t.floor ≤ u.floor

/-! ### Tables -/

/-- Every table of the state, and the flash, is in its canonical form. -/
def State.canonical (s : State) : Bool :=
  s.flash.wf && SMap.wf Core.blank s.cores && SMap.wf Part.blank s.parts && SMap.wf Ring.blank s.hif.rings && SMap.wf Func.blank s.hif.funcs
    && SMap.wf none s.spn.extents && SMap.wf Tile.blank s.spn.tiles && SMap.wf Port.blank s.lnk.ports && SMap.wf [] s.lnk.buckets
    && SMap.wf none s.lnk.floors && SMap.wf Gondola.blank s.gon.table && SMap.wf Reel.blank s.gon.reels && SMap.wf none s.sec.envs

/-! ### Host commands -/

/-- The state in which a ring's oldest fetched command has started (R510). -/
def State.started (s : State) (o : RingId) : State := s.setRing o (s.ring o).begin

/-- The ring exists, its oldest fetched command has this opcode and may start, and the ladder lets it through (R510, R584). -/
def State.starts (s : State) (o : RingId) (op : Nat) (ref : CmdRef) (c : BitVec 512) : Bool :=
  o.valid && decide (s.front o op = some (ref, c)) && !((s.started o).lowLadder && !(op ∈ ladderOpcodes))

/-- The two ways a started command of a ring ends: its effect where every check of its list passes, and otherwise a completion with the
status of the first check that fails. -/
def State.carriesOut (s : State) (o : RingId) (i : Instr) (ref : CmdRef) (checks : List (Bool × Nat)) (effect : State → State) : Prop :=
  (firstFail checks = none → exec i s = .next (effect (s.started o)))
    ∧ ∀ st, firstFail checks = some st → exec i s = .next ((s.started o).complete ref st)

/-- The two ways a started command that reads tiles ends, from the state `u` in which it has met the codewords of what it reads: as above, and where its
status is `met` it has read each of the poisoned slots `bad`, which the partition's POISON_READ and an event for each say (R318, R319). -/
def State.readsAndCarriesOut (s u : State) (i : Instr) (ref : CmdRef) (part met : Nat) (bad : List Nat) (checks : List (Bool × Nat))
    (effect : State → State) : Prop :=
  (firstFail checks = none → exec i s = .next (effect u))
    ∧ ∀ st, firstFail checks = some st → exec i s =
        .next ((if st = met then bad.foldl (fun t slot => t.poisonRead part slot) u else u).complete ref st)

/-! ### Cores -/

/-- Core `k` has bundle `b` next, may issue, is not due to halt, and every register, engine and line that the bundle needs is free
(R158, R161); no slot of it finds a status at issue (R196). -/
def State.issues (s : State) (k : Nat) (b : Bundle) : Bool :=
  let c := s.core k
  coreOk k && s.mayIssue k && !c.stopDue && decide (c.pc < c.bundles) && decide (decodeBundle (c.bundleAt c.pc) = some b)
    && c.bundleReady b && (s.issueFault k c b).isNone

/-- A bundle of core `k` has issued: the core is `c` with the next bundle chosen as no branch is taken, the bundle is counted for the core's
partition (R606), every other core and everything else is as it was. -/
def State.issued (s t : State) (k : Nat) (c : Core) : Prop :=
  t.core k = c.endBody c.pc 4 ∧ (∀ j, j ≠ k → t.core j = s.core j)
    ∧ t = { s with cores := t.cores, parts := (s.count (s.partOf k) 2 1).parts }

/-- A bundle whose other slots hold no operation. -/
def Bundle.onlyCtl (b : Bundle) : Prop := b.mov = .nop ∧ b.vec.op = .nop ∧ b.arr.op = .nop
def Bundle.onlyMov (b : Bundle) : Prop := b.ctl = .nop ∧ b.vec.op = .nop ∧ b.arr.op = .nop
def Bundle.onlyVec (b : Bundle) : Prop := b.ctl = .nop ∧ b.mov = .nop ∧ b.arr.op = .nop
def Bundle.onlyArr (b : Bundle) : Prop := b.ctl = .nop ∧ b.mov = .nop ∧ b.vec.op = .nop

end Sys2Proof.Machine
end

