-- ==== Sys2Proof/Certificates/Slice0/Obligations.lean ====
section
/-! DEFINITION. The statements about the module, one definition each. A state is arbitrary unless a hypothesis bounds it. -/

open Sys2Proof Sys2Proof.Machine

/-! ### The whole machine -/

/-- One step takes the command at the front of the queue and runs it on the state with the queue's rest; on an empty queue the module
idles (the model's choice, assumption 1). -/
def Obligations.StepRunsFrontCommand : Prop :=
  (∀ (s : State) (c : Instr) (rest : List Instr), s.pending = c :: rest → step s = exec c { s with pending := rest })
  ∧ ∀ s : State, s.pending = [] → step s = .next s

/-- A command runs in every state exactly where every unit it names exists; otherwise the model stops with the one fault it has, and
nothing is ever refused (the model's choice, assumption 7). -/
def Obligations.CommandsStopOnlyOnMissingUnits : Prop :=
  ∀ (i : Instr) (s : State),
    (i.wf = true → ∃ t, exec i s = .next t) ∧ (i.wf = false → exec i s = .fault .noSuchUnit)

/-- No command touches the queue: a step takes its front and leaves the rest as it was. -/
def Obligations.StepTakesOnlyTheFront : Prop :=
  ∀ s t : State, step s = .next t → t.pending = s.pending.drop 1

/-- Any queue of well-formed commands runs to its end, whatever the state: no command's data ends a run. -/
def Obligations.WellFormedQueuesRunToTheEnd : Prop :=
  ∀ s : State, (∀ i ∈ s.pending, i.wf = true) →
    ∃ t, core.run s.pending.length s = .next t ∧ t.pending = []

/-- The invariants hold at reset: the tables are in their canonical form and power is in order (nothing is powered). -/
def Obligations.ResetMeetsTheInvariants : Prop := State.reset.canonical = true ∧ State.reset.su.ordered = true

/-- Every step keeps the flash and the tables at the top of the state (cores, partitions, rings, functions, mappings, tiles, ports, buckets, floors,
gondolas, reels and envelopes) in their canonical form: keys strictly rising and no entry that reads as an absent one, so that equal contents are
equal data (the model's own form). The stores and maps inside an entry are not spoken of. -/
def Obligations.TablesStayCanonical : Prop :=
  ∀ s t : State, s.canonical = true → step s = .next t → t.canonical = true

/-- Every step keeps the power order: the main switch is closed only on a woken module with no trip latched, converters run only behind a
closed switch, rails stand only on running converters, every stage from flash to Ready has its rails, MOD_RESET_N low keeps the switch open,
and a packed module has its switch closed (R38, R42, R43, R63, R76 to R79, R104, R583). -/
def Obligations.PowerOrderKept : Prop :=
  ∀ s t : State, s.su.ordered = true → step s = .next t → t.su.ordered = true

/-- What is one-time stays: no step changes a programmed fuse, replaces a locked owner digest, lowers the security floor or changes the
identity seed and the chain of slot 0 (R94, R540, R544, R545). -/
def Obligations.FusesOnlyGrow : Prop :=
  ∀ s t : State, step s = .next t → s.fuses.grown t.fuses

/-- At reset the registers hold the values that their register maps give (R75, R325, R389, R429, R536, R537, R568, R594, R613); nothing is
powered, the queue is empty and no memory lists anything. -/
def Obligations.ResetRegisters : Prop :=
  (∀ e ∈ [(0x00004, 0x01000000), (0x00010, 0x3), (0x00054, 0x00040100), (0x2000c, 0x1f), (0x20014, 0x80000), (0x20024, 24),
          (0x3000c, 0x3f), (0x30010, 50), (0x30014, 0x1000), (0x30018, 0xffff), (0x30048, 0xffffffff), (0x4000c, 0xf),
          (0x40014, 0x40000000), (0x5000c, 0xf), (0x50018, 0x4000), (0x5001c, 0x100), (0x60004, 1), (0x6000c, 5), (0x60014, 30),
          (0x60044, 1), (0x60084, 0x40000014)],
      State.reset.pfReg e.1 = BitVec.ofNat 32 e.2)
  ∧ (∀ b < 8, State.reset.pfReg (0x10000 * b) = 0x00010000#32)
  ∧ (∀ e ∈ [0x00008, 0x0000c, 0x00014, 0x00018, 0x00040, 0x00044, 0x00048, 0x0004c, 0x00050, 0x00058, 0x10040, 0x10044, 0x10048, 0x1004c,
            0x10050, 0x10080, 0x10084, 0x20004, 0x20008, 0x20010, 0x20018, 0x2001c, 0x20020, 0x20040, 0x20044, 0x20048, 0x2004c, 0x20050,
            0x20054, 0x20058, 0x30004, 0x30008, 0x30040, 0x30044, 0x3004c, 0x30050, 0x30054, 0x30058, 0x3005c, 0x40004, 0x40008,
            0x40010, 0x40018, 0x40040, 0x4006c, 0x40080, 0x40100, 0x401fc, 0x50004, 0x50008, 0x50010, 0x50014, 0x50020, 0x50024, 0x50028,
            0x5002c, 0x50040, 0x50044, 0x50048, 0x5004c, 0x50050, 0x50054, 0x60008, 0x60018, 0x6001c, 0x60020, 0x60024, 0x60028, 0x6002c,
            0x60040, 0x60080, 0x70004, 0x70008, 0x7000c, 0x70010, 0x70040, 0x70044, 0x70048, 0x7004c, 0x70050, 0x70100, 0x7013c],
      State.reset.pfReg e = 0#32)
  ∧ State.reset.pending = [] ∧ State.reset.flash = [] ∧ State.reset.cores = [] ∧ State.reset.spn.tiles = [] ∧ State.reset.su.standby = false
  ∧ State.reset.su.rails = false

/-! ### What every command goes through -/

/-- A logged condition (R607 to R611): the newest entry carries the next number, the wake count, the class, the partition, the status and the
words; the log keeps 1,024 entries and its non-volatile part the newest 256 of classes Degradation and Fatal; an entry of class Fault or
above goes to the event receiver if one is set; nothing else changes but the model's free count. -/
def Obligations.ConditionsAreLogged : Prop :=
  ∀ (s : State) (e : Ev) (cls : Nat), ∃ le : LogEntry,
    le.number = s.mgt.logNext ∧ le.wake = s.mgt.wakes ∧ le.cls = BitVec.ofNat 8 cls ∧ le.part = partByte e.part
    ∧ le.status = BitVec.ofNat 16 e.status ∧ le.detail = detailOf e.words
    ∧ s.log e cls = { s with
        mgt := { s.mgt with
          log := le :: s.mgt.log.take 1023
          nvLog := if cls = 3 ∨ cls = 5 then le :: s.mgt.nvLog.take 255 else s.mgt.nvLog
          logNext := s.mgt.logNext + 1
          unacked := if 2 ≤ cls ∧ s.mgt.receiver.isSome = true then s.mgt.unacked ++ [(s.mgt.logNext, 1)] else s.mgt.unacked }
        free := s.free + 1
        outbox := if 2 ≤ cls ∧ s.mgt.receiver.isSome = true then .pldmEvent le :: s.outbox else s.outbox }

/-- A command that completes while its ring is still enabled as it was when the command was fetched, may post, and has nothing waiting, gets
one kind 1 entry at the completion tail with the phase bit of the present pass (R509, R510, R513, R515); if the ring has been disabled
since, it gets none. -/
def Obligations.CompletionEntryWritten : Prop :=
  ∀ (s : State) (ref : CmdRef) (status result : Nat),
    SMap.wf Ring.blank s.hif.rings = true → s.canPost ref.ring.fn = true → (s.ring ref.ring).enable = true → (s.ring ref.ring).waiting = [] →
    ((s.ring ref.ring).epoch = ref.epoch →
      let r := s.ring ref.ring
      let t := s.complete ref status result
      let e : CplEntry := { kind := 1, phase := r.phase, status := BitVec.ofNat 16 status, tag := ref.tag, part := ref.part
                            opcode := ref.opcode, detail := BitVec.ofNat 384 (result % 2 ^ 64) }
      (t.ring ref.ring).entries = r.entries ++ [e]
      ∧ (t.ring ref.ring).running = r.running.erase ref.epoch
      ∧ (t.ring ref.ring).waiting = []
      ∧ (t.ring ref.ring).cplTail.toNat = (if r.cplTail.toNat + 1 = r.size then 0 else (r.cplTail.toNat + 1) % 65536)
      ∧ (t.ring ref.ring).phase = (if r.cplTail.toNat + 1 = r.size then !r.phase else r.phase)
      ∧ Out.cplWrite ref.ring.fn ref.ring.ring r.cplTail.toNat e ∈ t.outbox
      ∧ (∀ q : RingId, q.key ≠ ref.ring.key → t.ring q = s.ring q))
    ∧ ((s.ring ref.ring).epoch ≠ ref.epoch →
        (s.complete ref status result).outbox = s.outbox
        ∧ ((s.complete ref status result).ring ref.ring).entries = (s.ring ref.ring).entries)

/-! ### Input, power and start-up -/

/-- Power comes up in order (R61, R77 to R79, R42): the standby converter, the controller, the main switch, the converters, the rails. PWRFAIL_N is
released once the input is seen within the cut-offs, and the levels of SMB_ALERT_N, WAKE_N and CLKREQ_N are free (the model's choices, assumptions 11, 82
and 96). The switch does not close outside 53.0 to 65.0 V, with a trip latched, in reset, or with a MATE_OK contact open (R38, R43, R78). -/
def Obligations.PowerComesUp : Prop :=
  ∀ s : State,
    (∀ cv : W16, s.su.standby = false → 4000 ≤ cv.toNat →
      exec (.standbyOn cv) s = .next { s with su := { s.su with
        standby := true, volts := cv, pwrfailN := s.su.pwrfailN || (decide (5100 ≤ cv.toNat) && decide (cv.toNat ≤ 6600)) } })
    ∧ (∀ site board : BitVec 3, s.su.standby = true → s.su.awake = false →
      exec (.managementWake site board) s = .next { s with
        su := { s.su with
          awake := true, site, board, stage := if s.su.modResetN then 0x01 else 0x0f, status := 0, smbAlertN := Config.pinLevel s.free 2 }
        mgt := { log := s.mgt.nvLog, nvLog := s.mgt.nvLog, logNext := s.mgt.logNext, wakes := s.mgt.wakes + 1 }
        free := s.free + 1 })
    ∧ (∀ cv : W16, s.su.awake = true → s.su.stage = 0x01 → s.su.modResetN = true → s.su.thermalTrip = false → s.su.currentTrip = false →
        s.su.switchClosed = false → s.su.packed = false → 5300 ≤ cv.toNat → cv.toNat ≤ 6500 →
        exec (.mainSwitchClose cv true) s = .next { s with
          su := { s.su with switchClosed := true, mated := true, volts := cv, pwrfailN := true, stage := 0x02, stageShown := none } })
    ∧ (∀ cv bulk : W16, s.su.stage = 0x02 → s.su.switchClosed = true → s.su.converters = false →
        cv.toNat ≤ bulk.toNat + 100 → bulk.toNat ≤ cv.toNat + 100 →
        exec (.mainConvertersStart cv bulk) s = .next { s with su := { s.su with
          converters := true, volts := cv, pwrfailN := s.su.pwrfailN || (decide (5100 ≤ cv.toNat) && decide (cv.toNat ≤ 6600)) } })
    ∧ (s.su.stage = 0x02 → s.su.converters = true →
        exec .railsSettled s = .next { s with
          su := { s.su with
            rails := true, hxRail := true, wakeN := Config.pinLevel s.free 0, clkreqN := Config.pinLevel s.free 1
            tries := candidates s.flash, flashBusy := s.su.flashHoldN, stage := if s.su.flashHoldN then 0x03 else 0x04, stageShown := none }
          free := s.free + 1 })
    ∧ (s.su.stage = 0x02 → s.su.converters = true → exec .railSettleTimeout s = .next (State.halt
        (if Config.hostRail s.free then { s with
          su := { s.su with hxRail := true, wakeN := Config.pinLevel (s.free + 1) 0, clkreqN := Config.pinLevel (s.free + 1) 1 }
          free := s.free + 2 } else { s with free := s.free + 1 }) 0x0701))
    ∧ (∀ (cv : W16) (mated : Bool),
        (cv.toNat < 5300 ∨ 6500 < cv.toNat ∨ mated = false ∨ s.su.thermalTrip = true ∨ s.su.currentTrip = true ∨ s.su.modResetN = false) →
        exec (.mainSwitchClose cv mated) s = .next (if s.su.awake then { s with su := { s.su with
          volts := cv, pwrfailN := s.su.pwrfailN || (decide (5100 ≤ cv.toNat) && decide (cv.toNat ≤ 6600)) } } else s))

/-- A loss of the main rails keeps the controller, the fuses, the flash and the security block's stored certificate chain, and nothing of the blocks
behind the rails (R104, R105, R545). -/
def Obligations.LostRailsLoseTheBlocks : Prop :=
  ∀ s : State,
    let t := s.dark
    t.pending = s.pending ∧ t.fuses = s.fuses ∧ t.flash = s.flash ∧ t.cores = [] ∧ t.mesh = [] ∧ t.parts = [] ∧ t.hif = {} ∧ t.spn = {}
    ∧ t.lnk = {} ∧ t.gon = {} ∧ t.pwr = {} ∧ t.sec = { chain1 := s.sec.chain1 } ∧ t.mgt = { s.mgt with update := none }
    ∧ t.free = s.free ∧ t.outbox = s.outbox
    ∧ t.su.switchClosed = false ∧ t.su.converters = false ∧ t.su.rails = false ∧ t.su.packed = false ∧ t.su.image = []
    ∧ t.su.standby = s.su.standby ∧ t.su.awake = s.su.awake ∧ t.su.stage = s.su.stage ∧ t.su.volts = s.su.volts ∧ t.su.mated = s.su.mated
    ∧ t.su.site = s.su.site ∧ t.su.board = s.su.board ∧ t.su.thermalTrip = s.su.thermalTrip ∧ t.su.currentTrip = s.su.currentTrip
    ∧ t.su.modResetN = s.su.modResetN ∧ t.su.perstN = s.su.perstN ∧ t.su.flashHoldN = s.su.flashHoldN

/-- Power goes down (R38, R40, R41, R43, R47, R104, R105): the thresholds, what each leaves of the module, the stage and the status. By the model's
choice (assumption 11) a cut-off is logged and recorded whether or not another came before it, leaves STAGE and STATUS as they are in 0x0e and 0x0f, and
THERM_N and PWRFAIL_N are released as stated. The stage that a break of MATE_OK shows is any of the stages (assumption 8). -/
def Obligations.PowerGoesDown : Prop :=
  ∀ (s : State) (cv : W16),
    (s.su.standby = true → cv.toNat < 3800 →
      ∃ t, exec (.standbyOff cv) s = .next t
        ∧ t.su.standby = false ∧ t.su.awake = false ∧ t.su.rails = false ∧ t.su.volts = cv ∧ t.su.stage = 0x01 ∧ t.su.status = 0
        ∧ t.su.thermalTrip = false ∧ t.su.currentTrip = false ∧ t.su.thermN = true ∧ t.su.pwrfailN = true ∧ t.su.smbAlertN = true
        ∧ t.cores = [] ∧ t.parts = [] ∧ t.mgt = { log := s.mgt.nvLog, nvLog := s.mgt.nvLog, logNext := s.mgt.logNext, wakes := s.mgt.wakes }
        ∧ t.fuses = s.fuses ∧ t.flash = s.flash)
    ∧ (s.su.awake = true → ∀ i st, (i = .mainCutOff cv ∧ st = 0x0806 ∧ cv.toNat < 5100) ∨ (i = .overvoltageCutOff cv ∧ st = 0x0807 ∧ 6600 < cv.toNat) →
        let d := if s.su.switchClosed then s.dark else s
        (s.su.stage ≠ 0x0e → s.su.stage ≠ 0x0f → exec i s = .next (State.log { d with su := { d.su with
            pwrfailN := false, volts := cv, stage := 0x01, stageShown := none, status := BitVec.ofNat 16 st } } { status := st } 2))
        ∧ (s.su.stage = 0x0e ∨ s.su.stage = 0x0f → exec i s = .next (State.log { d with su := { d.su with
            pwrfailN := false, volts := cv } } { status := st } 2)))
    ∧ (s.su.awake = true → 5100 ≤ cv.toNat → cv.toNat < 5400 →
      let t := { s with su := { s.su with volts := cv, pwrfailN := true } }
      (s.su.switchClosed = true → ∃ st : Nat, exec (.inputRangeLow cv) s = .next (t.log { status := st } (classOf st)))
      ∧ (s.su.switchClosed = false → exec (.inputRangeLow cv) s = .next t))
    ∧ (s.su.mated = true → s.su.switchClosed = true → s.su.stage ≠ 0x0e → ∃ shown ∈ stages,
      exec .mateOkBreak s = .next { s.dark with
        su := { s.dark.su with mated := false, stage := 0x01, stageShown := some shown }, free := s.free + 1 })
    ∧ (s.su.mated = true → s.su.switchClosed = true → s.su.stage = 0x0e →
      exec .mateOkBreak s = .next { s.dark with su := { s.dark.su with mated := false } })
    ∧ (s.su.mated = true → s.su.switchClosed = false → exec .mateOkBreak s = .next { s with su := { s.su with mated := false } })

/-- A thermal or an overcurrent trip opens the main switch, latches, and halts the module with 0x0702 (R38, R43, R104, R106); a halted module
shows stage 0x0e and its status, lets its link lanes go, ends a start-up read of the flash but no firmware update, and logs the status as Fatal (R59, R76,
R106, R601, R610). -/
def Obligations.TripsHaltAndLatch : Prop :=
  (∀ (s : State) (st : Nat), s.halt st =
    ({ s with su := { s.su with stage := 0x0e, status := BitVec.ofNat 16 st, linksDriven := false, flashBusy := s.su.flashBusy && s.mgt.update.isSome } }).log
      { status := st } 5)
  ∧ ∀ s : State, s.su.switchClosed = true →
    (∀ (core : Nat) (temp : Byte), core < 256 → 115 ≤ temp.toNat →
      ∃ t, exec (.thermalTrip core temp) s = .next t
        ∧ t = { s.dark.halt 0x0702 with su := { (s.dark.halt 0x0702).su with thermalTrip := true, thermN := false } }
        ∧ t.su.stage = 0x0e ∧ t.su.status = 0x0702 ∧ t.su.switchClosed = false ∧ t.cores = [])
    ∧ (∃ t, exec .overcurrentTripSlow s = .next t ∧ exec .overcurrentTripFast s = .next t
        ∧ t = { s.dark.halt 0x0702 with su := { (s.dark.halt 0x0702).su with currentTrip := true } }
        ∧ t.su.stage = 0x0e ∧ t.su.status = 0x0702 ∧ t.su.switchClosed = false ∧ t.cores = [])

/-- The pins (R38, R43, R56, R60, R63, R80, R93, R104): MOD_RESET_N, PERST_N and FLASH_HOLD_N. The bits that a reset of a function clears are
assumption 9 (PRESUMED), the release of THERM_N is assumption 11, the status of a lost host link is assumption 12 (a free value), and STATUS cleared as
MOD_RESET_N falls is assumption 13: choices of the model. -/
def Obligations.PinsAct : Prop :=
  ∀ s : State,
    (s.su.modResetN = true → s.su.awake = true →
      exec .modResetFall s = .next { s.dark with su := { s.dark.su with modResetN := false, stage := 0x0f, status := 0 } })
    ∧ (∀ lowUs : W32, s.su.modResetN = false → s.su.awake = true →
      exec (.modResetRise lowUs) s = .next { s with su := { s.su with
        modResetN := true, stage := 0x01
        thermalTrip := if 1000 ≤ lowUs.toNat then false else s.su.thermalTrip
        currentTrip := if 1000 ≤ lowUs.toNat then false else s.su.currentTrip
        thermN := if 1000 ≤ lowUs.toNat then true else s.su.thermN } })
    ∧ exec .perstRelease s = .next { s with su := { s.su with perstN := true } }
    ∧ (let u : State := { s with
          su := { s.su with perstN := false }
          hif := { s.hif with funcs := SMap.mapVals Func.blank (fun _ f => f.pcieReset) s.hif.funcs } }
      (s.hif.linkUp = false → exec .perstAssert s = .next u)
      ∧ (s.hif.linkUp = true → exec .perstAssert s = .next
          (({ u with hif := { u.hif with linkUp := false, speed := 0, width := 0, flit := false } } : State).hifEvent 0 { status := unlistedCode 1 }))
      ∧ ∀ e ∈ u.hif.funcs, e.2.busMaster = false ∧ e.2.msixEnable = false)
    ∧ (s.su.stage = 0x03 → s.su.flashBusy = false →
        exec .flashHoldAssert s = .next { s with su := { s.su with flashHoldN := false, stage := 0x04, stageShown := none } })
    ∧ (s.su.stage ≠ 0x03 ∨ s.su.flashBusy = true →
        exec .flashHoldAssert s = .next { s with su := { s.su with flashHoldN := false } })
    ∧ (s.su.stage = 0x04 →
        exec .flashHoldRelease s = .next { s with su := { s.su with
          flashHoldN := true, flashBusy := true, stage := 0x03, stageShown := none } })
    ∧ (s.su.stage ≠ 0x04 → exec .flashHoldRelease s = .next { s with su := { s.su with
          flashHoldN := true, flashBusy := s.su.flashBusy || s.mgt.update.isSome } })

/-- The image stages (R82 to R93): a read slot is taken if every check passes and otherwise the next candidate is tried, in stage 0x03 or, while the
carrier holds the flash, in stage 0x04, or start-up halts; the fuse map brings the security block up, with its identity and sealing keys, and the
arrays are published, or it halts with 0x0604 or 0x0605 (R6, R94, R95, R540). A fuse map is consistent exactly where its grade is
programmed, it disables at most the arrays the grade may lack, and no core has both arrays disabled (R3, R4, R95). That a hold takes effect before the
next candidate's read and waits in 0x04 is the model's choice (assumption 13), and the keys as free functions of the seed are assumption 53. -/
def Obligations.ImageAndFuseStages : Prop :=
  ∀ s : State,
    (∀ slot rest, s.su.flashBusy = true → s.su.rails = true → s.su.stage = 0x03 → s.su.tries = slot :: rest →
      exec (.flashReadComplete false) s = .next (s.slotFailed 0x0801)
      ∧ exec (.flashReadComplete true) s = .next (
        let img := slotImage s.flash slot
        match imageFault s.fuses img with
        | none => { s with su := { s.su with
            slot, image := img.slice 0 (img.readNat 8 4), imageLen := img.readNat 8 4, flashBusy := false, tries := []
            owner := ownerFlag img && (sectionOf img 0x10).isSome, stage := 0x06, stageShown := none } }
        | some st => s.slotFailed st))
    ∧ (∀ ok, s.su.flashBusy = true → s.su.rails = true → s.su.stage = 0x03 → s.su.tries = [] →
        exec (.flashReadComplete ok) s = .next (s.halt (if ok then 0x0802 else 0x0801)))
    ∧ (∀ st slot, s.su.tries = [slot] → s.slotFailed st = s.halt st)
    ∧ (∀ (st : Nat) (slot r : Bool) (rest : List Bool), s.su.tries = slot :: r :: rest → ∃ u : State,
        u = ({ s with su := { s.su with tries := r :: rest } }).log { status := st } 2
        ∧ s.slotFailed st = { u with su := { u.su with
            flashBusy := s.su.flashHoldN, stage := if s.su.flashHoldN then 0x03 else 0x04, stageShown := none } })
    ∧ (s.su.stage = 0x06 → exec (.fuseMapRead false) s = .next (s.halt 0x0604))
    ∧ (s.su.stage = 0x06 → s.fuses.consistent = false → exec (.fuseMapRead true) s = .next (s.halt 0x0605))
    ∧ (s.su.stage = 0x06 → s.fuses.consistent = true →
        exec (.fuseMapRead true) s = .next { s with
          su := { s.su with stage := 0x07, stageShown := none, published := some (512 - popCount s.arraysOff, s.arraysOff) }
          sec := { s.sec with
            ready := true, drbgOk := true, identity := some (privateKey (Config.identityKey s.fuses.seed).toNat)
            sealing := some (Config.sealingKey s.fuses.seed) }
          outbox := .arrays (512 - popCount s.arraysOff) s.arraysOff :: s.outbox })
    ∧ (s.fuses.consistent = true ↔
        s.fuses.grade ≠ 0 ∧ popCount s.fuses.arrayOff ≤ 32 * (s.fuses.grade.toNat - 1)
          ∧ ∀ k < 256, ¬(bit s.fuses.arrayOff (2 * k) = true ∧ bit s.fuses.arrayOff (2 * k + 1) = true))

/-- Start-up self-test (R96, R97): no failing unit leads to the memory stage; a failing array is disabled and both arrays of a core withhold its
kite; a vector engine, a core store or an instruction store withholds its kite; a link port is held with 0x0702; a router, a tether, the span
controller, the security block or the host interface halts the module with 0x0701. After any failure the arrays are published again and the module is
degraded; too few arrays for the grade leave 0x0703. An array that is disabled is not tested (R586). -/
def Obligations.StartupSelfTest : Prop :=
  ∀ s : State, s.su.stage = 0x07 →
    let full := (s.siteConfig.map fun m => m.byte 2 == 1).getD false
    let v := { s with su := { s.su with fullTest := full } }
    let short := fun (u : State) => decide (popCount u.arraysOff > (gradeSpare s.fuses.grade).getD 0)
    (short s = false →
      exec (.startupSelfTestComplete []) s = .next { v with su := { v.su with belowGrade := false, stage := 0x08, stageShown := none } })
    ∧ (short s = true → ∃ t, exec (.startupSelfTestComplete []) s = .next t
        ∧ t.su = { v.su with belowGrade := true, stage := 0x08, stageShown := none, status := 0x0703 })
    ∧ (∀ fails, fails.all TestUnit.valid = true → fails.all s.testable = true → fails.any TestUnit.moduleWide = true →
        exec (.startupSelfTestComplete fails) s = .next (v.halt 0x0701))
    ∧ (∀ fails, fails.all TestUnit.valid = true → fails.all s.testable = true → fails.any TestUnit.moduleWide = false → fails ≠ [] →
        ∃ t, exec (.startupSelfTestComplete fails) s = .next t ∧ t.su.stage = 0x08 ∧ t.su.degraded = true ∧ t.su.fullTest = full
          ∧ t.su.published = some (512 - popCount t.arraysOff, t.arraysOff) ∧ t.su.belowGrade = short t
          ∧ t.su.status = (if short t then 0x0703 else 0x0702) ∧ t.fuses = s.fuses)
    ∧ (∀ u ∈ [TestUnit.spanCtl, .security, .hostIf],
        exec (.startupSelfTestComplete [u]) s = .next (v.halt 0x0701))
    ∧ (∀ k < 256, exec (.startupSelfTestComplete [.router k]) s = .next (v.halt 0x0701))
    ∧ (∀ n < 32, exec (.startupSelfTestComplete [.tether n]) s = .next (v.halt 0x0701))
    ∧ (∀ k < 256, ∀ u ∈ [TestUnit.vector k, .coreStore k, .instrStore k],
        ∃ t, exec (.startupSelfTestComplete [u]) s = .next t ∧ t.su.stage = 0x08 ∧ t.su.degraded = true
          ∧ t.su.withheld = setBit s.su.withheld (k / 8) ∧ t.su.testedOff = s.su.testedOff)
    ∧ (∀ k j, k < 256 → j < 2 → bit s.arraysOff (2 * k + j) = false →
        ∃ t, exec (.startupSelfTestComplete [.array k j]) s = .next t ∧ t.su.stage = 0x08 ∧ t.su.degraded = true
          ∧ t.su.testedOff = setBit s.su.testedOff (2 * k + j)
          ∧ (bothOff t.arraysOff k = true → t.su.withheld = setBit s.su.withheld (k / 8))
          ∧ (bothOff t.arraysOff k = false → t.su.withheld = s.su.withheld))
    ∧ (∀ p < 18, SMap.wf Port.blank s.lnk.ports = true →
        ∃ t, exec (.startupSelfTestComplete [.link p]) s = .next t ∧ t.su.stage = 0x08 ∧ t.su.degraded = true
          ∧ t.su.withheld = s.su.withheld ∧ t.port p = { s.port p with testHold := true, st := .held, status := 0x0702 }
          ∧ (∀ q, q ≠ p → t.port q = s.port q))

/-- The memory and link stages (R99 to R103): a failing stack or ballast is retried once and then halts start-up with 0x0301 or 0x0302; trained tiers
are zero and the channel hash key is a fresh free value (R313); the link stage ends with every port settled, or after its time. Start-up then ends in
Ready: the gondola table is initialised and the VFs are enabled, and a default partition table that is not valid leaves status 0x0201 and no
partition. -/
def Obligations.MemoryAndLinkStages : Prop :=
  ∀ s : State,
    (∀ k < 12, s.su.stage = 0x08 → s.su.retriedStacks.contains k = false → ∀ b : Bool,
      exec (.memoryStageComplete (some k) b) s = .next { s with su := { s.su with retriedStacks := k :: s.su.retriedStacks } })
    ∧ (∀ k < 12, s.su.stage = 0x08 → s.su.retriedStacks.contains k = true → ∀ b : Bool,
      exec (.memoryStageComplete (some k) b) s = .next (s.halt 0x0301))
    ∧ (s.su.stage = 0x08 → s.su.retriedBallast = false →
      exec (.memoryStageComplete none true) s = .next { s with su := { s.su with retriedBallast := true } })
    ∧ (s.su.stage = 0x08 → s.su.retriedBallast = true → exec (.memoryStageComplete none true) s = .next (s.halt 0x0302))
    ∧ (s.su.stage = 0x08 → ∃ t, exec (.memoryStageComplete none false) s = .next t
        ∧ t.su = { s.su with linksDriven := true, stage := 0x09, stageShown := none } ∧ t.spn = { s.spn with ready := true, tiles := [], hashKey := (Config.freshKey s.free).truncate 128 } ∧ t.free = s.free + 1)
    ∧ (s.su.stage = 0x09 → (∀ p < 18, (s.port p).settled = true) → exec .linkStageEnd s = .next s.finishStartup)
    ∧ (s.su.stage = 0x09 → ∃ u : State, exec .linkStageTimeout s = .next u.finishStartup
        ∧ u = { s with lnk := { s.lnk with ports := u.lnk.ports } }
        ∧ (SMap.wf Port.blank s.lnk.ports = true → ∀ p < 18,
            u.port p = if (s.port p).settled = true then s.port p else { s.port p with wasAway := true }))
    ∧ s.finishStartup.su.stage = 0x0b ∧ s.finishStartup.gon = { s.gon with ready := true } ∧ s.finishStartup.hif.vfsEnabled = true
    ∧ (tableValid s.defaultTable = false →
        s.finishStartup.su.status = 0x0201 ∧ s.finishStartup.parts = s.parts ∧ s.finishStartup.cores = s.cores)

/-! ### The host link, the functions and the rings -/

/-- The host link and the functions (R55, R80, R106, R507, R518, R536): configuration access, which shows the start-up word, the trained link, its
loss, function-level reset, bus mastering and MSI-X; a message masked or without bus mastering is held pending, and one that may go is sent. A
configuration write does nothing while its function is held in reset, off its link or not enabled (R56). The bits that a function-level reset clears
are assumption 9 (PRESUMED), a message held pending without bus mastering is assumption 18 (DEDUCED), and that virtual functions answer after a
run-time halt is assumption 97: the model's own. -/
def Obligations.HostLinkAndFunctions : Prop :=
  ∀ s : State,
    (∀ fn ≤ 32, s.configReach fn = true →
      exec (.configRequest fn .read) s = .next (s.emit (.config fn s.startupWord))
      ∧ (∀ on : Bool, exec (.configRequest fn (.msixEnable on)) s = .next ((s.setFunc fn { s.func fn with
            msixEnable := on, pendingVec := if on then (s.func fn).pendingVec else 0 }).emit (.config fn s.startupWord)))
      ∧ (∀ vec, vec < (if fn = 0 then 17 else 4) → exec (.configRequest fn (.msixMask vec)) s =
            .next ((s.setFunc fn { s.func fn with masked := setBit (s.func fn).masked vec }).emit (.config fn s.startupWord))))
    ∧ (∀ (speed : BitVec 4) (width : BitVec 3) (flit : Bool), s.su.hxRail = true → s.su.perstN = true → s.hif.linkUp = false →
        1 ≤ speed.toNat → speed.toNat ≤ 7 → width = 1 ∨ width = 2 ∨ width = 4 →
        exec (.hostLinkActive speed width flit) s = .next
          ((List.range 33).foldl State.resume { s with hif := { s.hif with linkUp := true, speed, width, flit } }))
    ∧ (s.hif.linkUp = true → ∃ st, exec .hostLinkDown s = .next
        (({ s with hif := { s.hif with linkUp := false, speed := 0, width := 0, flit := false } }).hifEvent 0 { status := st }))
    ∧ (s.hif.linkUp = false → exec .hostLinkDown s = .next s)
    ∧ (∀ fn, s.configReach fn = true ↔ s.hif.linkUp = true ∧ s.su.perstN = true ∧ (fn = 0 ∨ s.hif.vfsEnabled = true))
    ∧ (∀ fn ≤ 32, s.configReach fn = false →
        (∀ op, (∀ vec, op = .msixMask vec → vec < (if fn = 0 then 17 else 4)) → exec (.configRequest fn op) s = .next s)
        ∧ exec (.functionLevelReset fn) s = .next s ∧ exec (.busMasterDisable fn) s = .next s ∧ exec (.busMasterEnable fn) s = .next s
        ∧ ∀ vec, vec < (if fn = 0 then 17 else 4) → exec (.msixUnmask fn vec) s = .next s)
    ∧ (∀ fn ≤ 32, s.configReach fn = true →
        exec (.functionLevelReset fn) s = .next (s.setFunc fn { s.func fn with
          busMaster := false, msixEnable := false, masked := 0xffffffff, pendingVec := 0 })
        ∧ exec (.busMasterDisable fn) s = .next (s.setFunc fn { s.func fn with busMaster := false })
        ∧ exec (.busMasterEnable fn) s = .next ((s.setFunc fn { s.func fn with busMaster := true }).resume fn))
    ∧ (∀ fn vec, fn ≤ 32 → s.configReach fn = true → vec < (if fn = 0 then 17 else 4) → SMap.wf Func.blank s.hif.funcs = true →
        exec (.msixUnmask fn vec) s = .next (
          let f := { s.func fn with masked := clearBit (s.func fn).masked vec }
          if f.msixEnable = true ∧ bit f.pendingVec vec = true ∧ bit f.masked vec = false ∧ s.canPost fn = true then
            ((s.setFunc fn f).setFunc fn { f with pendingVec := clearBit f.pendingVec vec }).emit (.msix fn vec)
          else s.setFunc fn f))
    ∧ (∀ fn vec, (s.func fn).msixEnable = true → bit (s.func fn).masked vec = false → s.canPost fn = true →
        s.fire fn vec = s.emit (.msix fn vec))
    ∧ (∀ fn vec, (s.func fn).msixEnable = true → bit (s.func fn).masked vec = true ∨ s.canPost fn = false →
        s.fire fn vec = s.setFunc fn { s.func fn with pendingVec := setBit (s.func fn).pendingVec vec })
    ∧ (∀ fn vec, (s.func fn).msixEnable = false → s.fire fn vec = s)

/-- The doorbells (R510, R513, R517): a tail or a head within an enabled ring is taken, and returned completion entries leave it; a disabled ring
and an index outside the ring discard the write. -/
def Obligations.DoorbellsMoveRings : Prop :=
  ∀ (s : State) (o : RingId) (value : W32), o.valid = true →
    (s.hostReach o.fn = true → (s.ring o).enable = true → value.toNat % 65536 < (s.ring o).size →
      exec (.hifDbCmd o value) s = .next (s.setRing o { s.ring o with cmdTail := bits value 0 16 })
      ∧ exec (.hifDbCpl o value) s = .next ((s.setRing o { s.ring o with
          cplHead := bits value 0 16
          entries := (s.ring o).entries.drop
            ((value.toNat % 65536 + (s.ring o).size - (s.ring o).cplHead.toNat) % (s.ring o).size) }).settle o))
    ∧ (s.hostReach o.fn = false ∨ (s.ring o).enable = false ∨ (s.ring o).size ≤ value.toNat % 65536 →
        exec (.hifDbCmd o value) s = .next s ∧ exec (.hifDbCpl o value) s = .next s)

/-- Enabling a ring pair sets its command head and its completion tail to 0 and its phase bit to 1; disabling one stops its fetching and discards the
completions of its commands, never the commands (R509). That enabling sets the command tail and the completion head to 0 too, and that both empty the
completion ring, is the model's inference (assumption 102). LOG2 takes effect with the enabling only (R509, R536). -/
def Obligations.RingsEnableAndDisable : Prop :=
  ∀ (s : State) (fn : Nat) (value : W32), fn ≤ 32 → s.hostReach fn = true →
    let o := s.selected fn
    let r := s.ring o
    (bit value 31 = true → r.enable = false →
      exec (.ringEnable fn value) s = .next ((s.setRing o { r with
        coalCnt := bits value 8 8, coalUs := bits value 0 8, log2 := bits value 16 5, enable := true, cmdHead := 0, cmdTail := 0
        cplHead := 0, cplTail := 0, phase := true, entries := [], unsignalled := 0, epoch := r.epoch + 1 }).settle o))
    ∧ (bit value 31 = true → r.enable = true →
        exec (.ringEnable fn value) s = .next (s.setRing o { r with coalCnt := bits value 8 8, coalUs := bits value 0 8 }))
    ∧ (bit value 31 = false → r.enable = true →
        exec (.ringDisable fn value) s = .next (s.setRing o { r with
          coalCnt := bits value 8 8, coalUs := bits value 0 8, enable := false, entries := [], unsignalled := 0, epoch := r.epoch + 1
          waiting := r.waiting.filter fun e => e.kind ≠ 1 }))
    ∧ (bit value 31 = false → r.enable = false →
        exec (.ringDisable fn value) s = .next (s.setRing o { r with
          coalCnt := bits value 8 8, coalUs := bits value 0 8, log2 := bits value 16 5 }))

/-- A command is fetched only while a completion entry is free for it, and waits its turn (R510); an unknown opcode or a non-zero reserved header
field completes with 0x0101, and a command that a VF's ring does not accept with 0x0103 (R511, R512). -/
def Obligations.CommandsAreFetched : Prop :=
  ∀ (s : State) (o : RingId) (cmd : BitVec 512), o.valid = true →
    let r := s.ring o
    let head := if r.cmdHead.toNat + 1 = r.size then 0 else r.cmdHead + 1
    (s.canPost o.fn = true → r.enable = true → r.cmdHead ≠ r.cmdTail → r.room = true →
      (cmdOp cmd ∈ opcodes → headerBad cmd = false → vfRefuses o.fn cmd = false →
        exec (.commandFetch o cmd) s = .next (s.setRing o { r with cmdHead := head, fetched := r.fetched ++ [(r.epoch, cmd)] }))
      ∧ (cmdOp cmd ∉ opcodes ∨ headerBad cmd = true → r.fetched = [] → bit cmd 8 = false ∨ r.running = [] →
        exec (.commandFetch o cmd) s = .next
          ((s.setRing o { r with cmdHead := head, running := r.epoch :: r.running }).complete (cmdRef o r.epoch cmd) 0x0101))
      ∧ (cmdOp cmd ∈ opcodes → headerBad cmd = false → vfRefuses o.fn cmd = true → r.fetched = [] → bit cmd 8 = false ∨ r.running = [] →
        exec (.commandFetch o cmd) s = .next
          ((s.setRing o { r with cmdHead := head, running := r.epoch :: r.running }).complete (cmdRef o r.epoch cmd) 0x0103)))
    ∧ (s.canPost o.fn = false ∨ r.enable = false ∨ r.cmdHead = r.cmdTail ∨ r.room = false → exec (.commandFetch o cmd) s = .next s)
    ∧ (r.enable = true → r.coalUs ≠ 0 → 0 < r.unsignalled →
        exec (.coalesceTimerExpiry o) s = .next ((s.setRing o { r with unsignalled := 0 }).fire o.fn o.vector))

/-- The rows of the host commands with their opcodes. -/
def hostRows (segs : List (W64 × W64)) (errs : List (Nat × CodeErrs)) : List ((RingId → Instr) × Nat) :=
  [(.hostIn, 0x08), (.hostOut, 0x09), (.load, 0x10), (.abort, 0x11), (.stopNow, 0x12), (.partCreate, 0x18), (.partResize, 0x19),
   (.partDelete, 0x1a), (.freeze, 0x20), (fun o => .save o segs, 0x21), (.thaw, 0x22), (.restore, 0x23), (.map, 0x30), (.unmap, 0x31),
   (fun o => .mode ⟨o, errs⟩, 0x32), (fun o => .hint ⟨o, errs⟩, 0x33), (.scrub, 0x34), (.rehome, 0x35),
   (fun o => .seqOpen ⟨o, errs⟩, 0x38), (.seqClose, 0x39), (fun o => .moor ⟨o, errs⟩, 0x40), (fun o => .swap ⟨o, errs⟩, 0x41),
   (.evict, 0x42), (.revoke, 0x43), (.baseSet, 0x44), (.reelOpen, 0x45), (.reelClose, 0x46), (.feed, 0x47), (.batchCfg, 0x48),
   (.bktDef, 0x50), (.bktDel, 0x51), (.bktSubst, 0x52), (.postCfg, 0x53), (.digestRead, 0x54), (.trainCfg, 0x58), (.tandemCfg, 0x59),
   (.stepRedo, 0x5a), (.stepRevert, 0x5b), (.tandemRestore, 0x5c), (fun o => .reshard ⟨o, errs⟩, 0x5d), (.reserveSet, 0x5e), (.bind, 0x60),
   (.unbind, 0x61), (.envCreate, 0x62), (.envBind, 0x63), (.envDestroy, 0x64), (.importTiles, 0x65), (.lock, 0x66),
   (.imageBind, 0x67), (.attest, 0x68), (.ladder, 0x70), (.selftest, 0x71)]

/-- Every host command but LADDER, SELFTEST and ATTEST completes with 0x0711 in Grounded and Folded, and on the way there (R584); a command's
row does nothing while the command is not the one its ring starts next: another is, or its fence holds it (R510; that nothing happens is the
model's choice, assumption 6). -/
def Obligations.LowLadderTurnsCommandsAway : Prop :=
  ∀ (s : State) (o : RingId) (segs : List (W64 × W64)) (errs : List (Nat × CodeErrs)), o.valid = true → ∀ e ∈ hostRows segs errs,
    (∀ ref c, s.front o e.2 = some (ref, c) → (s.started o).lowLadder = true → e.2 ∉ ladderOpcodes →
      exec (e.1 o) s = .next ((s.started o).complete ref 0x0711))
    ∧ (s.front o e.2 = none → exec (e.1 o) s = .next s)

/-! ### Registers -/

/-- The read and write registers of PF BAR0 that act on the module alone, with the bits that a write sets (R325, R389, R429, R536, R537, R568,
R594, R613). -/
def writableRegs : List (Nat × Nat) :=
  [(0x00010, 0x3), (0x00014, 0xf), (0x10040, 0x1f), (0x10080, 0xff), (0x2000c, 0x1f), (0x20024, 0x1f), (0x20040, 0x1f), (0x3000c, 0x3f),
   (0x30010, 0x3ff), (0x30040, 0x1f), (0x4000c, 0xf), (0x40080, 0x3fff), (0x5000c, 0xf), (0x50040, 0x1f), (0x6000c, 0x7), (0x60014, 0x7f),
   (0x60040, 0x1f), (0x60080, 0xff), (0x7000c, 0xffffffff), (0x70040, 0x1f)]

/-- The event registers, whose bits a write of 1 clears. -/
def eventRegs : List Nat := [0x0000c, 0x20008, 0x30008, 0x40008, 0x50008, 0x60008]

/-- Registers that only show something. -/
def readOnlyRegs : List Nat :=
  [0x00000, 0x00004, 0x00008, 0x00018, 0x00058, 0x10000, 0x10044, 0x10048, 0x1004c, 0x10050, 0x10084, 0x20000, 0x20004, 0x20010, 0x20014,
   0x20018, 0x2001c, 0x20020, 0x20044, 0x20048, 0x2004c, 0x20050, 0x30000, 0x30004, 0x30014, 0x30018, 0x30044, 0x30048, 0x3004c,
   0x30050, 0x30054, 0x30058, 0x40000, 0x40004, 0x40010, 0x40014, 0x40018, 0x40040, 0x4006c, 0x40100, 0x401fc, 0x50000, 0x50004, 0x50010,
   0x50014, 0x50018, 0x5001c, 0x50020, 0x50024, 0x50028, 0x5002c, 0x50044, 0x50048, 0x5004c, 0x50050, 0x50054, 0x60000, 0x60004, 0x60010,
   0x60018, 0x6001c, 0x60020, 0x60024, 0x60028, 0x6002c, 0x60084, 0x70000, 0x70004, 0x70008, 0x70010, 0x70048, 0x7004c, 0x70100, 0x7013c]

/-- The registers of a function's selected ring, and its selector; `SelectedRegisterWritesAct` and `RingsEnableAndDisable` say what writing one does. -/
def ringRegs : List Nat := [0x00040, 0x00044, 0x00048, 0x0004c, 0x00050, 0x00054]

/-- The registers of a selected partition or port that a write acts on; `SelectedRegisterWritesAct` says how. -/
def selectedRegs : List Nat := [0x20054, 0x20058, 0x3005c, 0x60044, 0x70044, 0x70050, 0x70054]

/-- A register write (R24, R25, R505): a read and write register holds the bits written that it has, an event register loses the bits written 1,
a write of a read-only register or of an address not assigned changes nothing; no other register of these kinds, no memory, no partition and no port
changes, and of a core only its supply, at a write of PWR_VMAX, which brings it within its range (R573). Addresses not assigned read 0 (R505). Before
Ready, out of link or for a VF not enabled a write of any address, by any function, is not taken (R80, R103, R106; the model's choice, assumption 37). -/
def Obligations.RegisterWritesAct : Prop :=
  ∀ (s : State) (v : W32),
    (∀ fn ≤ 32, s.hostReach fn = false → ∀ a : W32, exec (.registerWrite fn a v) s = .next s)
    ∧ (∀ fn, s.hostReach fn = true ↔
        s.hif.linkUp = true ∧ s.su.perstN = true ∧ s.su.stage = 0x0b ∧ (fn = 0 ∨ s.hif.vfsEnabled = true))
    ∧ (∀ fn, 1 ≤ fn → fn ≤ 32 → ∀ a : W32, a.toNat ∉ ringRegs → exec (.registerWrite fn a v) s = .next s)
    ∧ (s.hostReach 0 = true →
    (∀ e ∈ writableRegs, ∃ t, exec (.registerWrite 0 (BitVec.ofNat 32 e.1) v) s = .next t
        ∧ t.pfReg e.1 = v &&& BitVec.ofNat 32 e.2
        ∧ (∀ e' ∈ writableRegs, e'.1 ≠ e.1 → t.pfReg e'.1 = s.pfReg e'.1) ∧ (∀ a ∈ eventRegs, t.pfReg a = s.pfReg a)
        ∧ (e.1 ≠ 0x60014 → t.cores = s.cores)
        ∧ (e.1 = 0x60014 → SMap.wf Core.blank s.cores = true → ∀ k < 256, t.core k = { s.core k with
            supply := BitVec.ofNat 6 (max (s.floorOf k) (min (t.ceilingOf k) (s.core k).supply.toNat)) })
        ∧ t.parts = s.parts ∧ t.lnk.ports = s.lnk.ports ∧ t.spn.tiles = s.spn.tiles ∧ t.gon.table = s.gon.table
        ∧ t.hif.rings = s.hif.rings ∧ t.fuses = s.fuses ∧ t.flash = s.flash ∧ t.su = s.su ∧ t.outbox = s.outbox)
    ∧ (∀ a ∈ eventRegs, ∃ t, exec (.registerWrite 0 (BitVec.ofNat 32 a) v) s = .next t
        ∧ t.pfReg a = s.pfReg a &&& ~~~v
        ∧ (∀ e' ∈ writableRegs, t.pfReg e'.1 = s.pfReg e'.1) ∧ (∀ a' ∈ eventRegs, a' ≠ a → t.pfReg a' = s.pfReg a')
        ∧ t.cores = s.cores ∧ t.parts = s.parts ∧ t.lnk.ports = s.lnk.ports ∧ t.spn.tiles = s.spn.tiles ∧ t.gon.table = s.gon.table
        ∧ t.hif.rings = s.hif.rings ∧ t.fuses = s.fuses ∧ t.flash = s.flash ∧ t.su = s.su ∧ t.outbox = s.outbox)
    ∧ (∀ a ∈ readOnlyRegs, exec (.registerWrite 0 (BitVec.ofNat 32 a) v) s = .next s)
    ∧ (∀ a : W32, a.toNat ∉ writableRegs.map (·.1) → a.toNat ∉ eventRegs → a.toNat ∉ ringRegs → a.toNat ∉ selectedRegs →
        exec (.registerWrite 0 a v) s = .next s))
    ∧ (∀ a : Nat, a % 4 = 0 → a ∉ writableRegs.map (·.1) → a ∉ eventRegs → a ∉ ringRegs → a ∉ selectedRegs → a ∉ readOnlyRegs →
        ¬(0x40040 ≤ a ∧ a < 0x40070) → ¬(0x40100 ≤ a ∧ a < 0x40200) → ¬(0x70100 ≤ a ∧ a < 0x70140) → s.pfReg a = 0)

/-- Writes that act on a selected ring, of the PF or a VF, and, by the PF, on a selected partition or port (R290, R319, R395, R509, R536, R573, R591,
R594, R604, R606, R613). That the base registers of an enabled ring keep their values is assumption 37 and the status of a port that HOLD holds is
assumption 12: the model's choices. -/
def Obligations.SelectedRegisterWritesAct : Prop :=
  ∀ (s : State) (v : W32),
    (∀ fn ≤ 32, s.hostReach fn = true →
      let o := s.selected fn
      let r := s.ring o
      (r.enable = false →
        exec (.registerWrite fn 0x44 v) s = .next (s.setRing o { r with cmdBase := putBits r.cmdBase 0 (v &&& 0xfffff000) })
        ∧ exec (.registerWrite fn 0x48 v) s = .next (s.setRing o { r with cmdBase := putBits r.cmdBase 32 v })
        ∧ exec (.registerWrite fn 0x4c v) s = .next (s.setRing o { r with cplBase := putBits r.cplBase 0 (v &&& 0xfffff000) })
        ∧ exec (.registerWrite fn 0x50 v) s = .next (s.setRing o { r with cplBase := putBits r.cplBase 32 v }))
      ∧ (r.enable = true → ∀ a ∈ [0x44#32, 0x48#32, 0x4c#32, 0x50#32], exec (.registerWrite fn a v) s = .next s)
      ∧ (fn = 0 ∨ v.toNat % 16 < 4 → exec (.registerWrite fn 0x40 v) s = .next (s.setFunc fn { s.func fn with rsel := bits v 0 4 }))
      ∧ (fn ≠ 0 → 4 ≤ v.toNat % 16 → exec (.registerWrite fn 0x40 v) s = .next s))
    ∧ (∀ fn ≤ 32, exec (.registerWrite fn 0x54 v) s = (if bit v 31 = true then exec (.ringEnable fn v) s else exec (.ringDisable fn v) s))
    ∧ (s.hostReach 0 = true →
    exec (.registerWrite 0 0x20054 v) s =
        .next (s.setPart s.spn.psel.toNat { s.part s.spn.psel.toNat with nearReq := bits v 0 8 })
    ∧ exec (.registerWrite 0 0x20058 v) s = .next (s.setPart s.spn.psel.toNat { s.part s.spn.psel.toNat with
        poisonRead := (s.part s.spn.psel.toNat).poisonRead && !bit v 0 })
    ∧ exec (.registerWrite 0 0x70044 v) s = .next (s.setPart s.mgt.psel.toNat { s.part s.mgt.psel.toNat with csel := bits v 0 3 })
    ∧ exec (.registerWrite 0 0x70050 v) s = .next (s.setPart s.mgt.psel.toNat { s.part s.mgt.psel.toNat with
        ovf := (s.part s.mgt.psel.toNat).ovf &&& ~~~(bits v 0 8) })
    ∧ exec (.registerWrite 0 0x70054 v) s = exec (.mgtPClr v) s
    ∧ (exec (.registerWrite 0 0x3005c v) s = if bit v 1 = true then exec (.recal v) s else if bit v 0 = true then exec (.portHold v) s else exec (.portUnhold v) s)
    ∧ exec (.registerWrite 0 0x60044 v) s =
        .next (let t := s.setPart s.pwr.psel.toNat { s.part s.pwr.psel.toNat with policy := bits v 0 2 }
          (t.coresIn s.pwr.psel.toNat).foldl State.fitSupply t)
    ∧ exec .mgtPCntLoRead s = .next (s.setPart s.mgt.psel.toNat { s.part s.mgt.psel.toNat with
        cntHi := ((SMap.get 0 (s.part s.mgt.psel.toNat).perf (s.part s.mgt.psel.toNat).csel.toNat) >>> 32).setWidth 32 })
    ∧ (∃ p : Part, exec (.mgtPClr v) s = .next (s.setPart s.mgt.psel.toNat p)
        ∧ p = { s.part s.mgt.psel.toNat with perf := p.perf, ovf := p.ovf }
        ∧ (SMap.wf 0 (s.part s.mgt.psel.toNat).perf = true → ∀ k < 8,
            SMap.get 0 p.perf k = (if bit v k = true then 0 else SMap.get 0 (s.part s.mgt.psel.toNat).perf k)
            ∧ bit p.ovf k = (bit (s.part s.mgt.psel.toNat).ovf k && !bit v k)))
    ∧ (s.lnk.psel.toNat < 18 →
        (bit v 0 = true → bit v 1 = false → (s.port s.lnk.psel.toNat).st = .held →
          exec (.portHold v) s = .next (s.setPort s.lnk.psel.toNat { s.port s.lnk.psel.toNat with hold := true }))
        ∧ (bit v 0 = true → bit v 1 = false → (s.port s.lnk.psel.toNat).st ≠ .held →
          ∃ st, exec (.portHold v) s = .next ((s.setPort s.lnk.psel.toNat { s.port s.lnk.psel.toNat with
            hold := true, st := .held }).lnkEvent 1 { status := st, words := [s.lnk.psel.toNat] }))
        ∧ (bit v 0 = false → bit v 1 = false → (s.port s.lnk.psel.toNat).st = .held → (s.port s.lnk.psel.toNat).ladderHold = false →
          s.pwr.test = none → s.su.linksDriven = true → s.lnk.psel.toNat < 14 ∨ s.siteConfig ≠ none →
          exec (.portUnhold v) s = .next (s.setPort s.lnk.psel.toNat { s.port s.lnk.psel.toNat with
            hold := false, testHold := false, st := .training }))
        ∧ (bit v 0 = false → bit v 1 = true → SMap.wf Port.blank s.lnk.ports = true → (s.port s.lnk.psel.toNat).st = .up →
          exec (.recal v) s = .next ((s.setPort s.lnk.psel.toNat { s.port s.lnk.psel.toNat with hold := false }).setPort s.lnk.psel.toNat
            { s.port s.lnk.psel.toNat with hold := false, st := .training }))))

/-! ### Host copies and the tether -/

/-- Host copies (R519, R520, R556, R558, R606): a copy that passes its checks runs until its host accesses end. HOST_IN then writes its bytes to the
span and HOST_OUT writes the span's bytes to host memory, each counted; a copy that meets a fault at its end, or an error of the host, stops
with that status; one that would read poison says so for each poisoned tile (R318, R319). By the model's reading (assumption 52) faults are looked at again
as the copy ends, with 0x0223 where the partition has gone, and what stays of a stopped copy is a prefix. Over a VF's Secure stream bytes go out encrypted
and authenticated under its key (R557, assumption 67). -/
def Obligations.HostCopies : Prop :=
  ∀ s : State,
    (∀ o ref c, s.starts o 0x08 ref c = true →
      s.carriesOut o (.hostIn o) ref ((s.started o).copyChecks ref c true) fun t =>
        { t with hif := { t.hif with hostOps := t.hif.hostOps ++ [.copyIn ref (tetPart c) (copyAddr c) (copyHost c) (copyLen c)] } })
    ∧ (∀ o ref c, s.starts o 0x09 ref c = true →
      s.readsAndCarriesOut (s.started o) (.hostOut o) ref (tetPart c) 0x0318 ((s.started o).poisonedIn (tetPart c) (copyAddr c).toNat (copyLen c))
        ((s.started o).copyChecks ref c false) fun t =>
        { t with hif := { t.hif with hostOps := t.hif.hostOps ++ [.copyOut ref (tetPart c) (copyAddr c) (copyHost c) (copyLen c)] } })
    ∧ (∀ (k : Nat) ref part addr host len (l : List Byte) errs,
        s.hif.hostOps[k]? = some (.copyIn ref part addr host len) → s.canPost ref.ring.fn = true → l.length = len →
        let t := ({ s with hif := { s.hif with hostOps := listDrop s.hif.hostOps k } } : State).meetCodewords part addr.toNat len errs
        (t.hasPart part = true → t.bytesFault part addr.toNat len true = none →
          exec (.hostMemoryAccessComplete k ⟨some l, errs⟩) s = .next
            (((t.spanWrite part addr.toNat len (Mem.ofList l)).count (some part) 6 len).complete ref 0))
        ∧ (t.hasPart part = false → exec (.hostMemoryAccessComplete k ⟨some l, errs⟩) s = .next (t.complete ref 0x0223))
        ∧ (∀ st, t.hasPart part = true → t.bytesFault part addr.toNat len true = some st →
          exec (.hostMemoryAccessComplete k ⟨some l, errs⟩) s = .next (t.complete ref st)))
    ∧ (∀ (k : Nat) ref part addr host len,
        s.hif.hostOps[k]? = some (.copyOut ref part addr host len) → s.canPost ref.ring.fn = true → ∀ l errs,
        let t := ({ s with hif := { s.hif with hostOps := listDrop s.hif.hostOps k } } : State).meetCodewords part addr.toNat len errs
        (t.hasPart part = true → t.bytesFault part addr.toNat len false = none →
          exec (.hostMemoryAccessComplete k ⟨some l, errs⟩) s = .next
            ((((t.countReads part addr.toNat len).writeHost ref.ring.fn host (t.spanRead part addr.toNat len) len).count
              (some part) 6 len).complete ref 0))
        ∧ (t.hasPart part = false → exec (.hostMemoryAccessComplete k ⟨some l, errs⟩) s = .next (t.complete ref 0x0223))
        ∧ (∀ st, t.hasPart part = true → t.bytesFault part addr.toNat len false = some st →
          exec (.hostMemoryAccessComplete k ⟨some l, errs⟩) s = .next ((if st = 0x0318 then
            (t.poisonedIn part addr.toNat len).foldl (fun u slot => u.poisonRead part slot) t else t).complete ref st)))
    ∧ (∀ (k : Nat) x errs, s.hif.hostOps[k]? = some x → s.canPost x.fn = true →
        exec (.hostMemoryAccessComplete k ⟨none, errs⟩) s =
          .next ((({ s with hif := { s.hif with hostOps := listDrop s.hif.hostOps k } } : State).meetHostOp x errs).stopCopyOp x 0x0104))
    ∧ (∀ fn addr (m : Mem) len,
        ((s.func fn).ideKey = none ∨ (s.func fn).ideSecure = false ∨ fn = 0 → s.writeHost fn addr m len = s.emit (.hostWrite fn addr m len))
        ∧ (∀ key, (s.func fn).ideKey = some key → (s.func fn).ideSecure = true → fn ≠ 0 →
          let c := gcmCrypt (wordBytes key) (bytesBE (s.func fn).ideCount 12) (m.toList 0 len)
          s.writeHost fn addr m len = (s.setFunc fn { s.func fn with ideCount := (s.func fn).ideCount + 1 }).emit
            (.ideWrite fn addr len c (gcmTag (wordBytes key) (bytesBE (s.func fn).ideCount 12) [] c))))

/-- Loads (R117 to R127, R130): LOAD queues behind the loads of its partition; a read image is refused with the status that its header, its generation
and its stop mark give, or its generation and digest are recorded and its broadcast starts; at the broadcast's end every core whose bank is
filling, a core that a held resize drops as well, holds the spool ready, the load completes with its generation, and cores that wait or are idle take it;
where the resize leaves none of them, the boundary is at once (assumption 23). The order of LOAD's checks is assumption 20, that it takes any length
assumption 21, and the order of a spool's faults assumption 22 (all DEDUCED). -/
def Obligations.LoadsBecomeSpools : Prop :=
  ∀ s : State,
    (∀ o ref c, s.starts o 0x10 ref c = true →
      let n := tetPart c
      s.carriesOut o (.load o) ref
        [(!(tetUnused c true false true false false && decide (cmdField c 0x10 8 % 8192 = 0) && decide (cmdField c 0x10 8 < 2 ^ 52))
            || !partOk n, 0x0227),
         (!(s.started o).hasPart n, 0x0223), (decide (((s.started o).part n).st ≠ .running), 0x0230),
         ((s.started o).lockedAt n ref, 0x061a)]
        fun t => t.setPart n { t.part n with
          loads := (t.part n).loads ++ [{ ref, addr := BitVec.ofNat 64 (cmdField c 0x10 8), len := BitVec.ofNat 32 (cmdField c 0x20 4) }]
          phase := if (t.part n).phase = .idle then .reading else (t.part n).phase })
    ∧ (∀ n < 32, ∀ l rest errs, (s.part n).phase = .reading → (s.part n).loads = l :: rest →
        let v := s.meetCodewords n l.addr.toNat l.len.toNat errs
        let m := v.spanRead n l.addr.toNat l.len.toNat
        let t := v.countReads n l.addr.toNat l.len.toNat
        (∀ st, v.bytesFault n l.addr.toNat l.len.toNat false = some st → exec (.spoolReadComplete ⟨n, errs⟩) s = .next
          (((v.poisonedIn n l.addr.toNat l.len.toNat).foldl (fun u slot => u.poisonRead n slot) v).loadDone n 0x0213 0))
        ∧ (v.bytesFault n l.addr.toNat l.len.toNat false = none →
          (t.spoolFault n m l.len.toNat = none →
            exec (.spoolReadComplete ⟨n, errs⟩) s = .next ((t.setPart n { t.part n with
              accepted := true, gen := m.read 32 8, phase := .broadcasting, image := m, imageLen := l.len.toNat
              gens := (t.part n).gens ++ [{ gen := m.read 32 8, digest := digestWord (sha384 (m.toList 0 l.len.toNat)) }] }).startBroadcast n
                (m.read 32 8)))
          ∧ (∀ st, t.spoolFault n m l.len.toNat = some st → exec (.spoolReadComplete ⟨n, errs⟩) s = .next (t.loadDone n st 0))))
    ∧ (∀ n < 32, (s.part n).phase = .broadcasting → ∃ u v : State,
        u = (s.modCores (coresOf ((s.part n).kites ||| s.comingKites n)) fun k c =>
          if c.inactive = .filling then c.fill (s.part n).image
            (rankIn (if bit (s.comingKites n) (k / 8) = true then s.comingKites n else (s.part n).kites) k) else c)
        ∧ v = (u.loadDone n 0 (s.part n).gen.toNat).take n ((u.loadDone n 0 (s.part n).gen.toNat).takers n)
        ∧ exec (.broadcastEnd n) s = .next (if (s.part n).kites &&& s.comingKites n = 0 then v.takeGen n (s.part n).gen [] else v))
    ∧ (∀ n l rest st res, (s.part n).loads = l :: rest →
        s.loadDone n st res = (s.setPart n { s.part n with
          loads := rest, phase := if rest = [] then .idle else .reading, image := [], imageLen := 0 }).complete l.ref st res)

/-- The bank that a core receives of an accepted image (R122): the header and routine table at 0, the core's parameter block at 0x200, the bundles at
0x1000, and zeros between. -/
def Obligations.BankLayout : Prop :=
  ∀ (m : Mem) (rank : Nat), m.readNat 0x00e 2 ≤ 56 → m.readNat 0x00c 2 ≤ 3840 → spoolFixed m ≤ m.readNat 0x014 4 →
    let block := 512 + (if spoolPerCore m then rank * spoolParam m else 0)
    let bundles := m.readNat 0x014 4 - 16 * m.readNat 0x00c 2
    (∀ i < 512, (bankOf m rank).byte i = m.byte i)
    ∧ (∀ i < spoolParam m, (bankOf m rank).byte (0x200 + i) = m.byte (block + i))
    ∧ (∀ i < 16 * m.readNat 0x00c 2, (bankOf m rank).byte (0x1000 + i) = m.byte (bundles + i))
    ∧ (∀ i, 0x200 + spoolParam m ≤ i → i < 0x1000 → (bankOf m rank).byte i = 0)
    ∧ (∀ i, 0x1000 + 16 * m.readNat 0x00c 2 ≤ i → (bankOf m rank).byte i = 0)

/-- A core that takes a spool (R119, R120, R130, R131, R144) exchanges its banks and runs the routine whose mask names it from the routine's entry, with s0
to s3 holding its index, its rank, N and the generation and every other register zero; it is idle where no routine names it, or, with 0x0904,
where the channel depths change while a message or a credit is outstanding. -/
def Obligations.CoresTakeSpools : Prop :=
  ∀ (c : Core) (k : Nat), k < 256 →
    let bank := if c.activeB then c.bankA else c.bankB
    let r := c.takeSpool k
    let same := ∀ ch < 16, (c.chan ch).depth = headerDepth bank ch
    r.1.gen = some c.readyGen ∧ r.1.activeB = !c.activeB ∧ r.1.inactive = .empty ∧ r.1.bank = bank ∧ r.1.passes = 0 ∧ r.1.ops = []
    ∧ r.1.store = c.store ∧ r.1.slots = c.slots
    ∧ (same ∨ (∀ ch < 16, (c.chan ch).held = 0 ∧ (c.chan ch).granted = 0) → r.2 = false
        ∧ (∀ e, routineFor bank k = some e → r.1.run = .running ∧ r.1.pc = e
            ∧ r.1.sreg 0 = BitVec.ofNat 64 k ∧ r.1.sreg 1 = BitVec.ofNat 64 c.rank ∧ r.1.sreg 2 = BitVec.ofNat 64 c.n
            ∧ r.1.sreg 3 = c.readyGen.setWidth 64 ∧ (∀ i, 4 ≤ i → r.1.sreg i = 0)
            ∧ r.1.a = [] ∧ r.1.c = [] ∧ r.1.v = [] ∧ r.1.t = [] ∧ r.1.flags = 0 ∧ r.1.loops = [])
        ∧ (routineFor bank k = none → r.1.run = .idle))
    ∧ (¬same → (∃ ch < 16, (c.chan ch).held ≠ 0 ∨ (c.chan ch).granted ≠ 0) → r.1.run = .idle ∧ r.2 = true ∧ r.1.chans = c.chans)

/-- Stops (R147 to R153, R519): ABORT and STOP_NOW act on a Running partition, a core of a stop-marked spool halts where its stop mark says once its
work is done, and the tether then writes one record of 0x410000 bytes a core in rank order and posts the stop completion after the last. The order of
the checks is assumption 20 (DEDUCED), that they need a Running partition is assumption 28, and halt cause 2 for a core that waits at `swap` or whose
routine has ended is assumption 29: choices of the model. -/
def Obligations.CoresStop : Prop :=
  ∀ s : State,
    (∀ o ref c, s.starts o 0x11 ref c = true →
      let n := tetPart c
      s.carriesOut o (.abort o) ref
        [(!tetUnused c false false false false false || !partOk n, 0x0227), (!(s.started o).hasPart n, 0x0223),
         (decide (((s.started o).part n).st ≠ .running), 0x0230)]
        fun t => (t.abort n).complete ref 0)
    ∧ (∀ o ref c, s.starts o 0x12 ref c = true →
      let n := tetPart c
      s.carriesOut o (.stopNow o) ref
        [(!tetUnused c false false false false false || !partOk n, 0x0227), (!(s.started o).hasPart n, 0x0223),
         (decide (((s.started o).part n).st ≠ .running), 0x0230), (((s.started o).stopCore n).isNone, 0x0217)]
        fun t => ((t.coresIn n).foldl State.haltNow t).complete ref 0)
    ∧ (∀ k, (s.core k).run = .waitBank → s.haltNow k = (s.setCore k { s.core k with run := .halted 2 0 }).fitSupply k)
    ∧ (∀ k, (s.core k).run = .running → (s.core k).ended = 0 →
        s.haltNow k = ((s.setCore k { s.core k with run := .halted 3 (s.core k).waitingFor }).dropCredit k).fitSupply k)
    ∧ (∀ k, (s.core k).run = .running → (s.core k).ended ≠ 0 → s.haltNow k = (s.setCore k { s.core k with run := .halted 2 0 }).fitSupply k)
    ∧ (∀ k, (s.core k).run = .idle → s.haltNow k = (s.setCore k { s.core k with run := .halted 4 0 }).fitSupply k)
    ∧ (∀ k < 256, s.mayIssue k = true → (s.core k).stopDue = true → (s.core k).quiet = true →
        exec (.stopMarkHalt k) s = .next ((s.setCore k { s.core k with run := .halted (if (s.core k).atStop then 1 else 2) 0 }).fitSupply k))
    ∧ (∀ n < 32, ∀ k0 k, s.stopCore n = some k0 → s.snapReady n = true → (s.coresIn n)[(s.part n).snapNext]? = some k →
        let i := (s.part n).snapNext
        let t := s.spanWrite n ((s.core k0).bank.readNat 0x018 8 + i * 0x410000) 0x410000 ((s.core k).record k)
        (i + 1 < (s.coresIn n).length → exec (.snapshotWrite n) s = .next (t.setPart n { t.part n with snapNext := i + 1 }))
        ∧ (i + 1 = (s.coresIn n).length → ∃ u : State, exec (.snapshotWrite n) s = .next (u.take n (u.idleReady n))
            ∧ u = t.snapDone n 0 ((s.core k0).gen.getD 0) (i + 1)))

/-! ### Bundles: the control and move slots -/

/-- Fields of a bundle written out bit by bit from the slot tables decode to their operations (R155, R167, R177, R187, R190): `jmp 5`; `sset s3, -1`;
`salu s1 = s2 - s4`; `sst` with an immediate; `vadd` in binary64; `bridle` on array B; and a bundle whose two slots write one register is invalid
(R157). -/
def Obligations.BundlesDecode : Prop :=
  (decodeBundle (3 * 2 ^ 122 + 5 * 2 ^ 102)).map (·.ctl) = some (.jmp 5)
  ∧ (decodeBundle (1 * 2 ^ 90 + 3 * 2 ^ 85 + (2 ^ 21 - 1) * 2 ^ 64)).map (·.mov) = some (.sset 3 (BitVec.allOnes 64))
  ∧ (decodeBundle (2 * 2 ^ 90 + 1 * 2 ^ 85 + 2 * 2 ^ 80 + 4 * 2 ^ 75 + 1 * 2 ^ 70)).map (·.mov) = some (.salu 1 2 4 1)
  ∧ (decodeBundle (5 * 2 ^ 90 + 7 * 2 ^ 85 + 8 * 2 ^ 80 + 9 * 2 ^ 75 + 100 * 2 ^ 64)).map (·.mov) = some (.sst 7 8 9 100)
  ∧ (decodeBundle (1 * 2 ^ 58 + 1 * 2 ^ 57 + 2 * 2 ^ 53 + 3 * 2 ^ 49 + 4 * 2 ^ 45 + 1 * 2 ^ 38)).map (·.vec)
      = some { op := .add, w := true, d := 2, a := 3, b := 4, c := 0, rnd := 1, s := 0, fn := 0 }
  ∧ (decodeBundle (1 * 2 ^ 20 + 1 * 2 ^ 19 + 6 * 2 ^ 15)).map (·.arr)
      = some { op := .bridle, arr := true, t := 6, fmt := 0, kind := 0, first := false, last := false, rs := false, rq := false, shape := 0 }
  ∧ decodeBundle (6 * 2 ^ 90 + 2 * 2 ^ 85 + 1 * 2 ^ 58 + 2 * 2 ^ 53) = none
  ∧ decodeBundle (6 * 2 ^ 122) = none

/-- The rows of the vector slot with their operations. -/
def vectorRows : List ((Nat → Instr) × VOp) :=
  [(.vadd, .add), (.vsub, .sub), (.vmul, .mul), (.vfma, .fma), (.vdiv, .div), (.vsqrt, .sqrt), (.vmin, .min), (.vmax, .max),
   (.vcmp, .cmp), (.vsel, .sel), (.vbcs, .bcs), (.vred, .red), (.vcvt, .cvt), (.vfun, .func), (.vrand, .rand), (.vupd, .upd)]

/-- The rows of the other slots, but `swap` and `send`, with the bundles that hold their operation. -/
def slotRows : List ((Nat → Instr) × (Bundle → Bool)) :=
  [(.nop, fun b => b.ctl == .nop || b.mov == .nop || b.vec.op == .nop || b.arr.op == .nop),
   (.rep, fun b => match b.ctl with | .rep _ _ _ => true | _ => false),
   (.br, fun b => match b.ctl with | .br _ _ _ => true | _ => false),
   (.jmp, fun b => match b.ctl with | .jmp _ => true | _ => false),
   (.wait, fun b => match b.ctl with | .wait _ _ => true | _ => false),
   (.sset, fun b => match b.mov with | .sset _ _ => true | _ => false),
   (.salu, fun b => match b.mov with | .salu _ _ _ _ => true | _ => false),
   (.sali, fun b => match b.mov with | .sali _ _ _ _ => true | _ => false),
   (.sld, fun b => match b.mov with | .sld _ _ _ _ => true | _ => false),
   (.sst, fun b => match b.mov with | .sst _ _ _ _ => true | _ => false),
   (.vld, fun b => match b.mov with | .vld _ _ _ _ => true | _ => false),
   (.vst, fun b => match b.mov with | .vst _ _ _ _ => true | _ => false),
   (.pld, fun b => match b.mov with | .pld _ _ => true | _ => false),
   (.seta, fun b => match b.mov with | .seta _ _ _ _ => true | _ => false),
   (.geta, fun b => match b.mov with | .geta _ _ _ => true | _ => false),
   (.setc, fun b => match b.mov with | .setc _ _ => true | _ => false),
   (.getc, fun b => match b.mov with | .getc _ _ => true | _ => false),
   (.rdx, fun b => match b.mov with | .rdx _ _ => true | _ => false),
   (.clrf, fun b => match b.mov with | .clrf => true | _ => false),
   (.tdef, fun b => match b.mov with | .tdef _ _ _ _ _ => true | _ => false),
   (.tspn, fun b => match b.mov with | .tspn _ _ _ _ => true | _ => false),
   (.tcopy, fun b => match b.mov with | .tcopy _ _ => true | _ => false),
   (.tinv, fun b => match b.mov with | .tinv _ => true | _ => false),
   (.recv, fun b => match b.mov with | .recv _ _ _ _ _ => true | _ => false),
   (.bridle, fun b => b.arr.op == .bridle),
   (.stream, fun b => b.arr.op == .stream),
   (.drain, fun b => b.arr.op == .drain)]

/-- Every row that names a core's next bundle, with the bundles that hold its operation. -/
def bundleRows : List ((Nat → Instr) × (Bundle → Bool)) :=
  slotRows ++ vectorRows.map (fun e => (e.1, fun b => b.vec.op == e.2))
    ++ [(.send, fun b => match b.mov with | .send _ _ _ _ _ _ => true | _ => false), (.swapBundle, fun b => b.ctl == .swap)]

/-- A bundle issues as a whole (R138, R158, R159, R185): where its core may issue, no slot finds a status and everything the bundle needs is free, each
operation it holds issues all of it, a `send` among them only with its credit, for which it asks first; a `swap` exchanges the banks. An operation that the
next bundle does not hold issues nothing (the model's choice, assumption 6). -/
def Obligations.BundlesIssueWhole : Prop :=
  ∀ (s : State) (k : Nat) (b : Bundle), s.issues k b = true → ∀ e ∈ bundleRows,
    (e.2 b = false → exec (e.1 k) s = .next s)
    ∧ (e.2 b = true →
      let whole := if b.ctl = .swap then s.swapBanks k else s.issueSlots k b
      ((∀ d u0 u1 t p h, b.mov ≠ .send d u0 u1 t p h) → exec (e.1 k) s = .next whole)
      ∧ (∀ d u0 u1 t p h, b.mov = .send d u0 u1 t p h → s.sendFault k (s.core k) d t p = none →
        ((s.core k).credit ≠ none → exec (e.1 k) s = .next whole)
        ∧ ((s.core k).credit = none → (s.core k).request ≠ none → exec (e.1 k) s = .next s)
        ∧ ((s.core k).credit = none → (s.core k).request = none →
            exec (e.1 k) s = .next (s.setCore k { s.core k with request := some ((s.core k).sendDest d) }))))

/-- What ends a routine instead of an issue: a fetch past the last bundle (R133); an invalid bundle (R157), where a `rep` that is invalid through its
`n` alone names the depth of four loops first (R171); and the first status that the slots of a ready bundle find (R196), a `send` before the others
and the others in the order control, move, array (the model's choice, assumption 24). Every row that names the bundle shows it; the routine's end
names the status and the bundle (R132). -/
def Obligations.RoutinesEndAtIssue : Prop :=
  ∀ (s : State) (k : Nat), k < 256 → s.mayIssue k = true → (s.core k).stopDue = false →
    let c := s.core k
    let w := c.bundleAt c.pc
    let repOnly : Bool := decide (w / 2 ^ 122 % 64 = 1) && (decodeBundle (w - w / 2 ^ 107 % 2 ^ 12 * 2 ^ 107 + 2 ^ 107)).isSome
    (c.bundles ≤ c.pc → ∀ e ∈ bundleRows, exec (e.1 k) s = .next (s.endRoutine k 0x0902 c.pc))
    ∧ (∀ st idx, SMap.wf Core.blank s.cores = true → c.quiet = false →
        ((s.endRoutine k st idx).core k).ended = BitVec.ofNat 16 st ∧ ((s.endRoutine k st idx).core k).endedAt = idx)
    ∧ (c.pc < c.bundles → decodeBundle w = none → ∀ e ∈ bundleRows,
        (repOnly = false ∨ c.loops.length ≠ 4 → exec (e.1 k) s = .next (s.endRoutine k 0x0907 c.pc))
        ∧ (repOnly = true → c.loops.length = 4 → exec (e.1 k) s = .next (s.endRoutine k 0x0908 c.pc)))
    ∧ (∀ b, c.pc < c.bundles → decodeBundle w = some b → c.bundleReady b = true → ∀ e ∈ bundleRows, e.2 b = true →
        (∀ st, (∀ d u0 u1 t p h, b.mov ≠ .send d u0 u1 t p h) → s.issueFault k c b = some st → exec (e.1 k) s = .next (s.endRoutine k st c.pc))
        ∧ (∀ d u0 u1 t p h, b.mov = .send d u0 u1 t p h →
          (∀ st, s.sendFault k c d t p = some st → exec (e.1 k) s = .next (s.endRoutine k st c.pc))
          ∧ (∀ st, s.sendFault k c d t p = none → c.credit ≠ none → s.issueFault k c b = some st →
              exec (e.1 k) s = .next (s.endRoutine k st c.pc))))

/-- Where control goes (R168, R169, R171, R173, R175): a bundle without a branch goes on, `rep` enters a loop or passes over its body, `br` and `jmp` go
to their target and leave the loops whose body does not hold it, `wait` goes on once it holds, and `swap` acts as the inactive bank's state gives. -/
def Obligations.ControlFlow : Prop :=
  ∀ (s : State) (k : Nat) (b : Bundle), SMap.wf Core.blank s.cores = true → s.issues k b = true → b.onlyCtl →
    let c := (s.core k).ungate.countPass
    (b.ctl = .nop → ∃ t, exec (.nop k) s = .next t ∧ s.issued t k c)
    ∧ (∀ n sm cr, b.ctl = .rep cr n sm → ∃ t, exec (.rep k) s = .next t ∧ (∀ j, j ≠ k → t.core j = s.core j)
        ∧ (c.creg cr = 0 → t.core k = { c with pc := c.pc + n + 1 })
        ∧ (c.creg cr ≠ 0 → t.core k = { c with
            loops := c.loops ++ [{ p := c.pc, n, mask := (c.sreg sm).setWidth 32, live := c.creg cr }], pc := c.pc + 1 }))
    ∧ (∀ sr cond target, b.ctl = .br sr cond target → ∃ t, exec (.br k) s = .next t ∧ (∀ j, j ≠ k → t.core j = s.core j)
        ∧ (condHolds cond (c.sreg sr) = true → t.core k = { c with loops := leaveLoops target c.loops, pc := target })
        ∧ (condHolds cond (c.sreg sr) = false → s.issued t k c))
    ∧ (∀ target, b.ctl = .jmp target → ∃ t, exec (.jmp k) s = .next t ∧ (∀ j, j ≠ k → t.core j = s.core j)
        ∧ t.core k = { c with loops := leaveLoops target c.loops, pc := target })
    ∧ (∀ h what, b.ctl = .wait h what → ∃ t, exec (.wait k) s = .next t ∧ s.issued t k c)
    ∧ (b.ctl = .swap → ∀ n, s.partOf k = some n → ∃ t, exec (.swapBundle k) s = .next t
        ∧ let d := { s.core k with ended := 0, endedAt := 0, loops := [], arrA := {}, arrB := {} }
          ((s.core k).inactive = .filling → t = (s.setCore k d).setCore k { d with run := .waitBank })
          ∧ ((s.core k).inactive = .empty → t = ((s.setCore k d).setCore k { d with run := .idle }).fitSupply k)
          ∧ ((s.core k).inactive = .ready → t = (s.setCore k d).take n [k]))

/-- The end of a repeat (R171 to R173): outside a loop's last bundle the next bundle follows; at the last bundle of the innermost loop its live count goes
down and its first bundle comes again, with each address register of its mask stepped on, and after its last pass the loop is left. -/
def Obligations.LoopsRepeat : Prop :=
  ∀ (c : Core) (n : Nat),
    (c.loops = [] → c.endBody c.pc (n + 1) = { c with pc := c.pc + 1 })
    ∧ (∀ l, c.loops.getLast? = some l → l.p + l.n ≠ c.pc → c.endBody c.pc (n + 1) = { c with pc := c.pc + 1 })
    ∧ (∀ l, c.loops.getLast? = some l → l.p + l.n = c.pc → l.live = 1 →
        c.endBody c.pc (n + 1) = { c with loops := c.loops.dropLast }.endBody c.pc n)
    ∧ (∀ l, c.loops.getLast? = some l → l.p + l.n = c.pc → l.live ≠ 1 →
        c.endBody c.pc (n + 1) = ((List.range 32).filter fun i => bit l.mask i).foldl Core.autoInc
          { c with loops := c.loops.dropLast ++ [{ l with live := l.live - 1 }], pc := l.p + 1 })
    ∧ (∀ i, (c.ops.any fun o => o.writes.any (RegWrite.isA i)) = false → c.autoInc i = { c with a := SMap.set AddrReg.blank c.a i (c.areg i).increment })
    ∧ (∀ r : AddrReg, (r.bound = 0 → r.increment = { r with value := r.value + r.stride })
        ∧ (r.bound ≠ 0 → r.increment.value.toNat = (((r.value.toNat : Int) + r.stride.toInt) % (r.bound.toNat : Int)).toNat
            ∧ r.increment.stride = r.stride ∧ r.increment.bound = r.bound))

/-- The operations of the move slot that write a register (R177 to R183): each is in flight with the register and the value it writes, the
value being read as the bundle issues; and the scalar functions. Nothing but the core's own state and its partition's counts changes. -/
def Obligations.MoveSlotWritesRegisters : Prop :=
  ∀ (s : State) (k : Nat) (b : Bundle), SMap.wf Core.blank s.cores = true → s.issues k b = true → b.onlyMov →
    let c := (s.core k).ungate.countPass
    let writes (w : RegWrite) (r : Reg) : Core := { c with ops := c.ops ++ [{ bundle := c.pc, writes := [w], busy := [r] }] }
    (∀ d imm, b.mov = .sset d imm → ∃ t, exec (.sset k) s = .next t ∧ s.issued t k (writes (.s d imm) (.s d)))
    ∧ (∀ d x y f, b.mov = .salu d x y f → ∃ t, exec (.salu k) s = .next t
        ∧ s.issued t k (writes (.s d (scalarFn f (c.sreg x) (c.sreg y))) (.s d)))
    ∧ (∀ d x f imm, b.mov = .sali d x f imm → ∃ t, exec (.sali k) s = .next t
        ∧ s.issued t k (writes (.s d (scalarFn f (c.sreg x) imm)) (.s d)))
    ∧ (∀ d imm, b.mov = .pld d imm → ∃ t, exec (.pld k) s = .next t
        ∧ s.issued t k (writes (.s d (BitVec.ofNat 64 (c.bank.readNat (0x200 + 8 * imm) 8))) (.s d)))
    ∧ (∀ d v st w, b.mov = .seta d v st w → ∃ t, exec (.seta k) s = .next t
        ∧ s.issued t k (writes (.a d { value := c.sreg v, stride := c.sreg st, bound := c.sreg w }) (.a d)))
    ∧ (∀ d an p, b.mov = .geta d an p → ∃ t, exec (.geta k) s = .next t
        ∧ s.issued t k (writes (.s d (if p = 0 then (c.areg an).value else if p = 1 then (c.areg an).stride else (c.areg an).bound)) (.s d)))
    ∧ (∀ d v, b.mov = .setc d v → ∃ t, exec (.setc k) s = .next t ∧ s.issued t k (writes (.c d (c.sreg v)) (.c d)))
    ∧ (∀ d n, b.mov = .getc d n → ∃ t, exec (.getc k) s = .next t ∧ s.issued t k (writes (.s d (c.creg n)) (.s d)))
    ∧ (∀ d src, b.mov = .rdx d src → ∃ t, exec (.rdx k) s = .next t ∧ s.issued t k (writes (.s d (c.rdxValue src)) (.s d)))
    ∧ (b.mov = .clrf → ∃ t, exec (.clrf k) s = .next t ∧ s.issued t k { c with flags := 0 })
    ∧ (∀ d an sb fmt side, b.mov = .tdef d an sb fmt side → ∃ t, exec (.tdef k) s = .next t
        ∧ s.issued t k (writes (.t d { addr := c.sreg sb + (c.areg an).value, st := 1, fmt := BitVec.ofNat 4 fmt
                                       side := BitVec.ofNat 11 (64 * side) }) (.t d)))
    ∧ (∀ d x fmt side, b.mov = .tspn d x fmt side → ∃ t, exec (.tspn k) s = .next t
        ∧ s.issued t k (writes (.t d { addr := c.sreg x, st := 2, fmt := BitVec.ofNat 4 fmt, side := BitVec.ofNat 11 (64 * side) }) (.t d)))
    ∧ (∀ h, b.mov = .tinv h → ∃ t, exec (.tinv k) s = .next t ∧ s.issued t k (writes (.t h { c.treg h with st := 0 }) (.t h)))
    ∧ (∀ a b : W64, scalarFn 0 a b = a + b ∧ scalarFn 1 a b = a - b ∧ scalarFn 2 a b = a * b ∧ scalarFn 3 a b = a &&& b ∧ scalarFn 4 a b = a ||| b
      ∧ scalarFn 5 a b = a ^^^ b ∧ (scalarFn 6 a b).toNat = a.toNat * 2 ^ (b.toNat % 64) % 2 ^ 64
      ∧ (scalarFn 7 a b).toNat = a.toNat / 2 ^ (b.toNat % 64) ∧ (scalarFn 8 a b).toInt = a.toInt / 2 ^ (b.toNat % 64)
      ∧ scalarFn 9 a b = (if a.toInt < b.toInt then 1 else 0) ∧ scalarFn 10 a b = (if a.toNat < b.toNat then 1 else 0)
      ∧ (scalarFn 11 a b).toInt = min a.toInt b.toInt ∧ (scalarFn 12 a b).toInt = max a.toInt b.toInt
      ∧ (scalarFn 13 a b).toNat = a.toNat * b.toNat / 2 ^ 64)

/-- Loads and stores of the core store (R110, R181): a load is in flight with the bytes it read, lowest first; a store writes exactly its 8 or 1,024
bytes; a load of a poisoned line, and a store that covers a part of one, carry 0x0905 instead, and store nothing. -/
def Obligations.CoreStoreAccess : Prop :=
  ∀ (s : State) (k : Nat) (b : Bundle), SMap.wf Core.blank s.cores = true → s.issues k b = true → b.onlyMov →
    let c := (s.core k).ungate.countPass
    let addr (an sb imm u : Nat) : Nat := (c.sreg sb + (c.areg an).value + BitVec.ofNat 64 (imm * u)).toNat
    let launch (w : List RegWrite) (busy : List Reg) (st : W16) : Core :=
      { c with ops := c.ops ++ [{ bundle := c.pc, writes := if st = 0 then w else [], busy, status := st }] }
    (∀ d an sb imm, b.mov = .sld d an sb imm → ∃ t, exec (.sld k) s = .next t
      ∧ s.issued t k (launch [.s d (BitVec.ofNat 64 (c.store.readNat (addr an sb imm 8) 8))] [.s d]
          (if c.readPoison (addr an sb imm 8) 8 = true then 0x0905 else 0)))
    ∧ (∀ d an sb imm, b.mov = .vld d an sb imm → ∃ t, exec (.vld k) s = .next t
      ∧ s.issued t k (launch [.v d (BitVec.ofNat 8192 (c.store.readNat (addr an sb imm 64) 1024))] [.v d]
          (if c.readPoison (addr an sb imm 64) 1024 = true then 0x0905 else 0)))
    ∧ (∀ x an sb imm, b.mov = .sst x an sb imm → ∃ t d, exec (.sst k) s = .next t ∧ s.issued t k d
        ∧ (c.writePoison (addr an sb imm 8) 8 = true → d = launch [] [] 0x0905)
        ∧ (c.writePoison (addr an sb imm 8) 8 = false →
            d = { launch [] [] 0 with store := d.store, poison := c.poison.filter fun l => !lineWithin l (addr an sb imm 8) 8 }
            ∧ (∀ i < 8, d.store.byte (addr an sb imm 8 + i) = BitVec.ofNat 8 ((c.sreg x).toNat / 256 ^ i))
            ∧ (∀ a, a < addr an sb imm 8 ∨ addr an sb imm 8 + 8 ≤ a → d.store.byte a = c.store.byte a)))
    ∧ (∀ x an sb imm, b.mov = .vst x an sb imm → ∃ t d, exec (.vst k) s = .next t ∧ s.issued t k d
        ∧ (c.writePoison (addr an sb imm 64) 1024 = true → d = launch [] [] 0x0905)
        ∧ (c.writePoison (addr an sb imm 64) 1024 = false →
            d = { launch [] [] 0 with store := d.store, poison := c.poison.filter fun l => !lineWithin l (addr an sb imm 64) 1024 }
            ∧ (∀ i < 1024, d.store.byte (addr an sb imm 64 + i) = BitVec.ofNat 8 ((c.vreg x).toNat / 256 ^ i))
            ∧ (∀ a, a < addr an sb imm 64 ∨ addr an sb imm 64 + 1024 ≤ a → d.store.byte a = c.store.byte a)))

/-- Tile copies and messages (R137 to R142, R183 to R185): `tcopy` between local places moves the tile and labels the handle, and to or from the span it
is an access in flight; `send` asks for a credit, and with one its message enters the mesh; `recv` takes the head message of its channel, its
words, its source, hint and length, and its payload, and returns the credit. -/
def Obligations.TilesAndMessagesMove : Prop :=
  ∀ (s : State) (k : Nat) (b : Bundle), SMap.wf Core.blank s.cores = true → s.issues k b = true → b.onlyMov →
    let c := (s.core k).ungate.countPass
    let launch (o : InFlight) : Core := { c with ops := c.ops ++ [o] }
    (∀ d x, b.mov = .tcopy d x →
      let td := c.treg d
      let ts := c.treg x
      let w : List RegWrite := [.t d { td with fmt := ts.fmt, side := ts.side }]
      ∃ t e, exec (.tcopy k) s = .next t ∧ s.issued t k e
        ∧ (ts.st = 2 → e = launch { bundle := c.pc, writes := w, busy := [.t d], lines := (td.addr.toNat, 8192 + ts.side.toNat), ready := false
                                    span := .read ts.addr td.addr.toNat ts.side.toNat })
        ∧ (ts.st = 1 → td.st = 2 → c.readPoison ts.addr.toNat (8192 + ts.side.toNat) = false →
            e = launch { bundle := c.pc, writes := w, busy := [.t d], ready := false, span := .write td.addr (c.tileAt ts) false })
        ∧ (ts.st = 1 → td.st = 1 → c.readPoison ts.addr.toNat (8192 + ts.side.toNat) = false →
            c.writePoison td.addr.toNat (8192 + ts.side.toNat) = false →
            e.ops = c.ops ++ [{ bundle := c.pc, writes := w, busy := [.t d] }]
            ∧ (∀ i < 8192 + ts.side.toNat, e.store.byte (td.addr.toNat + i) = c.store.byte (ts.addr.toNat + i))
            ∧ (∀ a, a < td.addr.toNat ∨ td.addr.toNat + 8192 + ts.side.toNat ≤ a → e.store.byte a = c.store.byte a)))
    ∧ (∀ dst u0 u1 h pay hint, b.mov = .send dst u0 u1 h pay hint → s.sendFault k (s.core k) dst h pay = none →
        (c.credit = none → c.request = none →
          exec (.send k) s = .next (s.setCore k { s.core k with request := some ((s.core k).sendDest dst) }))
        ∧ (c.credit ≠ none → (pay = false ∨ c.readPoison (c.treg h).addr.toNat (c.treg h).size = false) →
          ∃ t, exec (.send k) s = .next t ∧ t.core k = ({ c with credit := none }).endBody c.pc 4
            ∧ t.mesh = s.mesh ++ [{ src := k, dst := (c.sreg dst).toNat % 256, chan := (c.sreg dst).toNat / 256 % 16
                                    word0 := (c.sreg u0).setWidth 32, word1 := c.sreg u1, hint := BitVec.ofNat 8 hint
                                    srcByte := BitVec.ofNat 8 k, data := if pay then some (c.tileAt (c.treg h)) else none }]))
    ∧ (∀ ch u0 u1 m h, b.mov = .recv ch u0 u1 m h →
        let a := c.bufAddr ch (c.chan ch).headBuf
        let n := c.store.readNat (a + 2) 2
        c.readPoison a (16 + n) = false → (n = 0 ∨ c.writePoison (c.treg h).addr.toNat n = false) →
        ∃ t u : State, exec (.recv k) s = .next t ∧ t = ((u.returnCredit k ch).modCore k fun e => e.endBody e.pc 4).count (s.partOf k) 2 1
          ∧ (∀ j, j ≠ k → u.core j = s.core j)
          ∧ (let words : List RegWrite := [.s u0 (BitVec.ofNat 64 (c.store.readNat (a + 4) 4)), .s u1 (BitVec.ofNat 64 (c.store.readNat (a + 8) 8)),
                .s m (BitVec.ofNat 64 (n * 2 ^ 16 + c.store.readNat (a + 1) 1 * 2 ^ 8 + c.store.readNat a 1))]
             let side : List RegWrite := if n = 0 then [] else [.t h { c.treg h with side := BitVec.ofNat 11 (n - 8192) }]
             (u.core k).ops = c.ops ++ [{ bundle := c.pc, busy := [.s u0, .s u1, .s m, .t h], writes := words ++ side }])
          ∧ (∀ i < n, (u.core k).store.byte ((c.treg h).addr.toNat + i) = c.store.byte (a + 16 + i))
          ∧ (u.core k).chans = SMap.set Channel.blank c.chans ch { c.chan ch with
              held := (c.chan ch).held - 1, headBuf := ((c.chan ch).headBuf + 1) % max 1 (c.chan ch).depth })

/-- Operations, credits and messages end (R140, R141, R158, R160, R196): an operation that completes writes its registers and sets its flags, or ends
the routine with the status it found, and lines that a bad codeword met by then are poisoned (R110, assumption 83); a request that reaches the router
joins its channel's line and is granted in order; a message lands in the buffer behind those held; one whose core has left the partition it was sent
in comes and is held by no channel (R114; the model's choice, assumption 23). -/
def Obligations.OperationsAndMessagesComplete : Prop :=
  ∀ s : State,
    (∀ k < 256, ∀ (i : Nat) o bad,
      let u := s.setCore k ((s.core k).spoil bad)
      (u.core k).ops[i]? = some o → o.ready = true →
      let d := { u.core k with ops := listDrop (u.core k).ops i }
      (o.status = 0 → exec (.operationComplete k ⟨i, bad⟩) s =
        .next ((u.setCore k { (d.writeAll o.writes) with flags := (u.core k).flags ||| o.flags }).settleCore k))
      ∧ (o.status ≠ 0 → exec (.operationComplete k ⟨i, bad⟩) s =
        .next (((u.setCore k d).endRoutine k o.status.toNat o.bundle).settleCore k)))
    ∧ (∀ (c : Core) bad l, l < 65536 → ((c.spoil bad).poison.contains l = true ↔ c.poison.contains l = true ∨ l ∈ bad))
    ∧ (∀ src < 256, ∀ dst < 256, ∀ ch, (s.core src).request = some (dst, ch) → ((s.core dst).chan ch).waiters.contains src = false →
        exec (.creditGrant src dst) s = .next ((s.setCore dst ((s.core dst).setChan ch { (s.core dst).chan ch with
          waiters := ((s.core dst).chan ch).waiters ++ [src] })).grantAll dst ch))
    ∧ (∀ src < 289, ∀ dst < 256, ∀ ch < 16, ∀ i m,
        (s.mesh.findIdx? fun m => decide (m.src = src) && decide (m.dst = dst) && decide (m.chan = ch)) = some i → s.mesh[i]? = some m →
        m.len < 65536 →
        (m.stale = true → exec (.messageArrive src dst ch) s = .next (({ s with mesh := listDrop s.mesh i } : State).setCore dst (s.core dst)))
        ∧ (m.stale = false → ∃ e, exec (.messageArrive src dst ch) s = .next (({ s with mesh := listDrop s.mesh i } : State).setCore dst e)
          ∧ e.chans = SMap.set Channel.blank (s.core dst).chans ch { (s.core dst).chan ch with held := ((s.core dst).chan ch).held + 1 }
          ∧ e.ops = (s.core dst).ops ∧ e.pc = (s.core dst).pc ∧ e.s = (s.core dst).s
          ∧ (let x := (s.core dst).chan ch
             let a := (s.core dst).bufAddr ch ((x.headBuf + x.held) % max 1 x.depth)
             e.store.readNat a 1 = m.srcByte.toNat ∧ e.store.readNat (a + 1) 1 = m.hint.toNat ∧ e.store.readNat (a + 2) 2 = m.len
             ∧ e.store.readNat (a + 4) 4 = m.word0.toNat ∧ e.store.readNat (a + 8) 8 = m.word1.toNat
             ∧ ∀ d, m.data = some d → (∀ j < 8192, e.store.byte (a + 16 + j) = d.payload.byte j)
                 ∧ ∀ j < d.sideLen, e.store.byte (a + 16 + 8192 + j) = d.side.byte j)))


/-! ### The vector slot and the arrays -/

/-- A vector operation issues (R187, R188, R260, R275): its results and flags, taken from its operands as the bundle issues, are in flight, the engine's
steps are counted, and `vrand` advances the generator of each lane that it writes. A generator's state is never 0, and bits of the entropy source enter
it after 2^20 draws at the latest, unless the source has failed (R274, R277). A draw advances the state by a linear recurrence that maps no two states to
one, and the output is not linear (R274). The lanes' entropy source (R277, R279): what a reseed, a failed health test and a recovery leave. What the source
gives, the recurrence's polynomial and the output are free, and event 0x0910 is module-wide (assumption 74). -/
def Obligations.VectorOpsIssue : Prop :=
  (∀ (s : State) (k : Nat) (b : Bundle), SMap.wf Core.blank s.cores = true → s.issues k b = true → b.onlyVec →
    ∀ e ∈ vectorRows, b.vec.op = e.2 →
      let c := (s.core k).ungate.countPass
      let l := if e.2 = .rand then c.draw s.free k (8192 / laneBits b.vec.w) else []
      let r := c.vecResult b.vec (l.map (·.2))
      let d : Core := { c.drawn (l.map (·.1)) with
        ops := c.ops ++ [{ bundle := c.pc, writes := r.1, busy := b.vec.writes, flags := r.2, vec := true }] }
      ∃ t, exec (e.1 k) s = .next t ∧ t.core k = d.endBody c.pc 4 ∧ (∀ j, j ≠ k → t.core j = s.core j)
        ∧ t = { s with cores := t.cores, free := if e.2 = .rand then s.free + 1 else s.free
                       parts := ((s.count (s.partOf k) 1 b.vec.occupancy).count (s.partOf k) 2 1).parts })
  ∧ (∀ s : State, ∀ k < 256,
    ((s.core k).entropyFail = false → exec (.vrandReseed k) s = .next ((s.setCore k
        ((s.core k).drawn ((List.range 256).map fun i => ((s.core k).lane i).mix s.free k i))).tick))
    ∧ ((s.core k).entropyFail = true → exec (.vrandReseed k) s = .next s ∧ exec (.coreEntropyFail k) s = .next s)
    ∧ ((s.core k).entropyFail = false → exec (.coreEntropyFail k) s =
        .next ((s.setCore k { s.core k with entropyFail := true }).raise { status := 0x0910, words := [k] }))
    ∧ exec (.coreEntropyRecover k) s = .next (s.setCore k { s.core k with entropyFail := false }))
  ∧ (∀ (g : LaneGen) (fails : Bool) (n k i : Nat),
      (g.draw fails n k i).1.st ≠ 0 ∧ (g.mix n k i).st ≠ 0 ∧ (g.mix n k i).draws = 0
      ∧ (g.draw fails n k i).1.draws = (if fails = false ∧ 2 ^ 20 ≤ g.draws then 1 else g.draws + 1)
      ∧ (g.st ≠ 0 → g.draws < 2 ^ 20 ∨ fails = true → (g.draw fails n k i).1.st = laneNext g.st)
      ∧ (g.draw fails n k i).2 = laneOut (g.draw fails n k i).1.st)
  ∧ (∀ x y : BitVec 128, laneNext (x ^^^ y) = laneNext x ^^^ laneNext y ∧ (laneNext x = laneNext y → x = y))
  ∧ (∃ x y : BitVec 128, laneOut (x ^^^ y) ≠ laneOut x ^^^ laneOut y)
  ∧ (∀ (c : Core) (n k count i : Nat), i < count →
      (c.drawn ((c.draw n k count).map (·.1))).lane i = ((c.lane i).draw c.entropyFail n k i).1
      ∧ ((c.draw n k count).map (·.2))[i]? = some ((c.lane i).draw c.entropyFail n k i).2)

/-- Lane `i` of a register whose lanes have `w` bits (R163). -/
def laneAt (w : Nat) (v : BitVec 8192) (i : Nat) : Nat := (v.extractLsb' (w * i) w).toNat

/-- A register and flags that a function of the lane number makes: each lane's result, and the flags of all of them. -/
def lanesMade (w : Nat) (r : BitVec 8192 × Flags) (f : Nat → Nat × Flags) : Prop :=
  (∀ i < 8192 / w, laneAt w r.1 i = (f i).1 % 2 ^ w) ∧ r.2 = ((List.range (8192 / w)).map fun i => (f i).2).foldl (· ||| ·) 0

/-- What the vector operations compute, lane by lane (R188, R201, R202, R263, R264, R270, R437 to R442): the arithmetic of lane i of the operands is
that of one binary32 or binary64 number, and its flags are those of all lanes; the special values of each. -/
def Obligations.VectorLanes : Prop :=
  (∀ (c : Core) (v : Vec) (n : List W64),
    let f := Fmt.ofW v.w
    let lb := laneBits v.w
    let rm := Rnd.ofCode v.rnd
    let a := fun i => laneAt lb (c.vreg v.a) i
    let b := fun i => laneAt lb (c.vreg v.b) i
    let x := fun i => laneAt lb (c.vreg v.c) i
    let made (g : Nat → Nat × Flags) : Prop :=
      ∃ r, (c.vecResult v n).1 = [.v v.d r] ∧ lanesMade lb (r, (c.vecResult v n).2) g
    (v.op = .add → made fun i => fadd f rm (a i) (b i)) ∧ (v.op = .sub → made fun i => fsub f rm (a i) (b i))
    ∧ (v.op = .mul → made fun i => fmul f rm (a i) (b i)) ∧ (v.op = .fma → made fun i => ffma f rm (a i) (b i) (x i))
    ∧ (v.op = .div → made fun i => fdiv f rm (a i) (b i)) ∧ (v.op = .sqrt → made fun i => fsqrt f rm (a i))
    ∧ (v.op = .min → made fun i => fminmax f false (a i) (b i)) ∧ (v.op = .max → made fun i => fminmax f true (a i) (b i))
    ∧ (v.op = .cmp → made fun i => (if (fcmp f v.fn (a i) (b i)).1 then 2 ^ lb - 1 else 0, (fcmp f v.fn (a i) (b i)).2))
    ∧ (v.op = .sel → made fun i => (if x i = 0 then b i else a i, 0))
    ∧ (v.op = .bcs → made fun _ => ((c.sreg v.s).toNat, 0))
    ∧ (v.op = .func → made fun i => vfunLane v.w v.fn rm (a i))
    ∧ (v.op = .rand → n.length = 8192 / lb → made fun i => (vrandLane v.w v.fn (n.getD i 0), 0))
    ∧ (v.op = .cvt → cvtOk v.fn = true →
        let db := cvtBits (cvtDst v.fn)
        let sb := cvtBits (cvtSrc v.fn)
        ∃ r, (c.vecResult v n).1 = [.v v.d r]
          ∧ (db < sb → ∀ i < 8192 / sb,
              laneAt db r (cvtPart v.fn * (8192 / sb) + i) = (narrowLane v.fn rm (c.sreg v.s) i (laneAt sb (c.vreg v.a) i)).1 % 2 ^ db)
          ∧ (db < sb → ∀ j < 8192 / db, (j < cvtPart v.fn * (8192 / sb) ∨ (cvtPart v.fn + 1) * (8192 / sb) ≤ j) →
              laneAt db r j = laneAt db (c.vreg v.d) j)
          ∧ (sb < db → ∀ i < 8192 / db,
              laneAt db r i = (widenLane v.fn (c.sreg v.s) i (laneAt sb (c.vreg v.a) (cvtPart v.fn * (8192 / db) + i))).1 % 2 ^ db))
    ∧ (v.op = .upd → updOp v.fn = 0 → ∃ w m u, (c.vecResult v n).1 = [.v v.d w, .v v.b m, .v v.c u] ∧ ∀ i < 256,
        let y := updLane (c.hyper v.s) (laneAt 32 (c.vreg v.a) i, 0) (laneAt 32 (c.vreg v.b) i, 0) (laneAt 32 (c.vreg v.c) i, 0)
          (laneAt 32 (c.vreg v.d) i, 0)
        laneAt 32 m i = y.1.1 % 2 ^ 32 ∧ laneAt 32 u i = y.2.1.1 % 2 ^ 32 ∧ laneAt 32 w i = y.2.2.1 % 2 ^ 32)
    ∧ (v.op = .upd → updOp v.fn = 1 → ∃ w line, (c.vecResult v n).1 = [.v v.d w, .v v.b line] ∧
        let old := c.vreg v.b
        let m0 := fun i => fmul .f32 .tiesEven (z8Decode (laneAt 8 old i) 32).toF32 (laneAt 32 old (128 + i / 64))
        let u0 := fun i => fmul .f32 .tiesEven (z8Decode (laneAt 8 old (256 + i)) 32).toF32 (laneAt 32 old (132 + i / 64))
        let y := fun i => updLane (c.hyper v.s) (laneAt 32 (c.vreg v.a) i, 0) (m0 i) (u0 i) (laneAt 32 (c.vreg v.d) i, 0)
        let mb := fun j => blockEncode ((List.range 64).map fun i => (y (64 * j + i)).1.1)
        let ub := fun j => blockEncode ((List.range 64).map fun i => (y (64 * j + i)).2.1.1)
        (∀ i < 256, laneAt 32 w i = (y i).2.2.1 % 2 ^ 32 ∧ laneAt 8 line i = (mb (i / 64)).2.1.getD (i % 64) 0 % 256
          ∧ laneAt 8 line (256 + i) = (ub (i / 64)).2.1.getD (i % 64) 0 % 256)
        ∧ ∀ j < 4, laneAt 32 line (128 + j) = sigmaCode (mb j).1 % 2 ^ 32 ∧ laneAt 32 line (132 + j) = sigmaCode (ub j).1 % 2 ^ 32)
    ∧ (v.op = .upd → updOp v.fn = 2 → ∃ d e x, (c.vecResult v n).1 = [.v v.d d, .v v.b e, .v v.c x] ∧
        let q := fun i => fadd .f32 .tiesEven (laneAt 32 (c.vreg v.a) i) (laneAt 32 (c.vreg v.b) i)
        let bl := fun j => blockEncode ((List.range 64).map fun i => (q (64 * j + i)).1)
        let code := fun i => (bl (i / 64)).2.1.getD (i % 64) 0
        let part := 256 * updPart v.fn
        let slot := 8 + 4 * updSlot v.fn
        (∀ i < 256, laneAt 8 d (part + i) = code i % 256 ∧ laneAt 32 e i = (errorTerm (code i) (sigmaCode (bl (i / 64)).1) (q i)).1 % 2 ^ 32)
        ∧ (∀ i < 1024, i < part ∨ part + 256 ≤ i → laneAt 8 d i = laneAt 8 (c.vreg v.d) i)
        ∧ (∀ j < 4, laneAt 32 x (slot + j) = sigmaCode (bl j).1 % 2 ^ 32)
        ∧ (∀ i < 256, i < slot ∨ slot + 4 ≤ i → laneAt 32 x i = laneAt 32 (c.vreg v.c) i))
    ∧ (v.op = .red →
        let y := (vredLane v.w v.fn rm (c.vreg v.a)).1
        ∃ r x, (c.vecResult v n).1 = [.v v.d r, .s v.s x] ∧ y < 2 ^ lb ∧ laneAt lb r 0 = y ∧ (∀ i, 1 ≤ i → i < 8192 / lb → laneAt lb r i = 0)
          ∧ x.toNat = y))
  ∧ (∀ w : Bool,
      let f := Fmt.ofW w
      ∀ rm x y, x < 2 ^ laneBits w → y < 2 ^ laneBits w →
        (∀ sg q p, f.decode x = .nan sg q p → ∀ g ∈ [fadd f rm, fsub f rm, fmul f rm, fdiv f rm, fminmax f true, fminmax f false],
          (g x y).1 = f.quietNan sg p)
        ∧ ((f.decode x).isNan = false → (f.decode y).isNan = false →
            fadd f rm x y = fadd f rm y x ∧ fmul f rm x y = fmul f rm y x
            ∧ ((f.decode y).isZero = true → (f.decode x).isZero = true → fdiv f rm x y = (f.canonNan, Flags.invalid))
            ∧ (∀ sg m e, f.decode x = .fin sg m e → m ≠ 0 → (f.decode y).isZero = true →
                fdiv f rm x y = (f.infCode (sg != (f.decode y).neg), Flags.divZero))
            ∧ ((f.decode x).neg = true → (f.decode x).isZero = false → fsqrt f rm x = (f.canonNan, Flags.invalid))
            ∧ (∀ sg m e, f.decode x = .fin sg m e → f.round rm sg m e = (x, 0))))

/-- The array slot (R190 to R195, R232, R234, R239): `bridle` and `stream` read their tiles as they issue and queue in the array; `drain` names the oldest
tile that no drain names, and where there is none carries 0x090e; a poisoned line gives 0x0905. An operation that carries a status stands in its
array's order like any other (R194, R196). -/
def Obligations.ArraySlotQueues : Prop :=
  ∀ (s : State) (k : Nat) (b : Bundle), SMap.wf Core.blank s.cores = true → s.issues k b = true → b.onlyArr →
    let c := (s.core k).ungate.countPass
    let a := b.arr
    let x := c.array a.arr
    let tile (i : Nat) : TileData :=
      let h := c.treg i
      let n := if h.fmt.toNat = 1 then 1024 else if h.fmt.toNat = 3 then 128 else 0
      { fmt := h.fmt.toNat, payload := c.store.slice h.addr.toNat 8192, side := c.store.slice (h.addr.toNat + 8192) n, sideLen := n }
    let bad : Bool := a.tiles.any fun i => c.readPoison (c.treg i).addr.toNat (8192 + (tile i).sideLen)
    (a.op = .bridle →
      let st : Stationary := { fmt := a.fmt, depth := shapeDepth a.shape, rs := a.rs, tiles := a.tiles.map tile }
      ∃ t, exec (.bridle k) s = .next t ∧ s.issued t k (c.setArray a.arr { x with
        bridles := x.bridles ++ [{ bundle := c.pc, stat := st, bad := if bad then 0x0905 else 0 }], latest := some st, issued := x.issued + 1 }))
    ∧ (a.op = .stream → ∃ t u, exec (.stream k) s = .next t ∧ s.issued t k (c.setArray a.arr u)
        ∧ u.streams = x.streams ++ [{ bundle := c.pc, fmt := a.fmt, kind := a.kind, shape := a.shape, first := a.first, last := a.last, rq := a.rq
                                      tiles := a.tiles.map tile, stat := x.latest.getD { fmt := 0, depth := 0, rs := false, tiles := [] }
                                      bridlesBefore := x.issued, bad := if bad then 0x0905 else 0 }]
        ∧ u.tiles = (if a.last then x.tiles + 1 else x.tiles)
        ∧ (a.last = true → u.acc = none) ∧ (a.last = false → a.first = true ∨ x.acc = none → u.acc = some (a.fmt, a.kind, a.shape)))
    ∧ (a.op = .drain → ∃ t, exec (.drain k) s = .next t ∧ s.issued t k (c.setArray a.arr { x with
        tiles := x.tiles - 1
        drains := x.drains ++ [{ bundle := c.pc, fmt := a.fmt, t := a.t, addr0 := (c.treg a.t).addr.toNat, addr1 := (c.treg (a.t + 1)).addr.toNat
                                 bad := if x.tiles = 0 then 0x090e
                                   else if a.tiles.any fun i => c.writePoison (c.treg i).addr.toNat 8192 then 0x0905 else 0 }] }))

/-- The arrays' work in its order (R236, R237, R248, R249): when a bridle and a stream start and what they hold then; completion; and how the
products reach the live set (R242, R244), move to the tail set (R195), and are drained as bytes of the output format (R240). -/
def Obligations.ArraysWorkInOrder : Prop :=
  ∀ s : State, ∀ k < 256, ∀ arr < 2,
    let c := s.core k
    let b : Bool := arr == 1
    let x := c.array b
    (∀ o rest, x.bridles = o :: rest →
      (o.started = false → (x.nextStat = none ∨ ∀ st ∈ x.streams, st.started = true ∨ st.bridlesBefore ≠ x.issued - x.bridles.length) →
        exec (.bridleStart k arr) s = .next (s.setCore k (c.setArray b
          { x with bridles := { o with started := true } :: rest, begun := x.begun + 1, nextStat := none })))
      ∧ (o.started = true → exec (.bridleComplete k arr) s = .next (
          let u := (s.setCore k (c.setArray b { x with
            bridles := rest, nextStat := if x.issued - x.bridles.length + 1 ≤ x.taken then none else some o.stat })).count (s.partOf k) 0 64
          (if o.bad = 0 then u else u.endRoutine k o.bad.toNat o.bundle).settleCore k)))
    ∧ (∀ st rest, x.streams = st :: rest →
      (st.started = false → st.bridlesBefore ≤ x.begun → ∃ y, exec (.streamStart k arr) s = .next (s.setCore k (c.setArray b y))
        ∧ y.streams = { st with started := true } :: rest
        ∧ (x.taken < st.bridlesBefore → y.liveStat = some st.stat ∧ y.taken = st.bridlesBefore)
        ∧ (st.bridlesBefore ≤ x.taken → y.liveStat = x.liveStat ∧ y.taken = x.taken))
      ∧ (st.started = true → exec (.streamComplete k arr) s = .next (
          let u := (s.setCore k (c.setArray b { x with
            streams := rest, landing := x.landing ++ [st] })).count (s.partOf k) 0 (st.vectors * pairSteps st.fmt)
          (if st.bad = 0 then u else u.endRoutine k st.bad.toNat st.bundle).settleCore k)))
    ∧ (∀ st rest, x.landing = st :: rest →
      (st.last = true → x.tailFull = true → (∀ d ∈ x.drains, d.bad = 0x090e) → exec (.productsLanded k arr) s =
        .next (((s.setCore k (c.setArray b { x with landing := rest })).endRoutine k 0x090d st.bundle).settleCore k))
      ∧ (st.last = true → x.tailFull = true → (∃ d ∈ x.drains, d.bad ≠ 0x090e) → exec (.productsLanded k arr) s = .next s)
      ∧ (st.last = false ∨ x.tailFull = false → ∃ y, exec (.productsLanded k arr) s = .next ((s.setCore k (c.setArray b y)).settleCore k)
          ∧ y.landing = rest ∧ y.streams = x.streams ∧ y.drains = x.drains
          ∧ let live := if st.last then y.tail else y.live
            (st.last = true → y.live = [] ∧ y.tailFull = true) ∧ (st.last = false → y.tail = x.tail ∧ y.tailFull = x.tailFull)
            ∧ ∀ a < 4096,
                let before : W32 := if st.first then 0 else SMap.get 0 x.live a
                SMap.get 0 live a = match st.term a with
                  | none => before
                  | some v => BitVec.ofNat 32 (arrAdd before.toNat v)))
    ∧ (∀ d rest, x.drains = d :: rest → d.bad = 0x090e → exec (.drainComplete k arr) s =
        .next (((s.setCore k (c.setArray b { x with drains := rest })).endRoutine k 0x090e d.bundle).settleCore k))
    ∧ (∀ d rest, x.drains = d :: rest → x.tailFull = true → d.bad ≠ 0x090e → d.bad ≠ 0 → exec (.drainComplete k arr) s =
        .next (((s.setCore k (c.setArray b { x with drains := rest, tail := [], tailFull := false })).endRoutine k d.bad.toNat d.bundle).settleCore k))
    ∧ (∀ d rest, x.drains = d :: rest → x.tailFull = true → d.bad = 0 → ∃ e, exec (.drainComplete k arr) s = .next ((s.setCore k e).settleCore k)
        ∧ e.array b = { x with drains := rest, tail := [], tailFull := false } ∧ e.ops = c.ops ∧ e.v = c.v ∧ e.s = c.s
        ∧ (d.fmt = 1 → ∀ i < 4096, e.store.readNat (d.addr0 + 2 * i) 2 = (z16Encode .tiesEven (SMap.get 0 x.tail i).toNat).1 % 2 ^ 16)
        ∧ (2 ≤ d.fmt → ∀ i < 4096, e.store.byte (d.addr0 + i) = BitVec.ofNat 8 (z8Encode .tiesEven (SMap.get 0 x.tail i).toNat 32).1)
        ∧ (d.fmt = 0 → d.addr0 + 8192 ≤ d.addr1 ∨ d.addr1 + 8192 ≤ d.addr0 → ∀ i < 2048,
            e.store.readNat (d.addr0 + 4 * i) 4 = (SMap.get 0 x.tail i).toNat
            ∧ e.store.readNat (d.addr1 + 4 * i) 4 = (SMap.get 0 x.tail (2048 + i)).toNat)
        ∧ (∀ a, (a < d.addr0 ∨ d.addr0 + 8192 ≤ a) → (d.fmt ≠ 0 ∨ a < d.addr1 ∨ d.addr1 + 8192 ≤ a) → e.store.byte a = c.store.byte a))


/-! ### The span -/

/-- The span commands (R293 to R298, R310, R316, R322 to R324): each is refused with the first status its list gives, or carried out: MAP enters its
mapping for every extent named; UNMAP scrubs and removes them; MODE changes mode and sealing; HINT hints and places tiles; SCRUB clears them; REHOME
starts every written tile moving. A command that has to wait for tiles completes later. MODE, HINT and REHOME that would have to read a poisoned tile
are refused with 0x0318 after their other checks, and say that they read it (R319); what MODE and HINT read meets its codewords first, once the checks
before let it come to that (R318). The order of the checks is assumptions 20 and 35, 0x0318 after the others is 34, and what takes effect at
acceptance is 35 (all DEDUCED). -/
def Obligations.SpanCommands : Prop :=
  ∀ (s : State) (o : RingId) (ref : CmdRef) (c : BitVec 512),
    let n := spnPart c
    let exts := spnExts c
    let u := s.started o
    (s.starts o 0x30 ref c = true →
      let ro := decide (cmdField c 0x22 1 = 1)
      s.carriesOut o (.map o) ref (u.partChecks n (mapFieldsOk c) 0x0316 ++ [
          (!u.envHeld n (cmdField c 0x20 2), 0x0316), (exts.any fun e => (u.extent n e).isSome, 0x0310),
          (!ro && decide (u.shareBytes n < ((u.ownExtents n).length + exts.length) * 2359296), 0x0311),
          (decide (u.extFree < exts.length), 0x0312), (ro && !u.ownsAll (cmdField c 0x23 1) exts, 0x0313),
          (ro && u.shareBars (cmdField c 0x23 1) n, 0x061b),
          (cmdField c 0x1f 1 == 2 && decide (keepWarmLimit (u.part n).hbm.toNat < (u.keepWarmTiles n + 256 * exts.length) * 9216), 0x0314)])
        fun t => (exts.foldl (fun t e => t.setExtent n e (some (mapExtent c))) t).complete ref 0)
    ∧ (s.starts o 0x31 ref c = true →
      s.carriesOut o (.unmap o) ref (u.partChecks n (spnRangeOk c (2 ^ 21) 65536 && spnUnused c false false false false) 0x0316 ++ [
          (u.anyUnmapped n exts, 0x0313), (u.anyShared n exts, 0x0317)])
        fun t => (exts.foldl (fun t e => t.unmapOne n e) t).addJob
          { kind := .unmap, ref := some ref, part := n, lo := spnLo c, hi := spnLo c + 256 * exts.length }
          (exts.all fun e => match t.extent n e with
            | some x => x.ro
            | none => true))
    ∧ (s.starts o 0x32 ref c = true → ∀ errs,
      let m := cmdField c 0x1d 1
      let sealing := exts.filter fun e => decide (4 ≤ m) && (match u.extent n e with
        | some x => !x.isSealed
        | none => false)
      let checks := u.partChecks n (spnRangeOk c (2 ^ 21) 65536 && spnModeOk c && spnUnused c true false false false) 0x0316 ++ [
          (u.anyUnmapped n exts, 0x0313), (u.anyRo n exts, 0x0319), (u.anyShared n exts, 0x0317)]
      let v := if firstFail checks = none then u.meetSlots n (u.writtenSlots n sealing) errs else u
      let bad := v.poisonedSlots n sealing
      s.readsAndCarriesOut v (.mode ⟨o, errs⟩) ref n 0x0318 bad (checks ++ [(!bad.isEmpty, 0x0318)])
        fun t => (exts.foldl (fun t e => t.setMode n e m (cmdField c 0x1e 1)) t).complete ref 0)
    ∧ (s.starts o 0x33 ref c = true → ∀ errs,
      let h := cmdField c 0x1f 1
      let core := cmdField c 0x24 2
      let j : SpanJob := { kind := .hint, ref := some ref, part := n, lo := spnLo c, hi := spnHi c }
      let checks := u.partChecks n
          (spnRangeOk c 8192 16777216 && decide (h ≤ 3) && spnUnused c false true false (h == 3)) 0x0316 ++ [
          (u.anyUnmapped n (tileExts c), 0x0313), (u.anyRo n (tileExts c), 0x0319), (h == 3 && !u.nearFits n core (tileSlots c), 0x0315),
          (h == 2 && decide (keepWarmLimit (u.part n).hbm.toNat < u.warmAfter n h (tileSlots c) * 9216), 0x0314)]
      let v := if h = 3 ∧ firstFail checks = none then u.meetSlots n (u.nearReads n core (tileSlots c)) errs else u
      let bad := if h = 3 then (tileSlots c).filter fun x => (v.tile n x).poisoned else []
      s.readsAndCarriesOut v (.hint ⟨o, errs⟩) ref n 0x0318 bad (checks ++ [(!bad.isEmpty, 0x0318)])
        fun t => let v := (tileSlots c).foldl (fun t x => t.hintTile n h core x) t
                 v.addJob j (v.jobSettled j))
    ∧ (s.starts o 0x34 ref c = true →
      s.carriesOut o (.scrub o) ref (u.partChecks n (spnRangeOk c 8192 16777216 && spnUnused c false false false false) 0x0316 ++ [
          (u.anyUnmapped n (tileExts c), 0x0313), (u.anyRo n (tileExts c), 0x0319)])
        fun t => (t.scrubRange n (spnLo c) (spnHi c)).addJob { kind := .scrub, ref := some ref, part := n, lo := spnLo c, hi := spnHi c } false)
    ∧ (s.starts o 0x35 ref c = true →
      let j : SpanJob := { kind := .rehome, ref := some ref, part := n, lo := spnLo c, hi := spnLo c + 256 * exts.length }
      s.readsAndCarriesOut u (.rehome o) ref n 0x0318 (u.poisonedSlots n exts)
        (u.partChecks n (spnRangeOk c (2 ^ 21) 65536 && spnUnused c false false false false) 0x0316 ++ [
          (u.anyUnmapped n exts, 0x0313), (u.anyRo n exts, 0x0319), (!(u.poisonedSlots n exts).isEmpty, 0x0318)])
        fun t =>
          let v := ((t.tilesOf n).filter fun e => decide (j.lo ≤ e.1) && decide (e.1 < j.hi) && !e.2.fresh && e.2.moving.isNone).foldl
            (fun v e => v.setTile n e.1 { v.tile n e.1 with moving := some e.2.tier2 }) t
          v.addJob j (v.jobSettled j))

/-- What the mappings and tiles then are (R294, R301, R322): a mapping entered is there and no other changes; an unmapped extent is gone; a scrubbed
tile reads as zeros, clear of poison and hint, its near copy overwritten with zeros, and a tile of another slot or partition stays. A written tile is
stored with its extent's mode, the units, fold state and CRC-64 of its stream (R305, R309), at a location chosen afresh with every write (R313 as
assumption 73 reads it); a near copy takes the bytes written (R300); and a hint that waited for its migration then is the tile's (R301). Its stored
units are the stream's, each encrypted under the tweak of its place (R288, R311, R312). -/
def Obligations.MappingsAndScrubs : Prop :=
  ∀ (s : State) (n : Nat),
    (∀ (l : List Nat) (m : Extent), SMap.wf none s.spn.extents = true → (∀ e ∈ l, e < 2 ^ 31) →
      let u := l.foldl (fun t e => t.setExtent n e (some m)) s
      (∀ e ∈ l, u.extent n e = some m) ∧ (∀ p e, e < 2 ^ 31 → (p ≠ n ∨ e ∉ l) → u.extent p e = s.extent p e)
      ∧ u = { s with spn := { s.spn with extents := u.spn.extents } })
    ∧ (∀ e < 2 ^ 31, SMap.wf none s.spn.extents = true → (s.unmapOne n e).extent n e = none)
    ∧ (∀ slot < 2 ^ 39, SMap.wf Tile.blank s.spn.tiles = true →
      (s.scrubTile n slot).tile n slot = Tile.blank ∧ (s.scrubTile n slot).tileData n slot = {}
      ∧ (∀ p x, x < 2 ^ 39 → (p ≠ n ∨ x ≠ slot) → (s.scrubTile n slot).tile p x = s.tile p x)
      ∧ (SMap.wf Core.blank s.cores = true → ∀ k a, s.nearAddr (s.tile n slot) = some (k, a) →
          ∀ i < 9216, ((s.scrubTile n slot).core k).store.byte (a + i) = 0))
    ∧ (∀ slot < 2 ^ 39, SMap.wf Tile.blank s.spn.tiles = true → ∀ (e : Extent) (d : TileData),
      let u := s.writeTile n slot e d
      let x : TileData := if e.mode = 1 then { d with payload := trimPayload d.fmt e.trim.toNat d.payload } else d
      ((s.tile n slot).nextHint = none →
        u.tile n slot = { u.tile n slot with
          fresh := false, poisoned := false, moving := none, data := x, mode := e.mode, isSealed := e.isSealed, trim := e.trim, raw := none
          units := unitsOf e.isSealed (tileStream e.isSealed e.trimN x).1.length
          isFolded := (tileStream e.isSealed e.trimN x).2
          crc := crc64 (tileStream e.isSealed e.trimN x).1, placed := (s.tile n slot).placed + 1
          nearCore := (s.tile n slot).nearCore, hint := (s.tile n slot).hint }
        ∧ ((s.tile n slot).nearCore = none → u.tileData n slot = x)
        ∧ (SMap.wf Core.blank s.cores = true → ∀ k a, s.nearAddr (s.tile n slot) = some (k, a) → x.sideLen ≤ 1024 →
            (∀ i < 8192, (u.core k).store.byte (a + i) = x.payload.byte i)
            ∧ ∀ i < x.sideLen, (u.core k).store.byte (a + 8192 + i) = x.side.byte i))
      ∧ (∀ h core, (s.tile n slot).nextHint = some (h, core) → (u.tile n slot).hint = some h ∧ (u.tile n slot).nextHint = none))
    ∧ (∀ slot, (s.tile n slot).raw = none → s.storedUnits n slot =
        sealUnits (s.slotKey n slot) slot (streamUnits (s.tile n slot).units (s.tile n slot).stream))
    ∧ (∀ (key : BitVec 512) slot (l : List (List Byte)), sealUnits key slot l =
        (l.zipIdx.map fun u => xtsEncrypt (wordBytes key) (32 * slot + u.2) u.1).flatten)

/-- Accesses of cores to the span (R183, R184, R283, R285, R294, R300, R318, R319), and what the span controller does of itself (R296, R301, R314,
R315, R321, R324): each access is served once no earlier one of its core names the slot, with its data or with the status that its address, its
mapping or poison gives. When a span access takes effect is assumption 72 and what accesses and the patrol meet of poison is 34 (DEDUCED); the status
of a throttled stack is a free value (assumption 12). -/
def Obligations.SpanServes : Prop :=
  ∀ s : State,
    (∀ k < 256, ∀ i o n a, (s.core k).spanDue i = some o → s.partOf k = some n →
      (∀ d q, o.span = .write a d q →
        (∀ r, s.writeStatus n a = (0, some (r, .plain)) → exec (.spanWriteAccept k i) s =
          .next ((s.coreWrite n r (a.toNat / 8192) d).served k i { o with span := .write a d true } 0))
        ∧ (s.addrRef n a = none → exec (.spanWriteAccept k i) s = .next (s.served k i o 0x090b))
        ∧ (∀ r, s.addrRef n a = some r → r.ro = true → exec (.spanWriteAccept k i) s = .next (s.served k i o 0x0911)))
      ∧ (∀ dst m, o.span = .read a dst m →
        (∀ cw, s.addrRef n a = none → exec (.spanReadComplete k i cw) s = .next (s.served k i o 0x090b))
        ∧ (∀ cw r, s.addrRef n a = some r →
          let slot := a.toNat / 8192
          let t := if (s.tile r.owner slot).nearCore.isSome then s else s.codewords r.owner slot cw
          ((t.tile r.owner slot).poisoned = true → t.isPort r.owner slot = false →
            exec (.spanReadComplete k i cw) s = .next ((t.poisonRead n slot).served k i o 0x090c))
          ∧ ((t.tile r.owner slot).poisoned = false → (t.nearPoison (t.tile r.owner slot) = true ∧ t.isPort r.owner slot = false)
              ∨ (t.core k).writePoison dst (8192 + m) = true →
            exec (.spanReadComplete k i cw) s = .next (t.served k i o 0x0905))
          ∧ ((t.tile r.owner slot).poisoned = false → t.nearPoison (t.tile r.owner slot) = false →
              (t.core k).writePoison dst (8192 + m) = false →
            exec (.spanReadComplete k i cw) s = .next (((((t.countTier n (t.tile r.owner slot)).countRead n r slot).modCore k fun c =>
              c.storeBytes dst (8192 + m) ((t.readTile r.owner slot).bytesFor m))).served k i o 0)))))
    ∧ (∀ n < 32, ∀ slot cw t2, (s.tile n slot).moving = some t2 →
        let w := s.codewords n slot cw
        let t := w.tile n slot
        let u : Tile := { t with tier2 := t2, moving := none, savedMark := t.savedMark && t2, placed := t.placed + 1 }
        exec (.migrationComplete n slot cw) s = .next (((((w.countTier n { t with nearCore := none }).countTier n { u with nearCore := none }).setTile n slot
          u).applyHint n slot).promoteWarm n slot).settleJobs)
    ∧ (∀ n < 32, ∀ slot, (s.tile n slot).fresh = false → s.hintOf n slot (s.tile n slot) = 1 → (s.tile n slot).tier2 = false →
        (s.tile n slot).moving = none → (s.part n).ballast ≠ 0 →
        exec (.letSinkTimeout n slot) s = .next (s.setTile n slot { s.tile n slot with moving := some true }))
    ∧ (∀ n < 32, 65536 ≤ (s.part n).reads → exec (.useCountHalving n) s = .next (((s.tilesOf n).foldl (fun t e =>
        t.setTile n e.1 { e.2 with uses := e.2.uses / 2 }) s).modPart n fun p => { p with reads := p.reads - 65536 }))
    ∧ (s.spn.ready = true →
        exec (.patrol .passStart) s = .next { s with spn := { s.spn with patrol := true } }
        ∧ exec (.patrol .passEnd) s = .next { s with spn := { s.spn with patrol := false } }
        ∧ (s.spn.patrol = true → (∀ t2, exec (.patrol (.corrected t2)) s = .next (s.corrected t2 1))
          ∧ (∀ n < 32, ∀ slot errs, exec (.patrol (.tile n slot errs)) s = .next (
              let u := s.codewords n slot errs
              if (u.tile n slot).poisoned = true ∧ (s.tile n slot).poisoned = false then
                u.spnEvent 1 { status := 0x0322, words := [8192 * slot] } else u))
          ∧ exec (.patrol .uncorrectableUnmapped) s = .next (s.spnEvent 1 { status := 0x0322 }))
        ∧ ∀ k < 12, ∀ one, s.spn.imbal = false → exec (.imbalanceRaise k one) s = .next (({ s with spn := { s.spn with
            imbal := true, imbSingle := one, imbStack := BitVec.ofNat 4 k } } : State).spnEvent 2 { status := 0x0321, words := [k] }))
    ∧ (s.spn.imbal = true → exec .imbalanceClear s = .next { s with spn := { s.spn with imbal := false, imbSingle := false, imbStack := 0 } })
    ∧ (∀ k < 12, (s.su.rails = true → k ∉ s.spn.throttled → exec (.stackThrottle k) s =
          .next (({ s with spn := { s.spn with throttled := k :: s.spn.throttled } } : State).spnEvent 3
            { status := unlistedCode 2, words := [k] }))
        ∧ ∃ t, exec (.stackThrottleEnd k) s = .next t ∧ k ∉ t.spn.throttled ∧ ∀ j, j ≠ k → (j ∈ t.spn.throttled ↔ j ∈ s.spn.throttled))
    ∧ (∀ (i : Nat) j, s.spn.jobs[i]? = some j →
        let t := { s with spn := { s.spn with jobs := listDrop s.spn.jobs i } }
        (j.kind = .unmap ∨ j.kind = .scrub → exec (.scrubComplete i) s = .next (t.completeOpt j.ref 0))
        ∧ (j.kind = .partDelete → s.deleteDue j.part = true → exec (.scrubComplete i) s = .next ((t.erasePart j.part).completeOpt j.ref 0)))


/-! ### Sequences, gondolas, reels and the batcher -/

/-- Sequences (R328 to R335, R354, R360): SEQ_OPEN, once its table's codewords are met, takes the slot and, with a gondola, a reference to its current
version; SEQ_CLOSE makes it ending and waits; an ending sequence that no step includes starts its scrub and gives its reference back, to the retiring
version where it is that one's, after which a cut or withdrawing descriptor without references is Releasing; a completed scrub frees the slot and says
so. The order of SEQ_OPEN's checks is assumption 38 (DEDUCED). -/
def Obligations.SequencesLive : Prop :=
  ∀ s : State,
    (∀ o ref c, s.starts o 0x38 ref c = true → ∀ errs,
      let x := newSeq c
      let slot := seqNo c
      let u := s.started o
      let bytes := 8 * x.pages.toNat * x.layers.toNat
      let first := u.partChecks x.part (slotOk slot) 0x0914 ++ [
        (decide ((u.seq slot).st ≠ .free), 0x0913), (!seqFieldsOk c || decide (u.partOf (slot / 6) ≠ some x.part), 0x0914)]
      let v := if firstFail first = none then u.meetCodewords x.part x.table.toNat bytes errs else u
      s.readsAndCarriesOut v (.seqOpen ⟨o, errs⟩) ref x.part 0x0318 (v.poisonedIn x.part x.table.toNat bytes)
        (first ++ [(!(v.poisonedIn x.part x.table.toNat bytes).isEmpty, 0x0318), (!v.pagesOk x, 0x0915)] ++ v.admission x)
        fun t =>
          let w := t.countReads x.part x.table.toNat bytes
          let d := w.gondola x.gondola.toNat
          (if x.gondola = 0xffff then w.setSeq slot x
            else (w.setSeq slot { x with version := d.version }).setGondola x.gondola.toNat ({ d with refs := d.refs + 1 }.progressBy 1 1)).complete ref 0)
    ∧ (∀ o ref c, s.starts o 0x39 ref c = true →
      let slot := seqNo c
      let u := s.started o
      let x := u.seq slot
      s.carriesOut o (.seqClose o) ref (u.partChecks (seqPart c)
          (slotOk slot && seqIdent c != 0 && cmdZero c 0x10 8 && cmdZero c 0x1d 1 && cmdZero c 0x20 32) 0x0914 ++ [
          (decide (x.st = .free) || decide (x.ident.toNat ≠ seqIdent c) || decide (x.part ≠ seqPart c), 0x0916)])
        fun t => (t.setSeq slot { t.seq slot with
          closers := (t.seq slot).closers ++ [ref], closed := (t.seq slot).closed || decide ((t.seq slot).st = .opened) }).endSeq slot 0)
    ∧ (∀ n < 1536, ∀ st : W16, SMap.wf Core.blank s.cores = true → SMap.wf SeqSlot.blank (s.core (n / 6)).slots = true → (s.seq n).st = .opened →
      ((s.endSeq n st).seq n).endStatus = st ∧ ((s.endSeq n st).seq n).fed = none
      ∧ ((s.endSeq n st).seq n).st = (if (s.seq n).inStep then .ending else .scrubbing)
      ∧ ∀ m < 1536, m ≠ n → (s.endSeq n st).seq m = s.seq m)
    ∧ (∀ n < 1536, ∀ st : W16, SMap.wf Core.blank s.cores = true → SMap.wf SeqSlot.blank (s.core (n / 6)).slots = true → SMap.wf Gondola.blank s.gon.table = true →
      (s.seq n).st = .opened →
      let x := s.seq n
      let g := x.gondola.toNat
      let d := s.gondola g
      let y := if d.hasRetiring = true ∧ x.version = d.retVersion then { d with retRefs := d.retRefs - 1 } else { d with refs := d.refs - 1 }
      (x.gondola = 0xffff ∨ x.inStep = true → ∀ h, (s.endSeq n st).gondola h = s.gondola h)
      ∧ (x.gondola ≠ 0xffff → x.inStep = false →
        ((d.st = .cut ∨ d.st = .withdrawing) → y.refs = 0 → y.retRefs = 0 → (s.endSeq n st).gondola g = { y with st := .releasing })
        ∧ ((d.st ≠ .cut ∧ d.st ≠ .withdrawing) ∨ y.refs ≠ 0 ∨ y.retRefs ≠ 0 → (s.endSeq n st).gondola g = y)
        ∧ ∀ h, h ≠ g → (s.endSeq n st).gondola h = s.gondola h))
    ∧ (∀ (n : Nat) (st : W16), (s.seq n).st ≠ .opened → s.endSeq n st = s)
    ∧ (∀ n < 1536, (s.seq n).st = .scrubbing →
      let x := s.seq n
      let t := ((s.scrubSeq x).setSeq n {})
      let v := x.closers.foldl (fun t r => t.complete r 0 (x.endStatus.toNat + x.n.toNat * 2 ^ 32)) t
      exec (.sequenceScrubComplete n) s = .next (if x.closed then v else v.post (some x.part) (seqEntry n x.part x)))

/-- Gondolas (R356 to R371): MOOR and SWAP are accepted with a place that their own completion ends; EVICT, REVOKE and BASE_SET act at once on the
descriptors; a version is released with its tiles scrubbed and event 0x0535. What MOOR and SWAP read meets its codewords first (R318). The order of the
manifest's checks, a waiting SWAP that takes effect before EVICT or REVOKE, and the digest computed at acceptance are assumption 39 (DEDUCED). -/
def Obligations.GondolasLive : Prop :=
  ∀ s : State,
    (∀ o ref c, s.starts o 0x40 ref c = true → ∀ errs,
      let g := gonIndex c
      let n := gonPart c
      let addr := gonAddr c
      let reel := gonReel c
      let u := s.started o
      let first := u.partChecks n (tileAddrOk addr && decide (g < 16384) && (decide (reel < 16384) || reel == 0xffff)
            && decide (cmdField c 0x25 1 ≤ 2) && decide (cmdField c 0x26 1 ≤ 2) && decide (cmdField c 0x27 1 ≤ 2)
            && decide (cmdField c 0x28 2 < 16384) && cmdField c 0x30 4 != 0
            && gonUnused c true true true true true true true false true false false) 0x051a
          ++ [(decide ((u.gondola g).st ≠ .free), 0x0510)]
      let v := if firstFail first = none then u.meetVersion n addr errs else u
      s.readsAndCarriesOut v (.moor ⟨o, errs⟩) ref n 0x0512 (v.manPoisoned n addr) (first ++ v.manChecks n addr (cmdField c 0x28 2) ++ [
          (reel != 0xffff && !((v.reel reel).isOpen && decide ((v.reel reel).holder = n)), 0x0519),
          (v.residencyBad n (cmdField c 0x25 1) addr, 0x0314)])
        fun t => ((t.setGondola g (moored t c ref)).place n (cmdField c 0x25 1) addr).readVersion n addr)
    ∧ (∀ g < 16384, (s.gondola g).st = .mooring → s.placed (s.gondola g).holder (s.gondola g).manifest.toNat = true →
      exec (.moorComplete g) s = .next ((s.setGondola g { s.gondola g with
        st := if (s.gondola g).baseDigest = s.gon.base then .moored else .stranded, ref := none }).completeOpt (s.gondola g).ref 0))
    ∧ (∀ o ref c, s.starts o 0x41 ref c = true → ∀ errs,
      let g := gonIndex c
      let addr := gonAddr c
      let u := s.started o
      let d := u.gondola g
      let v := BitVec.ofNat 32 (cmdField c 0x30 4)
      let first := [
          (!(tileAddrOk addr && decide (g < 16384) && v != 0 && gonUnused c true false false true false false false false true false false), 0x051a),
          (decide (d.st ≠ .moored ∧ d.st ≠ .stranded), 0x0517), (!newer v d.version, 0x0515), (d.hasRetiring || d.swapTo.isSome, 0x0516)]
      let w := if firstFail first = none then u.meetVersion d.holder addr errs else u
      s.readsAndCarriesOut w (.swap ⟨o, errs⟩) ref d.holder 0x0512 (w.manPoisoned d.holder addr) (first
          ++ w.manChecks d.holder addr d.env.toNat ++ [(w.residencyBad d.holder d.residency.toNat addr, 0x0314)])
        fun t =>
          let m := t.manifest d.holder addr
          ((t.setGondola g { d with swapTo := some {
            manifest := BitVec.ofNat 64 addr, version := v, bindSet := m.read 128 0x10, base := m.read 384 0x20
            digest := t.gonDigest d.holder addr, ref } }).place d.holder d.residency.toNat addr).readVersion d.holder addr)
    ∧ (∀ g < 16384, ∀ v, (s.gondola g).swapTo = some v → s.placed (s.gondola g).holder v.manifest.toNat = true →
      let d := s.gondola g
      exec (.swapComplete g) s = .next ((s.setGondola g { d with
        st := if v.base = s.gon.base then .moored else .stranded, hasRetiring := true, retVersion := d.version, retRefs := d.refs
        retManifest := d.manifest, retDigest := d.digest, version := v.version, refs := 0, manifest := v.manifest, digest := v.digest
        bindSet := v.bindSet, baseDigest := v.base, swapTo := none }).complete v.ref 0))
    ∧ (∀ o ref c, s.starts o 0x42 ref c = true →
      (gonOnly c = false → exec (.evict o) s = .next ((s.started o).complete ref 0x051a))
      ∧ (gonOnly c = true →
        let u := (s.started o).endSwap (gonIndex c)
        let d := u.gondola (gonIndex c)
        (d.st ≠ .moored → d.st ≠ .stranded → exec (.evict o) s = .next (u.complete ref 0x0517))
        ∧ (d.st = .moored → d.termMet = false → exec (.evict o) s = .next (u.complete ref 0x0518))
        ∧ (d.st = .stranded ∨ (d.st = .moored ∧ d.termMet = true) →
          (d.refs + d.retRefs = 0 → exec (.evict o) s = .next (u.setGondola (gonIndex c) { d with st := .releasing, ref := some ref }))
          ∧ (d.refs + d.retRefs ≠ 0 → d.policy = 2 → exec (.evict o) s =
              .next ((u.setGondola (gonIndex c) { d with st := .withdrawing, ref := some ref }).withdraw (gonIndex c)))
          ∧ (d.refs + d.retRefs ≠ 0 → d.policy ≠ 2 → exec (.evict o) s = .next ((u.cut (gonIndex c)).complete ref 0x0519)))))
    ∧ (∀ o ref c, s.starts o 0x43 ref c = true → gonOnly c = false → exec (.revoke o) s = .next ((s.started o).complete ref 0x051a))
    ∧ (∀ o ref c, s.starts o 0x43 ref c = true → gonOnly c = true →
        let u := (s.started o).endSwap (gonIndex c)
        let d := u.gondola (gonIndex c)
        (d.st ≠ .moored → d.st ≠ .stranded → d.st ≠ .cut → exec (.revoke o) s = .next (u.complete ref 0x0517))
        ∧ (d.st = .moored ∨ d.st = .stranded ∨ d.st = .cut → exec (.revoke o) s = .next (
            if d.refs + d.retRefs = 0 then u.setGondola (gonIndex c) { d with st := .releasing, ref := some ref }
            else (u.setGondola (gonIndex c) { d with st := .withdrawing, ref := some ref }).withdraw (gonIndex c))))
    ∧ (∀ o ref c, s.starts o 0x44 ref c = true → SMap.wf Gondola.blank s.gon.table = true →
        let base : BitVec 384 := BitVec.ofNat 384 (cmdField c 0x10 48)
        ∃ t : State, exec (.baseSet o) s = .next (t.complete ref 0 (t.gon.table.filter fun e => decide (e.2.st = .stranded)).length)
          ∧ t = { s.started o with gon := { s.gon with base, table := t.gon.table } }
          ∧ ∀ g, (t.gondola g).baseDigest = (s.gondola g).baseDigest
              ∧ (t.gondola g).st = (if (s.gondola g).st = .moored ∨ (s.gondola g).st = .stranded then
                  if (s.gondola g).baseDigest = base then .moored else .stranded else (s.gondola g).st))
    ∧ (∀ g < 16384, (s.gondola g).hasRetiring = true → (s.gondola g).retRefs = 0 → (s.gondola g).st ≠ .free →
        exec (.retiringRelease g) s = .next (((s.releaseVersion (s.gondola g).holder (s.gondola g).retManifest.toNat).setGondola g
          { s.gondola g with hasRetiring := false, retVersion := 0, retRefs := 0, retManifest := 0, retDigest := 0 }).gonEvent 1
          { status := 0x0535, words := [g, (s.gondola g).retVersion.toNat] }))
    ∧ (∀ g < 16384, (s.gondola g).st = .releasing →
        let u := if (s.gondola g).hasRetiring then s.releaseRetiring g else s
        let d := u.gondola g
        exec (.gondolaReleaseComplete g) s = .next (((((u.releaseVersion d.holder d.manifest.toNat).setGondola g {}).gonEvent 1
          { status := 0x0535, words := [g, d.version.toNat] })).completeOpt d.ref 0))

/-- Reels and the batcher (R372 to R387): a reel opens and closes with its slots scrubbed; an append is numbered and dated, or dropped where the ring
is full of retained records; FEED makes a sequence ready, and the window time runs from the oldest ready sequence's (R374); a step takes the ready
sequences and ends with its step-done tile. The off form of BATCH_CFG, its second 0x051a, that no empty step starts, and REEL_CLOSE completing after
its scrub are assumption 40 (DEDUCED). -/
def Obligations.ReelsAndStepsRun : Prop :=
  ∀ s : State,
    (∀ o ref c, s.starts o 0x45 ref c = true →
      let i := gonReel c
      let n := gonPart c
      let base := gonAddr c
      let slots := cmdField c 0x18 4
      let hours := cmdField c 0x1c 4
      let u := s.started o
      let lo := base / 8192
      s.carriesOut o (.reelOpen o) ref (u.partChecks n (tileAddrOk base && decide (1 ≤ slots) && decide (slots ≤ 2 ^ 24) && decide (hours ≤ 65535)
            && decide (i < 16384) && decide (base + 8192 * (slots + 2) ≤ 2 ^ 52)
            && gonUnused c true true true false true true false false false false false) 0x0521 ++ [
          ((u.reel i).isOpen || u.spn.jobs.any (fun j => decide (j.kind = .reelClose) && decide (j.index = i)), 0x0520),
          (!u.ownsAll n ((List.range ((lo + slots + 1) / 256 - lo / 256 + 1)).map fun e => lo / 256 + e), 0x0521)])
        fun t => ((t.scrubRange n lo (lo + slots + 2)).putReel i { isOpen := true, holder := n, base := BitVec.ofNat 64 base
                                                                   slots := BitVec.ofNat 32 slots, hours := BitVec.ofNat 32 hours }).addJob
          { kind := .reelOpen, ref := some ref, part := n, lo, hi := lo + slots + 2, index := i } false)
    ∧ (∀ o ref c, s.starts o 0x46 ref c = true →
      let i := gonReel c
      let u := s.started o
      let r := u.reel i
      let lo := r.base.toNat / 8192
      s.carriesOut o (.reelClose o) ref [
          (!(decide (i < 16384) && gonUnused c false false false false true false false false false false false) || !r.isOpen, 0x051a),
          (u.gon.table.any (fun e => decide (e.2.st ≠ .free) && decide (e.2.reel.toNat = i)), 0x0522)]
        fun t => ((t.setReel i {}).scrubRange r.holder lo (lo + r.slots.toNat + 2)).addJob
          { kind := .reelClose, ref := some ref, part := r.holder, lo, hi := lo + r.slots.toNat + 2, index := i } false)
    ∧ (∀ k < 256, ∀ j o n r i a d, s.writeDue k j = some (o, n, r, .reelPort i, a, d) →
      let x := s.reel i
      let now := Config.localMs s.free
      (x.full now = false → exec (.reelAppend k j) s = .next ((((s.tick.putTile x.holder (x.base.toNat / 8192 + 2 + x.nextNo.toNat % x.slots.toNat)
          { d with payload := d.payload.splice 0 16 (Mem.ofList (bytesLE x.nextNo.toNat 8 ++ bytesLE now.toNat 8)) }).putReel i
          ({ x with nextNo := x.nextNo + 1
                    times := (if x.slots.toNat ≤ x.times.length then x.times.drop 1 else x.times) ++ [now] }.age now))).accepted k j o a d))
      ∧ (x.full now = true → exec (.reelAppend k j) s = .next ((s.tick.dropRecord i now).accepted k j o a d)))
    ∧ (∀ o ref c, s.starts o 0x47 ref c = true →
      let n := gonPart c
      let slot := cmdField c 0x2a 2
      let tok := cmdField c 0x34 2
      let u := s.started o
      let x := u.seq slot
      s.carriesOut o (.feed o) ref (u.partChecks n (slotOk slot && cmdField c 0x2c 4 != 0 && decide (1 ≤ tok) && decide (tok ≤ 256)
            && gonUnused c false false false false false true false true false true false) 0x051a ++ [
          (!(u.part n).batcher.on, 0x0532),
          (decide (x.st ≠ .opened) || decide (u.partOf (slot / 6) ≠ some n) || decide (x.ident.toNat ≠ cmdField c 0x2c 4), 0x0530),
          (x.fed.isSome || x.inStep, 0x0531)])
        fun t => ((t.setSeq slot { x with fed := some (BitVec.ofNat 16 tok), fedNo := (t.part n).batcher.feeds }).modPart n fun p =>
          { p with batcher := { p.batcher with feeds := p.batcher.feeds + 1 } }).complete ref 0)
    ∧ (∀ o ref c, s.starts o 0x48 ref c = true →
      let n := gonPart c
      let a := gonAddr c
      let time := cmdField c 0x1c 4
      let window := cmdField c 0x34 2
      let u := s.started o
      s.carriesOut o (.batchCfg o) ref (u.partChecks n (tileAddrOk a && decide (a + 16384 ≤ 2 ^ 52)
            && ((decide (1 ≤ time) && decide (time ≤ 1000000) && decide (1 ≤ window) && decide (window ≤ 1536) && decide (cmdField c 0x36 1 ≤ 1))
              || (a == 0 && time == 0 && window == 0 && cmdField c 0x36 1 == 0))
            && gonUnused c true false true false false true false false false true true) 0x051a ++ [
          (a != 0 && !u.ownsAll n [extentOf a, extentOf (a + 8192)], 0x051a)])
        fun t => (t.modPart n fun p =>
          let b := { p.batcher with next := some (BitVec.ofNat 64 a, BitVec.ofNat 32 time, BitVec.ofNat 16 window, decide (cmdField c 0x36 1 = 1)) }
          { p with batcher := if b.stepRunning then b else b.apply }).complete ref 0)
    ∧ (∀ n < 32, (s.part n).batcher.on = true → ∀ f, s.oldestFeed n = some f →
        exec (.windowTimeExpiry n) s = .next (s.modPart n fun p => { p with batcher := { p.batcher with timeUp := some f } }))
    ∧ (∀ n, s.readySeqs n ≠ [] → ∃ q ∈ s.readySeqs n, s.oldestFeed n = some (s.seq q).fedNo ∧ ∀ r ∈ s.readySeqs n, (s.seq q).fedNo ≤ (s.seq r).fedNo)
    ∧ (∀ n < 32, s.stepMay n = true →
      let b := (s.part n).batcher
      let l := s.stepEntries n
      ((s.coresIn n).all (fun k => decide (1 ≤ ((s.core k).chan 15).depth)) = true → exec (.stepStart n) s = .next (
        ((l.foldl (fun t e => t.setSeq e.slot { t.seq e.slot with fed := none, inStep := true }) s).putTile n (b.ring.toNat / 8192) (stepTile l)).modPart n
          fun p => { p with batcher := { b with
            stepNo := b.stepNo + 1, stepRunning := true, entries := l, timeUp := none, raised533 := false
            toSend := (s.coresIn n).map fun k => stepMsg n k (b.stepNo + 1) b.grouped l } }))
      ∧ ((s.coresIn n).all (fun k => decide (1 ≤ ((s.core k).chan 15).depth)) = false → b.raised533 = false → exec (.stepStart n) s = .next (
        (s.modPart n fun p => { p with batcher := { p.batcher with raised533 := true } }).raise { status := 0x0533, part := some n, words := [n] })))
    ∧ (∀ k < 256, ∀ j o n r a d, s.writeDue k j = some (o, n, r, .stepDone, a, d) →
      let b := (s.part n).batcher
      let t := (s.coreWrite n r (a.toNat / 8192) d).accepted k j o a d
      let no := d.payload.readNat 0 4
      (b.stepRunning = true → no = b.stepNo.toNat → exec (.stepDoneWrite k j) s = .next (t.endStep n d.payload a))
      ∧ (b.stepRunning = false ∨ no ≠ b.stepNo.toNat → exec (.stepDoneWrite k j) s =
          .next (t.raise { status := 0x0534, part := some n, words := [n, no] })))


/-! ### Links -/

/-- The ports train and prove who their peers are (R69, R100, R394 to R397, R401, R547, R548): what a port becomes at each event, the fault statuses
that hold it, and the keys of ports 14 to 17. When lane order counts as reversed (assumption 95), what a proof and a chain must hold (81), renewal
with the authentication's share (89), frames before the keys (87) and who may hold a port (41) are the model's readings and choices. -/
def Obligations.PortsTrainAndProve : Prop :=
  ∀ s : State, s.su.linksDriven = true → ∀ p < 18,
    let x := s.port p
    (x.st = .training →
      exec (.portPeerless p) s = .next (s.setPort p { x with st := .peerless })
      ∧ (∀ (found : List LaneIn) (peer : W32),
          let lanes := lanesIn found
          let y := { x with lanes, reversed := lanesReversed found, inverted := lanesInverted found, status := if lanes = 0xff then 0 else 0x0402 }
          let t := if lanes = 0xff then s.setPort p y
            else ((s.setPort p y).raise { status := 0x0402, words := [p, lanes.toNat] }).stageStatus 0x0402
          (lanes.toNat % 16 ≠ 15 → lanes.toNat / 16 ≠ 15 → exec (.portTrained p found peer) s = .next (t.holdPort p 0x0404))
          ∧ (lanes.toNat % 16 = 15 ∨ lanes.toNat / 16 = 15 →
              (s.wiringOk p peer = false → exec (.portTrained p found peer) s = .next (t.holdPort p 0x0401))
              ∧ (s.wiringOk p peer = true → exec (.portTrained p found peer) s = .next (t.beginAuth p)))))
    ∧ (x.st = .peerless ∨ x.st = .lost → exec (.signalDetect p) s = .next (s.setPort p { x with st := .training, wasAway := true }))
    ∧ (x.st = .authenticating →
      exec (.authTimeout p) s = .next (s.holdPort p 0x0403)
      ∧ (∀ kind body, s.takeIdentity p kind body = none → exec (.identityMessage p kind body) s = .next (s.holdPort p 0x0403))
      ∧ (∀ body : List Byte, x.auth = 0 → 4 ≤ body.length → body.length ≤ 604 → natLE (body.take 2) = x.peerChain.length →
          let chain := x.peerChain ++ body.drop 4
          let total := natLE ((body.drop 2).take 2)
          chain.length ≤ total →
          exec (.identityMessage p 1 body) s = .next (s.setPort p { x with peerChain := chain, auth := if chain.length = total then 1 else 0 }))
      ∧ (∀ body : List Byte, x.auth = 1 → body.length = (if 14 ≤ p then 133 else 36) →
          let y := { x with peerShare := body, peerEph := body.drop 36, claimed := BitVec.ofNat 32 (natLE (body.take 4)), auth := 2 }
          let t := s.setPort p y
          exec (.identityMessage p 2 body) s = .next (t.tick.sendIdentity p 3 (t.sign (proofMessage (t.transcript y) t.me))))
      ∧ (∀ body, x.auth = 2 →
          (s.proofOk x body = false → exec (.identityMessage p 3 body) s = .next (s.holdPort p 0x0403))
          ∧ (s.proofOk x body = true → s.wiringOk p x.claimed = false → SMap.wf Port.blank s.lnk.ports = true →
              exec (.identityMessage p 3 body) s = .next ((s.setPort p { x with peer := x.claimed }).holdPort p 0x0401))
          ∧ (s.proofOk x body = true → s.wiringOk p x.claimed = true →
              (p < 14 → exec (.identityMessage p 3 body) s = .next (s.portUp p))
              ∧ (14 ≤ p → exec (.identityMessage p 3 body) s = .next (match s.linkKeys x with
                | none => s.holdPort p 0x0403
                | some k => (s.setPort p { x with keyed := true, keys := true, tx := k.1, rx := k.2 }).portUp p)))))
    ∧ (x.live = true → exec (.linkWatchdogExpiry p) s = .next ((s.setPort p { x with st := .lost, resends := 0 }).lnkEvent 2
        { status := 0x0410, words := [p, x.peer.toNat] }))
    ∧ (x.live = true → x.keyed = true →
      (s.sec.drbgOk = true → x.tx.next = none → 2 ^ 40 ≤ x.tx.count → x.ctlWait = [] → x.unacked.length < 1024 →
        let sw := x.tx.count + 2 + (Config.switchCount s.free).toNat
        exec (.keyRenewal p) s = .next (match ecdh (freshPrivate s.free) x.peerEph with
          | none => s
          | some z => (s.tick.setPort p { x with
              tx := { x.tx with next := some (sw, linkKeyOf (bytesLE sw 8) (z ++ wordBytes x.tx.key) (dirLabel s.me x.peer)) } }).sendControl p 2
                (freshShare s.free ++ bytesLE sw 8)))
      ∧ ∀ (share : List Byte) (n : W64), exec (.rekeyMessage p share n) s = .next (match ecdh x.ownEph share with
          | none => s
          | some z => s.setPort p { x with
              rx := { x.rx with next := some (n.toNat, linkKeyOf (bytesLE n.toNat 8) (z ++ wordBytes x.rx.key) (dirLabel x.peer s.me)) } }))

/-- The shorter way round a ring of 16. -/
def ringDist (a b : Nat) : Nat := min ((b + 16 - a) % 16) ((a + 16 - b) % 16)

/-- Hops between two positions (R403). -/
def hopDist (a b : W32) : Nat :=
  ringDist (posX a) (posX b) + ringDist (posY a) (posY b) + (if posB a = posB b then 0 else 1) + (if posS a = posS b then 0 else 1)

/-- Frames, resending, credits, refusals and routes (R393, R398, R400, R401, R403, R404, R487): the errors of the lanes in use fall on the symbols of
the codeword, up to 32 of them are corrected, and more leave it lost or another codeword; a frame is taken in its turn (and `relay` does what the
units then assembled ask for), asked for again, or discarded; 16 resends without progress lose the port; a freed buffer's credit sends what waits; a
refusal goes on along its route to the module it is for; and where every port is live, the next hop brings a unit one hop nearer. The code's field and
first root and what more than 32 errors become are free (assumption 101); a refusal that names its destination module is assumption 30, the way a
detoured unit goes is 86, and a unit sent whole on its credits is 42: the model's choices. -/
def Obligations.FramesAndRoutes : Prop :=
  (∀ s : State, s.su.linksDriven = true → ∀ p < 18,
    let x := s.port p
    (x.hears = true → ∀ rx : FrameRx,
      let d := fecDecode (codewordErrors (lanesUsed x.lanes) rx.errs)
      let t := s.countCodeword p d
      let got := x.unprotect (decide (p < 14)) (spoiledFrame rx d.left)
      (d.lost = true → exec (.frameReceive p rx) s = .next (t.sendIdle p true))
      ∧ (d.lost = false → got = none → exec (.frameReceive p rx) s = .next (t.checkFailed p))
      ∧ (d.lost = false → ∀ f, got = some f →
          let u := (t.modPort p fun x => { x with tagRun := 0 }).acknowledge p f
          let y := u.port p
          (f.ftype = 0 → exec (.frameReceive p rx) s = .next (if newer f.seq (y.rxLast + 1) then u.sendIdle p true else u))
          ∧ (f.ftype ≠ 0 → f.seq = y.rxLast + 1 →
              exec (.frameReceive p rx) s = .next (u.setPort p ({ y with rxLast := f.seq }.gather f)).relay)
          ∧ (f.ftype ≠ 0 → f.seq ≠ y.rxLast + 1 →
              exec (.frameReceive p rx) s = .next (if newer f.seq y.rxLast then u.sendIdle p true else u))))
    ∧ (x.hears = true → x.unacked ≠ [] →
      (x.resends < 16 → exec (.retryTimeout p) s = .next ((s.setPort p { x with resends := x.resends + 1 }).resendCounted p))
      ∧ (16 ≤ x.resends → x.live = true → exec (.retryTimeout p) s = .next (s.losePort p)))
    ∧ (x.live = true → exec (.idleFrameTimer p) s = .next (s.emitFrame p { ftype := 0, cls := 0, retry := false, seq := x.txNext, ack := x.rxLast }))
    ∧ (x.hears = true → ∀ n,
      exec (.creditMessage p 1 n) s = .next ((s.setPort p { x with creditRed := min 256 (x.creditRed + n) }).flushWaiting)
      ∧ exec (.creditMessage p 2 n) s = .next ((s.setPort p { x with creditTrf := min 256 (x.creditTrf + n) }).flushWaiting))
    ∧ (x.hears = true → ∀ (status : W16) (b : Nat) (step origin dst : W32),
      (dst = s.me → b < 32 → status = 0x0265 → ∀ c r, (s.part b).ctx = some c → c.reshard = some r →
        exec (.refusalMessage p status b step ⟨origin, dst⟩) s =
          .next (s.setPart b { s.part b with ctx := some { c with reshard := some (r.refuse origin step.toNat) } }))
      ∧ (dst = s.me → status ≠ 0x0265 → exec (.refusalMessage p status b step ⟨origin, dst⟩) s = .next s)
      ∧ (dst ≠ s.me → ∀ q, s.nextPort dst (some p) = some q →
          exec (.refusalMessage p status b step ⟨origin, dst⟩) s = .next (s.sendRefusal q status.toNat b step origin dst))))
  ∧ (∀ (s : State) (dst : W32), (∀ p < 18, s.live p = true) → posOk s.me = true → posOk dst = true → dst ≠ s.me →
      ∃ p < 18, s.nextPort dst = some p ∧ hopDist (wiredPeer s.me p) dst + 1 = hopDist s.me dst)
  ∧ (∀ e : List (Nat × Sym),
      (e = [] → fecDecode e = {}) ∧ (e ≠ [] → e.length ≤ 32 → fecDecode e = { corrected := true, lost := false, left := [] })
      ∧ (32 < e.length → (fecDecode e).lost = true ∨ symCodeword (fecDecode e).left = true) ∧ ((fecDecode e).lost = true → (fecDecode e).left = []))
  ∧ (∀ (rx : FrameRx), spoiledFrame rx [] = rx)
  ∧ (∀ (used : List Nat) (lane index : Nat) (diff : Sym), used.Nodup → diff ≠ 0 → used.length * index + used.idxOf lane < 576 →
      codewordErrors used [⟨lane, index, diff⟩] = if lane ∈ used then [(used.length * index + used.idxOf lane, diff)] else [])


/-! ### Reduction, training and re-sharding -/

/-- Posts, chunks, sums and deliveries, and the bucket commands (R405 to R426, R497, R528): each unit is taken, passed on, held, discarded or refused as
its definition and its place give, and each is done in one piece once the links or the channel can take it. The order of the checks and the oldest
unfinished step are the model's reading (assumption 43), and so are who serves a place (44), what reaches a Frozen or Saving partition (46), where a
chunk goes (90) and what a gather's definition is (91). -/
def Obligations.ReductionRuns : Prop :=
  ∀ s : State,
    (∀ o ref c, s.starts o 0x50 ref c = true →
      let i := bktIdx c
      let n := bktPart c
      let d := bktDefOf c
      let u := s.started o
      s.carriesOut o (.bktDef o) ref (u.partChecks n (decide (i < 4096) && cmdZero c 0x2b 1 && cmdZero c 0x30 16) 0x0430 ++ [
          (!d.fieldsOk (u.coresIn n).length, 0x0430), (!u.participates d u.me || !u.participates d d.owner, 0x0431),
          (!mayDefine (u.bucket i) d, 0x0432)])
        fun t => (t.setBucket i (t.bucket i ++ [d])).complete ref 0)
    ∧ (∀ o ref c, s.starts o 0x51 ref c = true →
      let i := bktIdx c
      let u := s.started o
      s.carriesOut o (.bktDel o) ref (u.partChecks (bktPart c) (decide (i < 4096) && cmdZero c 0x13 45) 0x0430 ++ [
          (u.lnk.reductions.any (fun r => decide (r.bucket = i) && !r.done), 0x0433)])
        fun t => let v := t.setBucket i []
                 ({ v with lnk := { v.lnk with reductions := v.lnk.reductions.filter (fun r => decide (r.bucket ≠ i))
                                               floors := SMap.set none v.lnk.floors i none } } : State).complete ref 0)
    ∧ (∀ o ref c, s.starts o 0x52 ref c = true →
      let i := bktIdx c
      let n := bktPart c
      let served := bktPos c 0x20
      let serving := bktPos c 0x24
      let u := s.started o
      let defs := u.substDefs n i
      s.carriesOut o (.bktSubst o) ref (u.partChecks n ((decide (i < 4096) || i == 0xffff) && posOk served && posOk serving && cmdZero c 0x13 5
            && cmdZero c 0x1c 4 && cmdZero c 0x28 24) 0x0430 ++ [
          (defs.any (fun d => !(u.participates d served && u.participates d serving)) || (decide (i ≠ 0xffff) && defs.isEmpty), 0x0436)])
        fun t => (t.modPart n fun p =>
          { p with substs := p.substs ++ [{ bucket := BitVec.ofNat 16 i, served, serving, step := bktStep c }] }).complete ref 0)
    ∧ (∀ o ref c, s.starts o 0x53 ref c = true →
      let n := bktPart c
      let a := cmdField c 0x30 8
      let u := s.started o
      s.carriesOut o (.postCfg o) ref (u.partChecks n (cmdZero c 0x10 2 && cmdZero c 0x13 1 && cmdZero c 0x18 24 && cmdZero c 0x38 8 && a % 8192 == 0
            && decide (a < 2 ^ 52)) 0x0430 ++ [(!u.ownsAll n [a / 2 ^ 21], 0x0430)])
        fun t => (t.modPart n fun p => { p with postPort := some (BitVec.ofNat 64 a), jobTag := bktPos c 0x14 }).complete ref 0)
    ∧ (∀ o ref c, s.starts o 0x54 ref c = true →
      let i := bktIdx c
      let n := bktPart c
      let a := cmdField c 0x30 8
      let u := s.started o
      let l := (u.digestRecord i (bktStep c)).getD []
      s.carriesOut o (.digestRead o) ref (u.partChecks n (decide (i < 4096) && cmdZero c 0x13 5 && cmdZero c 0x1c 20 && cmdZero c 0x38 8 && a % 8192 == 0
            && decide (a < 2 ^ 52)) 0x0430 ++ [
          ((u.digestRecord i (bktStep c)).isNone, 0x0434), (!u.ownsAll n (slotExts a (ceilDiv l.length 8192)), 0x0437)])
        fun t => (t.putBytes n (a / 8192) l).complete ref 0)
    ∧ (∀ i < 4096, ∀ d e, s.bucket i = [d, e] → s.unfinished i (fun t => decide (s.defFor i t = some d)) = false →
        exec (.bucketDefRetire i) s = .next (s.setBucket i [e]))
    ∧ (∀ k < 256, ∀ j o n r a d, s.writeDue k j = some (o, n, r, .postPort, a, d) → s.winching n = false →
        (∀ t, s.postUnit n d = .took t → exec (.postWrite k j) s = .next (t.accepted k j o a d))
        ∧ (s.postUnit n d = .wait → exec (.postWrite k j) s = .next s)
        ∧ (s.postUnit n d = .invalid → exec (.postWrite k j) s = .next ((s.lnkEvent 4
            { status := 0x0435, part := some n, words := [n, d.side.readNat 2 2] }).accepted k j o a d)))
    ∧ (s.su.linksDriven = true → ∀ p < 18, ∀ u : ChunkUnit,
        (u.dst ≠ s.me →
          let part := (((s.bucket u.bucket).getLast?).map (·.part)).getD 0xff
          ∀ t, s.trySend part 1 u.dst (chunkBytes u) (some p) = some t → exec (.chunkReceive p u) s = .next (t.chunkAt p u DigestRec.addTaken))
        ∧ (u.dst = s.me → s.defFor u.bucket u.step = none → exec (.chunkReceive p u) s = .next (s.refuseChunk p u 0x0420))
        ∧ (∀ d, u.dst = s.me → s.defFor u.bucket u.step = some d →
          (d.epoch ≠ u.epoch → exec (.chunkReceive p u) s = .next (s.refuseChunk p u 0x0420))
          ∧ (d.epoch = u.epoch → u.chunk < d.chunks.toNat →
            (u.stage = 5 → s.belowFloor u.bucket u.step = true → exec (.chunkReceive p u) s = .next (s.chunkAt p u DigestRec.addDisc))
            ∧ (u.stage = 5 → s.belowFloor u.bucket u.step = false → s.shut d.part = true → exec (.chunkReceive p u) s = .next s)
            ∧ (u.stage = 5 → s.belowFloor u.bucket u.step = false → s.shut d.part = false →
              ∀ q, s.resultRole d u.bucket u.step u.chunk = some q → exec (.chunkReceive p u) s =
                .next ((s.chunkAt p u DigestRec.addTaken).resultArrives d u.bucket u.step u.chunk q (chunkInput u 0)))
            ∧ (u.stage ≠ 5 → ∀ q, d.placeOf u.stage u.origin = some q →
              let at_ := s.acting d.part u.bucket u.step q.loc
              (at_ = s.me → (d.keys (s.awaits d) q.stage q.loc).contains q.key = true →
                let c := chunkInput u q.key (some p)
                let f := s.fate d u.bucket u.step u.chunk q c
                (f = .take → exec (.chunkReceive p u) s =
                  .next (((s.takeInput d u.bucket u.step u.chunk q c 8).pruneSteps u.bucket).chunkAt p u DigestRec.addTaken))
                ∧ (f = .late → exec (.chunkReceive p u) s =
                  .next ((s.noteChoice u.bucket u.step u.chunk q c).chunkAt p u DigestRec.addDisc))
                ∧ (f = .hold → exec (.chunkReceive p u) s = .next s)
                ∧ ∀ st, f = .refuse st → exec (.chunkReceive p u) s =
                    .next ((s.noteChoice u.bucket u.step u.chunk q c).refuseChunk p u st))
              ∧ (at_ ≠ s.me →
                let part := (((s.bucket u.bucket).getLast?).map (·.part)).getD 0xff
                ∀ t, s.trySend part 1 at_ (chunkBytes u) (some p) = some t →
                  exec (.chunkReceive p u) s = .next (t.chunkAt p u DigestRec.addTaken))))))
    ∧ (∀ b step chunk stage r c d, s.sumWaiting b step chunk stage = some (r, c) → s.defFor b step = some d →
        (stage ≠ 5 → ∀ q t, d.nextPlace stage r.loc = some q →
          s.trySend d.part 1 (s.acting d.part b step q.loc) (chunkBytes (sumUnit d b step chunk stage (requant d.mode c))) = some t →
          exec (.sumSend b step chunk stage) s = .next ((t.putReduction { r with sent := true, done := true }).pruneSteps b))
        ∧ (stage ≠ 5 → d.nextPlace stage r.loc = none → 3 ≤ d.mode →
          exec (.sumSend b step chunk stage) s = .next (if s.shut d.part then s
            else ((s.putReduction { r with sent := true, done := true }).resultArrives d b step chunk r.loc c).pruneSteps b))
        ∧ (stage = 5 → ∀ t, s.passAll d b step chunk { c with data := c.data.slice 0 8 } (d.childrenOf (s.awaits d) d.owner r.loc) = some t →
          exec (.sumSend b step chunk stage) s =
            .next ((t.putReduction { r with sent := true, done := decide (1 ≤ r.delivered) || !s.awaits d r.loc }).pruneSteps b)))
    ∧ (∀ b step chunk r c d, s.defFor b step = some d → s.deliveryWaiting d b step chunk = some (r, c) → s.takesDeliveries d.part = true →
        ∀ k t, s.rankCore d.part (d.rankFor chunk) = some k →
          s.linkDeliver k d.landChan step (deliveryWord b chunk r.delivered c) (deliveryTile d.mode r.delivered c) = some t →
          exec (.chunkDeliver b step chunk) s = .next ((t.delivered d r c).pruneSteps b))
    ∧ (s.su.linksDriven = true → ∀ t : TransferUnit,
        let goal := s.transferGoal t
        let l := transferBytes t
        (goal.1 ≠ s.me → ∀ u, s.trySend goal.2 2 goal.1 l (s.portWith 2 l) = some u → exec (.transferDeliver t) s = .next (u.freeAny 2 l))
        ∧ (goal.1 = s.me →
          (∀ part, s.landing t = .drop part → exec (.transferDeliver t) s =
            .next ((s.takeTransfer t).lnkEvent 4 { status := 0x0436, part := some part, words := [part] }))
          ∧ (s.landing t = .pass → exec (.transferDeliver t) s = .next (s.takeTransfer t))
          ∧ ∀ part k, s.landing t = .core part k → s.takesDeliveries part = true →
              ∀ u, s.linkDeliver k t.chan t.word0 t.word1 t.tile = some u → exec (.transferDeliver t) s = .next (u.takeTransfer t)))

/-- Training (R446 to R464, R497): the commands of a context, the update-done mark, the tandem's copies and acknowledgements, and how the norm's
result and the commit token's result move the context on. The order of the checks is assumption 20; the fields of TANDEM_CFG, a version sent again and
the commands of a restoring context are assumption 47, where deliveries of a step go is 46 and what a revert cancels is 49. -/
def Obligations.TrainingSteps : Prop :=
  ∀ s : State,
    (∀ o ref c, s.starts o 0x58 ref c = true →
      let n := trnPart c
      let g := trnGeo c
      let x := trnCtx c
      let u := s.started o
      s.carriesOut o (.trainCfg o) ref (u.partChecks n (trnAddr c % 8192 == 0 && decide (cmdField c 0x1d 1 ≤ 1) && g.sizesOk && g.landOk && cmdZero c 0x24 4
            && decide (x.normBucket.toNat ≤ 4095) && decide (x.tokenBucket.toNat ≤ 4095) && decide (x.clip.toNat < 0x7f800000)
            && decide (1 ≤ x.ceil.toNat) && decide (x.ceil.toNat ≤ 0x7f800000)) 0x0240 ++ [
          (!u.ownLossless n (trnAddr c) g.slots, 0x0241),
          ((u.part n).ctx.isSome && (u.ctxIn n [.reducing, .interrupted, .faulted]).isNone, 0x0242)])
        fun t => ((t.cancelHeld n).putCtx n { x with restoring := ((t.part n).ctx.map (·.restoring)).getD [] }).complete ref 0 x.passes)
    ∧ (∀ o ref c x, s.starts o 0x5a ref c = true →
      let n := trnPart c
      let u := s.started o
      u.ctxIn n [.interrupted] = some x →
      s.carriesOut o (.stepRedo o) ref (u.partChecks n (cmdZero c 0x10 12 && cmdZero c 0x1d 35) 0x0240 ++ [(x.twoPass, 0x0242)])
        fun t => (t.putCtx n { x with st := .updating }).complete ref 0)
    ∧ (∀ o ref c x, s.starts o 0x5b ref c = true →
      let n := trnPart c
      let v := trnVersion c
      let u := s.started o
      u.ctxIn n [.reducing, .copying, .voting, .interrupted, .faulted] = some x →
      s.carriesOut o (.stepRevert o) ref (u.partChecks n (cmdZero c 0x10 12 && cmdZero c 0x1d 11 && cmdZero c 0x30 16) 0x0240 ++ [
          (!x.holds v, 0x0243)])
        fun t => ((((if x.st = .copying then t.stopCopy n (fun w => w == x.version + 1) else t).cancelReshard x).putCtx n { x with
          version := v, linkStep := trnStep c, st := .reducing, verdict := 0, heldGate := none, reshard := none, landedAt := none
          tandemK := if v = x.version then x.tandemK else x.tandemK1, tandemK1 := false, awaitK := x.awaitK && decide (v = x.version) }).discardBefore n
            (trnStep c)).complete ref 0)
    ∧ (∀ o ref c, s.starts o 0x59 ref c = true →
      let n := trnPart c
      let g : Geometry := { trnGeo c with landSlots := 0, landed := 0 }
      let role := decide (cmdField c 0x1d 1 / 2 % 2 = 1)
      let u := s.started o
      s.carriesOut o (.tandemCfg o) ref (u.partChecks n (decide (cmdField c 0x1d 1 ≤ 3) && cmdZero c 0x1e 2 && g.sizesOk && posOk (trnPos c) && cmdZero c 0x28 24
            && (if role then trnAddr c % 8192 == 0 else trnAddr c == 0)) 0x0240 ++ [
          (role && !u.ownLossless n (trnAddr c) (1 + 2 * (g.bank + g.errTiles.toNat)), 0x0241),
          (u.winching n || (!role && (u.part n).ctx.isNone), 0x0242)])
        fun t => (if role then t.makeStore n g (trnPos c)
          else match (t.part n).ctx with
            | none => t
            | some x => t.nameTandem n x (trnPos c)).complete ref 0)
    ∧ (∀ o ref c, s.starts o 0x5c ref c = true →
      let n := trnPart c
      let v := trnVersion c
      let u := s.started o
      s.carriesOut o (.tandemRestore o) ref (u.partChecks n (cmdZero c 0x10 12 && cmdZero c 0x1d 7 && posOk (trnPos c) && cmdZero c 0x2c 20) 0x0240 ++ [
          (!((u.part n).ctx.any fun x => x.restorable v), 0x0242)])
        fun t => (t.modPart n fun p => { p with ctx := p.ctx.map fun x => { x with restoring := x.restoring ++ [(ref, v, trnPos c)] } }).dispatch n 2
          (trnPos c) (tandemBytes kindRequest n (t.part n).jobTag t.me (trnPos c) v (((t.part n).ctx.map fun x => x.oldRegion.code).getD 0) {}))
    ∧ (∀ n < 32, s.shut n = false → ∀ x ref v pos l, (s.part n).ctx = some x → x.restoring = (ref, v, pos) :: l →
      let u := s.dropReplies n v
      exec (.tandemRestoreComplete n none) s = .next ((u.setPart n { u.part n with ctx := some { x with restoring := l } }).complete ref 0x0244)
      ∧ (∀ tl : List TileData, tl.length = (x.oldRegion.bankSlots (v.toNat % 2)).length → exec (.tandemRestoreComplete n (some tl)) s =
          .next ((((((x.oldRegion.bankSlots (v.toNat % 2)).zip tl).foldl (fun t e => t.putTile n e.1 e.2) u).cancelReshard x).putCtx n
            (x.restored v pos)).complete ref 0)))
    ∧ (∀ n, s.shut n = true →
      (∀ tiles, n < 32 → exec (.tandemRestoreComplete n tiles) s = .next s)
      ∧ (∀ pos v, n < 32 → exec (.tandemAcknowledge n pos v) s = .next s)
      ∧ ∀ pos tag v i tile, n < 32 → exec (.tandemCopyReceive n pos tag v i tile) s = .next s)
    ∧ (∀ k < 256, ∀ j o n r a d x, s.writeDue k j = some (o, n, r, .stepPort, a, d) → (s.part n).ctx = some x →
      (x.st = .updating ∨ x.st = .applying → d.payload.read 32 0 = x.linkStep → d.payload.byte 4 = 1 →
        let y := { x with st := .copying, tandemK1 := false }
        exec (.updateDoneMark k j) s = .next (((s.putCtx n y).copyVersion n y (x.version + 1)).accepted k j o a d))
      ∧ ((x.st ≠ .updating ∧ x.st ≠ .applying) ∨ d.payload.read 32 0 ≠ x.linkStep ∨ d.payload.byte 4 ≠ 1 →
        exec (.updateDoneMark k j) s = .next ((s.raise { status := 0x0255, part := some n, words := [n, x.linkStep.toNat] }).accepted k j o a d)))
    ∧ (∀ n < 32, s.shut n = false → ∀ pos tag v i tile,
      let u := s.freeAny 2 (tandemBytes kindTandem n tag pos s.me v i tile)
      ((u.part n).stores.find? (fun t => decide (t.mirrored = pos) && decide ((u.part n).jobTag = tag)) = none →
        exec (.tandemCopyReceive n pos tag v i tile) s = .next (u.raise { status := 0x0253, part := some n, words := [n, pos.toNat] }))
      ∧ (∀ t, (u.part n).stores.find? (fun t => decide (t.mirrored = pos) && decide ((u.part n).jobTag = tag)) = some t → i < t.bankSize →
        let w := (u.putTile n (t.base.toNat / 8192 + 1 + v.toNat % 2 * t.bankSize + i) tile).putStore n (t.take v i)
        exec (.tandemCopyReceive n pos tag v i tile) s =
          .next (if (t.take v i).completeFor v then w.dispatch n 2 pos (tandemBytes kindAck n tag u.me pos v 0 {}) else w)))
    ∧ (∀ n < 32, s.shut n = false → ∀ pos v,
      let u := s.freeAny 2 (tandemBytes kindAck n (s.part n).jobTag pos s.me v 0 {})
      ∀ x, (u.part n).ctx = some x → x.tandem = some pos →
        let y := { x with
          tandemK := x.tandemK || decide (v = x.version), awaitK := x.awaitK && decide (v ≠ x.version)
          tandemK1 := x.tandemK1 || (decide (v = x.version + 1) && (decide (x.st = .copying) || decide (x.st = .voting))) }
        (y.st = .copying → y.awaitK = false → y.tandemK1 = true →
          exec (.tandemAcknowledge n pos v) s = .next ((u.putCtx n { y with st := .voting }).postToken n))
        ∧ (y.st ≠ .copying ∨ y.awaitK = true ∨ y.tandemK1 = false → exec (.tandemAcknowledge n pos v) s = .next (u.putCtx n y)))
    ∧ (∀ n x sum, (s.part n).ctx = some x → x.st = .reducing →
        s.normArrives n x.linkStep sum = s.applyGate n x sum
        ∧ (x.gate sum).1 ∈ [1, 2, 3]
        ∧ ((x.gate sum).1 ≠ 3 → s.normArrives n x.linkStep sum = s.putCtx n { x with
            verdict := (x.gate sum).1, kappa := (x.gate sum).2.1, sum, norm := (x.gate sum).2.2, st := if x.twoPass then .applying else .updating }))
    ∧ (∀ n x, (s.part n).ctx = some x → x.st = .voting →
        (x.reshard = none → s.tokenArrives n x.lastStep (BitVec.ofNat 64 (0xffffffff00000000 + (x.version + 1).toNat)) = s.enterReducing n { x with
          version := x.version + 1, committed := x.committed + 1, linkStep := x.linkStep + BitVec.ofNat 32 x.passes
          verdict := 0, tandemK := x.tandemK1, tandemK1 := false })
        ∧ ∀ w, w ≠ BitVec.ofNat 64 (0xffffffff00000000 + (x.version + 1).toNat) → s.tokenArrives n x.lastStep w =
            (s.putCtx n { x with st := .faulted }).raise { status := 0x0251, part := some n, words := [n, x.linkStep.toNat] })

/-- Re-sharding (R478 to R492): the command is held or refused; a tile of the plan leaves for its place, arrives, and is sent again where it was
refused; the part and the re-shard end. The order of RESHARD's checks and the context of a joining module are the model's reading (assumption 48), and
so are RESERVE_SET against a substitution that has ended (49), a move within the module without a free staging slot (92) and a poisoned tile, which is
reported and stays (99). -/
def Obligations.WinchMovesTiles : Prop :=
  ∀ s : State,
    (∀ o ref c errs, s.starts o 0x5d ref c = true →
      let n := trnPart c
      let a := trnAddr c
      let u := s.started o
      let first := u.partChecks n (a % 8192 == 0 && decide (a < 2 ^ 52) && cmdZero c 0x18 4 && cmdZero c 0x1d 35) 0x0260 ++ [(!u.ownLossless n a 1, 0x0261)]
      let v := if firstFail first = none then u.meetCodewords n a 128 errs else u
      let m := v.spanRead n a 128
      let pa := m.readNat 0x10 8
      let pl := 32 * m.readNat 0x18 4
      let second := first ++ [((v.bytesFault n a 128 false).isSome, 0x0318), (!recOk m || !v.classOk n m, 0x0260), (!v.recPlaces n m, 0x0261)]
      let w := if firstFail second = none then v.meetCodewords n pa pl errs else v
      let bad := if (w.bytesFault n a 128 false).isSome then w.poisonedIn n a 128 else w.poisonedIn n pa pl
      let checks := second ++ [((w.bytesFault n pa pl false).isSome, 0x0318),
        (!((List.range (m.readNat 0x18 4)).all (planEntryOk (w.spanRead n pa pl))), 0x0260), (!w.mayReshard n m, 0x0262)]
      let r := reshardOf ref m (w.spanRead n pa pl)
      s.readsAndCarriesOut w (.reshard ⟨o, errs⟩) ref n 0x0318 bad checks (fun t => t.holdReshard n r)
      ∧ (∀ x, (w.part n).ctx = some x → w.holdReshard n r = w.setPart n { w.part n with ctx := some { x with reshard := some r } })
      ∧ ((w.part n).ctx = none → ∃ x, w.holdReshard n r = w.tick.putCtx n x
          ∧ x.geo = r.geo ∧ x.st = .winching ∧ x.hasVersion = false ∧ x.reshard = some r))
    ∧ (∀ o ref c, s.starts o 0x5e ref c = true →
      let n := trnPart c
      let pos := trnPos c
      let add := decide (cmdField c 0x1d 1 = 1)
      let u := s.started o
      let p := u.part n
      s.carriesOut o (.reserveSet o) ref (u.partChecks n (cmdZero c 0x10 12 && decide (cmdField c 0x1d 1 ≤ 1) && cmdZero c 0x1e 6 && posOk pos
            && cmdZero c 0x28 24) 0x0260 ++ [
          ((if add then decide (64 ≤ p.reserves.length) || p.reserves.contains pos else !p.reserves.contains pos) || u.substNames n pos, 0x0267)])
        fun t => ((t.modPart n fun p =>
          { p with reserves := if add then p.reserves ++ [pos] else p.reserves.erase pos }).formWaiting n).complete ref 0)
    ∧ (∀ n < 32, ∀ x r, s.winch n = some (x, r) →
      (∀ src dst pos, planTile r.plan r.left = some (src, dst, pos) →
        let f := s.fetchTile n src
        (f.2 = none → exec (.winchSend n) s = .next f.1)
        ∧ ∀ d, f.2 = some d →
          let w : WinchOut := { pos, dst := BitVec.ofNat 64 (8192 * dst), tile := d }
          let q := { r with left := r.left + 1 }
          (pos ≠ s.me → ∀ t, f.1.sendWinch n x r w = some t →
            let u := t.unstage n { q with sent := q.sent ++ [w] } src
            exec (.winchSend n) s = .next (u.1.putReshard n x u.2))
          ∧ (pos = s.me →
            let p := (f.1.placeTile n q dst w.tile).getD (f.1, { q with refused := q.refused ++ [w] })
            let u := p.1.unstage n p.2 src
            exec (.winchSend n) s = .next ((u.1.putReshard n x u.2).afterWinch n)))
      ∧ (∀ w l, r.refused = w :: l →
        (w.pos ≠ s.me → ∀ t, s.sendWinch n x r w = some t → exec (.winchResend n) s = .next (t.putReshard n x { r with refused := l }))
        ∧ (w.pos = s.me → ∀ t q, s.placeTile n { r with refused := l } (w.dst.toNat / 8192) w.tile = some (t, q) →
            exec (.winchResend n) s = .next ((t.putReshard n x q).afterWinch n)))
      ∧ (r.partDone = true → (s.winchPart n).winch n = some (x, r) → ((s.winchPart n).part n).reached r.spoolGen = true →
        exec (.reshardComplete n) s = .next (((s.winchPart n).enterReducing n { x with reshard := none }).complete r.ref 0)))
    ∧ (∀ w : WinchTile, w.port < 18 → w.part < 32 → s.shut w.part = false →
      let u := s.freeUnit w.port 2 (winchBytes s.me w)
      (u.winchHere w = false → exec (.winchTileArrive w) s = .next (u.discardWinch w))
      ∧ (u.winchHere w = true → u.winch w.part = none → exec (.winchTileArrive w) s = .next (u.refuseWinch w))
      ∧ (∀ x r, u.winchHere w = true → u.winch w.part = some (x, r) →
        (r.epoch ≠ w.epoch → exec (.winchTileArrive w) s = .next (u.refuseWinch w))
        ∧ (r.epoch = w.epoch → joinDiffers x r w = true → exec (.winchTileArrive w) s = .next (u.discardWinch w))
        ∧ (r.epoch = w.epoch → joinDiffers x r w = false →
            (u.placeTile w.part r (w.dst.toNat / 8192) w.tile = none → exec (.winchTileArrive w) s = .next (u.refuseWinch w))
            ∧ ∀ t q, u.placeTile w.part r (w.dst.toNat / 8192) w.tile = some (t, q) →
              exec (.winchTileArrive w) s = .next ((if x.hasVersion then t.putReshard w.part x { q with taken := q.taken + 1 }
                else t.putCtx w.part { x with version := w.version, linkStep := w.linkStep, hasVersion := true
                                              reshard := some { q with taken := q.taken + 1 } }).afterWinch w.part))))


/-! ### Partitions -/

/-- Partitions and the ripcord (R521 to R534): creation, resizing and deletion; FREEZE and its end; SAVE, THAW and RESTORE with what each check refuses and
what each end leaves. The order of the checks of PART_CREATE, PART_RESIZE and RESTORE is the model's reading (assumption 50), and so are a SAVE and its
end that wait for host memory (51) and the form of an image looked at before its signature (94). -/
def Obligations.PartitionsLive : Prop :=
  ∀ s : State,
    (∀ o ref c, s.starts o 0x18 ref c = true →
      let n := tetPart c
      let k := tetKites c
      let u := s.started o
      s.carriesOut o (.partCreate o) ref [
          (!(partOk n && sharesOk c && tetUnused c false false false true true), 0x0227), (u.hasPart n, 0x0220), (bit u.su.badTethers n, 0x0702),
          (k == 0 || k &&& u.kitesTaken != 0, 0x0221), (u.sharesOver n (tetHbm c) (tetBallast c) (tetLink c), 0x0222), (!u.sec.drbgOk, 0x0620)]
        fun t =>
          let v := (t.setPart n { (t.part n).regs with st := .running, kites := k, hbm := tetHbm c, ballast := tetBallast c, link := tetLink c, perf := [], ovf := 0 }).modCores
            (coresOf k) fun j e => { e with run := .idle, inactive := .empty, gen := none, rank := rankIn k j, n := 8 * popCount k, chans := [], pc := 0
                                            passes := 0, loops := [] }
          ((({ v with sec := { v.sec with envs := SMap.set none v.sec.envs (envKey n 0) (some { key := Config.freshKey v.free }) } } : State).tick).complete
            ref 0))
    ∧ (∀ o ref c, s.starts o 0x19 ref c = true →
      let n := tetPart c
      let k := tetKites c
      let u := s.started o
      let p := u.part n
      s.carriesOut o (.partResize o) ref [
          (!(partOk n && sharesOk c && k != 0 && tetUnused c false false false true true), 0x0227), (!u.hasPart n, 0x0223),
          (u.drainTested k, 0x0221), (p.resize.isSome || decide (p.st ≠ .running), 0x0225), (k &&& ~~~p.kites &&& u.kitesTaken != 0, 0x0221),
          (u.sharesOver n (tetHbm c) (tetBallast c) (tetLink c), 0x0222), (u.sharesShort n (tetHbm c) (tetBallast c), 0x0224)]
        fun t => ((t.modPart n fun p => { p with
          hbm := tetHbm c, ballast := tetBallast c, link := tetLink c, resize := some { ref := some ref, kites := k } }).roomFor n 0 (2 ^ 39)).1)
    ∧ (∀ o ref c, s.starts o 0x1a ref c = true →
      let n := tetPart c
      let u := s.started o
      s.carriesOut o (.partDelete o) ref [
          (!(partOk n && tetUnused c false false false false false), 0x0227), (!u.hasPart n, 0x0223),
          (decide ((u.part n).st ≠ .running ∧ (u.part n).st ≠ .frozen), 0x0230), (u.anyoneMaps n, 0x0226)]
        fun t => (t.deletePart n).addJob { kind := .partDelete, ref := some ref, part := n } false)
    ∧ (∀ o ref c, s.starts o 0x20 ref c = true →
      let n := tetPart c
      let u := s.started o
      s.carriesOut o (.freeze o) ref (u.runningChecks n (tetUnused c false false false false false) ++ [
          ((u.part n).resize.isSome, 0x0230), (u.multiModule n && !u.atCommit n, 0x0231)])
        fun t => t.setPart n { t.part n with st := .freezing, freezeRef := some ref })
    ∧ (∀ n < 32, (s.part n).st = .freezing → s.stopped n = true → s.snapping n = false →
      let t := ((s.coresIn n).foldl State.dropCredit (s.dropBatcher n)).writeBack fun k _ => (s.coresIn n).contains k
      let v := t.setPart n { t.part n with st := .frozen, freezeRef := none }
      exec (.freezeComplete n) s = .next (v.completeOpt (s.part n).freezeRef 0 (t.imageLength n)))
    ∧ (∀ o ref c, s.starts o 0x22 ref c = true →
      let n := tetPart c
      let u := s.started o
      s.carriesOut o (.thaw o) ref [
          (!(partOk n && tetUnused c false false false false false), 0x0227), (!u.hasPart n, 0x0223), (decide ((u.part n).st ≠ .frozen), 0x0230)]
        fun t => (((t.coresIn n).foldl State.fitSupply (t.setPart n { t.part n with st := .running })).relay).complete ref 0)
    ∧ (∀ o ref c segs, s.canPost o.fn = true → s.starts o 0x21 ref c = true →
      let n := tetPart c
      let l := segs.take (cmdField c 0x20 4)
      let u := s.started o
      s.carriesOut o (.save o segs) ref [
          (!(partOk n && segFieldsOk c && tetUnused c true false true false false), 0x0227), (!u.hasPart n, 0x0223),
          (decide ((u.part n).st ≠ .frozen), 0x0230), (!segsOk l || decide ((l.map fun e => e.2.toNat).sum < u.imageLength n), 0x0232)]
        fun t => t.setPart n { t.part n with st := .saving, busyRef := some ref, saveSegs := l })
    ∧ (∀ n < 32, ∀ ref, (s.part n).st = .saving → (s.part n).busyRef = some ref →
      (s.canPost ref.ring.fn = true → ∀ errs,
        let t := errs.foldl (fun t e => t.codewords n e.1 e.2) s
        let done := fun (u : State) => u.setPart n { u.part n with st := .frozen, busyRef := none, saveSegs := [] }
        exec (.saveComplete n ⟨true, errs⟩) s =
          .next ((done (t.tick.writeSegs ref.ring.fn (s.part n).saveSegs (t.imageBytes n))).complete ref 0)
        ∧ exec (.saveComplete n ⟨false, errs⟩) s = .next ((done t).complete ref 0x0104))
      ∧ (s.canPost ref.ring.fn = false → ∀ ok errs, exec (.saveComplete n ⟨ok, errs⟩) s = .next s))
    ∧ (∀ o ref c, s.starts o 0x23 ref c = true →
      let n := tetPart c
      let u := s.started o
      s.carriesOut o (.restore o) ref [
          (!(partOk n && segFieldsOk c && sharesOk c && tetKites c != 0 && tetUnused c true false true true true), 0x0227), (u.hasPart n, 0x0230)]
        fun t => t.setPart n { (t.part n).regs with
          st := .restoring, busyRef := some ref, restoring := some (tetKites c, tetHbm c, tetBallast c, tetLink c) })
    ∧ (∀ n < 32, ∀ k hbm ballast link ref, (s.part n).st = .restoring → (s.part n).restoring = some (k, hbm, ballast, link) →
        (s.part n).busyRef = some ref → s.canPost ref.ring.fn = true →
      let t := s.setPart n (s.part n).regs
      exec (.restoreComplete n none) s = .next (t.complete ref 0x0104)
      ∧ ∀ (img : Image),
          exec (.restoreComplete n (some img)) s = .next (match t.openImage img with
            | .error st => t.complete ref st
            | .ok x => match firstFail [(decide (k ≠ imgKites img.bytes) || k &&& t.kitesTaken != 0, 0x0234), (t.lacksArray k img.control, 0x0235),
                (t.sharesOver n hbm ballast link, 0x0222), (t.noPlace img.control hbm ballast, 0x0236), (!x.tilesOk img.control, 0x0237)] with
              | none => (t.install n img x k hbm ballast link).complete ref 0
              | some st => t.complete ref st)
          ∧ ((imgFormOk img.bytes && t.imgSigned img.bytes && ((t.imgKek img.bytes).bind fun kek => unwrapEnv kek (seg img.bytes 0x68 72)).isSome) = false →
              t.openImage img = .error (if imgFormOk img.bytes then 0x0233 else 0x0237)))
    ∧ (∀ n < 32, ∀ ref, (s.part n).st = .restoring → (s.part n).busyRef = some ref → s.canPost ref.ring.fn = false → ∀ img,
        exec (.restoreComplete n img) s = .next s)


/-! ### Security -/

/-- Binding sets, envelopes, imports, locks and reports (R549 to R568): what each command checks, and its effect; a binding record and a report end
with their host accesses. The order of a record's checks is the model's reading (assumption 54), and so are the answers of envelope index 0 (55), the
form of an import's stream (56) and the fields that LOCK and ATTEST do not use (57). -/
def Obligations.KeysAndRecords : Prop :=
  ∀ s : State,
    (∀ o ref c, s.starts o 0x60 ref c = true →
      s.carriesOut o (.bind o) ref [(!(secUnused c true true false false false false false false && decide (320 ≤ secLen c)
          && decide (secLen c ≤ 256 + 64 * 16384) && secLen c % 64 == 0), 0x0610)]
        fun t => { t with hif := { t.hif with hostOps := t.hif.hostOps ++ [.bind ref (secAddr c) (secLen c)] } })
    ∧ (∀ (k : Nat) ref host len (l : List Byte), s.hif.hostOps[k]? = some (.bind ref host len) → s.canPost ref.ring.fn = true → l.length = len →
        let t := { s with hif := { s.hif with hostOps := listDrop s.hif.hostOps k } }
        let ends (u : State) (st : Nat) : Prop := ∀ errs, exec (.hostMemoryAccessComplete k ⟨some l, errs⟩) s = .next (u.complete ref st)
        (recordOk l = false → ends t 0x0615)
        ∧ (recordOk l = true → t.recordKey l = none → ends t 0x0616)
        ∧ (recordOk l = true → t.recordKey l = some none → ends t 0x0615)
        ∧ (∀ w, recordOk l = true → t.recordKey l = some (some w) →
          (recordMacOk l w = false → ends t 0x0615)
          ∧ (recordMacOk l w = true →
            let b : Binding := { ident := BitVec.ofNat 128 (natLE (seg l 0x10 16)), w := BitVec.ofNat 256 (natLE w)
                                 members := BitVec.ofNat 32 (natLE (seg l 8 4)), kcv := BitVec.ofNat 128 (natLE (seg l 0x90 16)) }
            (∀ x, t.binding b.ident = some x → ends t (if x.kcv = b.kcv then 0 else 0x0619))
            ∧ (t.binding b.ident = none → 256 ≤ t.sec.bindings.length → ends t 0x0617)
            ∧ (t.binding b.ident = none → t.sec.bindings.length < 256 →
                ends { t with sec := { t.sec with bindings := t.sec.bindings ++ [b] } } 0))))
    ∧ (∀ o ref c, s.starts o 0x61 ref c = true →
      let u := s.started o
      s.carriesOut o (.unbind o) ref [(!secUnused c false false false false false true false false, 0x0610), ((u.binding (secIdent c)).isNone, 0x0612),
          (u.bindingUsed (secIdent c), 0x0618)]
        fun t => ({ t with sec := { t.sec with bindings := t.sec.bindings.filter fun b => b.ident != secIdent c } } : State).complete ref 0)
    ∧ (∀ o ref c, s.starts o 0x62 ref c = true →
      let u := s.started o
      s.carriesOut o (.envCreate o) ref (u.newEnvChecks c (secUnused c false false true false true false false false) ++ [(!u.sec.drbgOk, 0x0620)])
        fun t => (t.setEnv (secPart c) (secEnv c) (some { key := Config.freshKey t.free })).tick.complete ref 0)
    ∧ (∀ o ref c, s.starts o 0x63 ref c = true →
      let u := s.started o
      let b := u.binding (secIdent c)
      let k := (b.getD default).envKey (bytesLE (cmdField c 0x30 8) 8)
      s.carriesOut o (.envBind o) ref (u.newEnvChecks c (secUnused c false false true false true true true false) ++ [
          (b.isNone, 0x0612), (halvesEqual k, 0x0615)])
        fun t => (t.setEnv (secPart c) (secEnv c) (some { key := k, bindSet := some (secIdent c) })).complete ref 0)
    ∧ (∀ o ref c, s.starts o 0x64 ref c = true →
      let n := secPart c
      let i := secEnv c
      let u := s.started o
      s.carriesOut o (.envDestroy o) ref (u.partChecks n (secUnused c false false true false true false false false && decide (1 ≤ i)
          && decide (i < 16384)) 0x0610 ++ [((u.env n i).isNone, 0x0612), (u.envUsed n i, 0x0613)])
        fun t => (t.setEnv n i none).complete ref 0)
    ∧ (∀ o ref c, s.starts o 0x65 ref c = true →
      let n := secPart c
      let u := s.started o
      s.carriesOut o (.importTiles o) ref (u.partChecks n (secUnused c true true true false true true false false && cmdZero c 0x24 12
          && decide (secEnv c < 16384) && cmdField c 0x10 8 % 4096 == 0 && decide (1 ≤ secLen c) && decide (secLen c ≤ 65536)) 0x0610
          ++ [(!u.boundEnv n (secEnv c), 0x061e)])
        fun t => { t with hif := { t.hif with
          hostOps := t.hif.hostOps ++ [.importTiles ref n (secEnv c) (secAddr c) (secLen c) (cmdField c 0x20 4)] } })
    ∧ (∀ (k : Nat) ref n env host segs tiles (l : List Byte), s.hif.hostOps[k]? = some (.importTiles ref n env host segs tiles) →
        s.canPost ref.ring.fn = true → 16 * segs ≤ l.length → l.length = segTotal l segs → ∀ errs,
        let t := { s with hif := { s.hif with hostOps := listDrop s.hif.hostOps k } }
        let ends (u : State) (st res : Nat) : Prop := exec (.hostMemoryAccessComplete k ⟨some l, errs⟩) s = .next (u.complete ref st res)
        let entries := spanEntries tiles (l.drop (16 * segs))
        ((segList l segs).all (fun e => e.1 % 4096 == 0 && e.2 % 4096 == 0) = false ∨ t.env n env = none ∨ entries = none → ends t 0x061e 0)
        ∧ ((segList l segs).all (fun e => e.1 % 4096 == 0 && e.2 % 4096 == 0) = true → ∀ e ts, t.env n env = some e → entries = some ts →
          (e.bindSet = none ∨ ts.all (t.importOk n env) = false → ends t 0x061e 0)
          ∧ (e.bindSet ≠ none → ts.all (t.importOk n env) = true →
            let r := t.importAll n e.key ts
            ends (if r.2 = 0 then r.1 else { r.1 with sec := { r.1.sec with event := setBit r.1.sec.event 2 } }) (if r.2 = 0 then 0 else 0x061f) r.2)))
    ∧ (∀ o ref c, s.starts o 0x66 ref c = true →
      let n := secPart c
      let mask := BitVec.ofNat 32 (cmdField c 0x38 4)
      let u := s.started o
      let lk := (u.part n).locked || secFlags c % 2 == 1
      s.carriesOut o (.lock o) ref (u.partChecks n (secUnused c true false true true false false false true && decide (secFlags c < 4)
          && (secAddr c).toNat % 8192 == 0 && decide ((secAddr c).toNat < 2 ^ 52)) 0x0610 ++ [(lk && u.maskBars n mask, 0x061b)])
        fun t => (t.setPart n { t.part n with
          locked := lk, ideReq := (t.part n).ideReq || secFlags c / 2 == 1, share := mask, readSlot := secAddr c }).complete ref 0)
    ∧ (∀ o ref c, s.starts o 0x67 ref c = true →
      let n := secPart c
      let i := secIdent c
      let u := s.started o
      s.carriesOut o (.imageBind o) ref (u.partChecks n (secUnused c false false true false false true false false) 0x0610
          ++ [(i != 0 && (u.binding i).isNone, 0x0612)])
        fun t => (t.setPart n { t.part n with imageSet := if i = 0 then none else some i }).complete ref 0)
    ∧ (∀ o ref c, s.starts o 0x68 ref c = true →
      let scope := if secFlags c = 1 then none else some (secPart c)
      let u := s.started o
      let need := (u.entries scope).reportLen
      s.carriesOut o (.attest o) ref ((if secFlags c = 1 then [(!partOk (secPart c), 0x0610)]
            else u.partChecks (secPart c) (decide (secFlags c < 2) && cmdZero c 0x1e 2) 0x0610) ++ [(!cmdZero c 0x1e 2, 0x0610)])
        fun t => if secLen c < need then t.complete ref 0x061d need
          else
            let v := { t with hif := { t.hif with
              hostOps := t.hif.hostOps ++ [HostOp.attest ref (secAddr c) (t.report scope (bytesLE (cmdField c 0x20 32) 32))] } }
            { v.tick with sec := { t.sec with reports := t.sec.reports + 1 } })
    ∧ (∀ (k : Nat) ref host r, s.hif.hostOps[k]? = some (.attest ref host r) → s.canPost ref.ring.fn = true → ∀ l,
        let t := { s with hif := { s.hif with hostOps := listDrop s.hif.hostOps k } }
        ∀ errs, exec (.hostMemoryAccessComplete k ⟨some l, errs⟩) s =
          .next ((t.emit (.hostWrite ref.ring.fn host (Mem.ofList r) r.length)).complete ref 0 r.length))

/-- The responder, sessions, owner requests and IDE (R542 to R546, R557, R558, R561, R565): what is answered, and what each request changes where it is
accepted; a refused owner request is counted. The request codes, the flags and identifiers of the answers and what a signature covers are SPDM's as the
model takes them (assumption 58), as is a session's end; how a reading is taken is assumption 57, and the nonces of a stream are assumption 67. -/
def Obligations.RequestsOfOwnersAndPeers : Prop :=
  ∀ s : State,
    (s.su.awake = true → s.sec.ready = true →
      (∀ digest, s.fuses.ownerLock = false → s.sessionBy .smbus = true → exec (.ownerProvision true digest) s =
          .next (({ s with fuses := { s.fuses with owner := digest, ownerLock := true } } : State).spdm 0xfe true []))
      ∧ (∀ smbus digest, s.fuses.ownerLock = true ∨ smbus = false ∨ s.sessionBy .smbus = false →
          exec (.ownerProvision smbus digest) s = .next ((s.spdm 0xfe false []).authFailed))
      ∧ (∀ n ≤ 64, s.ownerSession = true → s.fuses.floor < n → n ≤ securityVersion s.su.image → ∃ t : State, exec (.floorAdvance n) s = .next (t.spdm 0xfe true [])
          ∧ t = { s with fuses := t.fuses } ∧ s.fuses.grown t.fuses ∧ n ≤ t.fuses.floor)
      ∧ (∀ n, s.ownerSession = false ∨ n ≤ s.fuses.floor ∨ 64 < n ∨ securityVersion s.su.image < n →
          exec (.floorAdvance n) s = .next ((s.spdm 0xfe false []).authFailed))
      ∧ (∀ chain : List Byte, s.ownerSession = true → chain.length ≤ 4096 → ∃ t : State, exec (.setCertificate 1 chain) s = .next (t.spdm 0xee true [])
          ∧ t.sec = { s.sec with chain1 := chain } ∧ t.fuses = s.fuses
          ∧ (SMap.wf Port.blank s.lnk.ports = true → ∀ p < 18, 
            let x := s.port p
            t.port p = if x.st = .held ∧ x.status = 0x0403
              then { x with st := if x.hold || x.testHold then .held else .training, status := 0 } else x))
      ∧ exec (.spdmRequest (.getCertificate 0)) s = .next (s.spdm 0x82 true s.fuses.chain0)
      ∧ (s.sec.chain1 ≠ [] → exec (.spdmRequest (.getCertificate 1)) s = .next (s.spdm 0x82 true s.sec.chain1))
      ∧ (∀ slot, s.chainOf slot = none → exec (.spdmRequest (.getCertificate slot)) s = .next (s.spdm 0x82 false [])
          ∧ ∀ nonce, exec (.spdmRequest (.challenge slot nonce)) s = .next (s.spdm 0x83 false []))
      ∧ exec (.spdmRequest .getVersion) s = .next (s.spdm 0x84 true [0x12, 0x13])
      ∧ exec (.spdmRequest .getCapabilities) s = .next (s.spdm 0xe1 true spdmCapabilities)
      ∧ exec (.spdmRequest .negotiateAlgorithms) s = .next (s.spdm 0xe3 true spdmAlgorithms)
      ∧ (∀ slot nonce, s.sec.drbgOk = true → s.chainOf slot ≠ none → exec (.spdmRequest (.challenge slot nonce)) s =
          .next (s.tick.spdm 0x83 true (freshNonce s.free ++ s.tick.sign (nonce ++ freshNonce s.free))))
      ∧ (s.sec.drbgOk = false → ∀ slot nonce, exec (.spdmRequest (.challenge slot nonce)) s = .next (s.spdm 0x83 false []))
      ∧ (∀ i m, s.measurement i = some m → exec (.spdmRequest (.getMeasurements i)) s = .next (s.tick.spdm 0xe0 true (m ++ s.sign m)))
      ∧ (∀ i, s.measurement i = none → exec (.spdmRequest (.getMeasurements i)) s = .next (s.spdm 0xe0 false []))
      ∧ (∀ path (share chain : List Byte), chain = [] ∨ chainSigned chain = true →
          (∀ z, ecdh (freshPrivate s.free) share = some z → s.sec.drbgOk = true → s.sec.sessions.length < 4 →
            exec (.spdmRequest (.keyExchange path share chain)) s = .next ((({ s with sec := { s.sec with sessions :=
              { owner := s.fuses.ownerLock && chainOk s.fuses.owner chain, path, secret := BitVec.ofNat 384 (natLE z) } :: s.sec.sessions } } : State).tick).spdm
                0xe4 true (freshShare s.free ++ s.tick.sign (share ++ freshShare s.free))))
          ∧ (ecdh (freshPrivate s.free) share = none ∨ s.sec.drbgOk = false ∨ 4 ≤ s.sec.sessions.length →
              exec (.spdmRequest (.keyExchange path share chain)) s = .next (s.spdm 0xe4 false [])))
      ∧ (∀ path (share chain : List Byte), chain ≠ [] → chainSigned chain = false →
          exec (.spdmRequest (.keyExchange path share chain)) s = .next (s.spdm 0xe4 false []).authFailed)
      ∧ (∀ k < s.sec.sessions.length, exec (.spdmRequest (.endSession k)) s =
          .next (({ s with sec := { s.sec with sessions := listDrop s.sec.sessions k } } : State).spdm 0xec true []))
      ∧ exec (.spdmRequest .badAuth) s = .next ((s.spdm 0xe4 false []).authFailed)
      ∧ (s.hif.linkUp = true → s.su.perstN = true → s.hif.flit = true → s.sessionBy .doe = true → ∀ fn, fnOk fn = true →
          exec (.query fn) s = .next (s.emit (.ideKm fn 0 true))
          ∧ (∀ key, exec (.keyProg ⟨fn, key⟩) s = .next ((s.setFunc fn { s.func fn with ideKey := some key }).emit (.ideKm fn 2 true)))
          ∧ ((s.func fn).ideKey ≠ none → exec (.kSetGo fn) s = .next ((s.setFunc fn { s.func fn with ideSecure := true, ideCount := 1 }).emit (.ideKm fn 4 true)))
          ∧ ((s.func fn).ideKey = none → exec (.kSetGo fn) s = .next (s.emit (.ideKm fn 4 false)))
          ∧ exec (.kSetStop fn) s = .next (((s.leaveSecure fn).setFunc fn { (s.leaveSecure fn).func fn with ideKey := none }).emit (.ideKm fn 5 true)))
      ∧ (s.hif.linkUp = true → s.su.perstN = true → s.hif.flit = false ∨ s.sessionBy .doe = false → ∀ fn, fnOk fn = true →
          exec (.query fn) s = .next (s.emit (.ideKm fn 0 false))
          ∧ (∀ key, exec (.keyProg ⟨fn, key⟩) s = .next (s.emit (.ideKm fn 2 false)))
          ∧ exec (.kSetGo fn) s = .next (s.emit (.ideKm fn 4 false))
          ∧ exec (.kSetStop fn) s = .next (s.emit (.ideKm fn 5 false))))
    ∧ (∀ fn, fnOk fn = true → (s.func fn).ideSecure = true →
        let t := s.setFunc fn { s.func fn with ideSecure := false }
        exec (.ideLeaveSecure fn) s = .next ((t.hif.hostOps.filter (t.ideOp fn)).foldl (fun t x => t.stopCopyOp x 0x061c)
          { t with hif := { t.hif with hostOps := t.hif.hostOps.filter fun x => !t.ideOp fn x } }))
    ∧ (s.sec.drbgOk = true → exec .secEntropyFail s =
        .next (({ s with sec := { s.sec with drbgOk := false } } : State).secEvent 0 { status := 0x0621 }))
    ∧ (s.sec.ready = true → exec .secEntropyRecover s = .next { s with sec := { s.sec with drbgOk := true } })
    ∧ (∀ n < 32, ∀ (r : Readings) (x : SlotRef), s.addrRef n (s.part n).readSlot = some x → x.ro = false → (s.part n).readSlot ≠ 0 →
        let p := s.part n
        let q := fun (a b : Nat) => (BitVec.ofNat 8 (min 63 (64 * a / b)) : Byte)
        let t := s.setPart n { p with since := [] }
        exec (.readingsWrite n r) s = .next ((t.setPart n { t.part n with readNo := (t.part n).readNo + 1 }).spanWrite n p.readSlot.toNat 8192
          (Mem.ofList (wordBytes (p.readNo + 1) ++ [q (p.counted 0) r.arrayPossible, q (p.counted 1) r.vectorPossible,
            q (64 * p.counted 3) (p.hbm.toNat * 13670000000000), q (64 * p.counted 4) (p.ballast.toNat * 460000000000),
            q (64 * p.counted 5) (p.link.toNat * (18 * 189200000000)), q (s.tier1Bytes n) (s.hbmBytes n),
            q (s.tier2Bytes n) (p.ballast.toNat * ballastUnit), q r.watts 2500]))))
    ∧ (∀ n < 32, ∀ r : Readings, (s.part n).readSlot = 0 → exec (.readingsWrite n r) s = .next (s.setPart n { s.part n with since := [] }))

/-! ### Power -/

/-- The ladder, self-test, supply and temperature (R571 to R595): a move ends at its target with the cores and ports of the states it passed; a test
ends with its signatures and takes what failed out of use; a core's supply and ceiling keep their ranges, and a core at its floor and 105 °C holds. A
LADDER to the present rung and what a core and a port keep over the ladder are the model's reading (assumption 59), and so are which signatures
mismatch (60), the steps of the ceiling (61) and the status of a hot core's event (12). -/
def Obligations.LadderAndTests : Prop :=
  ∀ s : State,
    (∀ o ref c, s.starts o 0x70 ref c = true →
      let target := rungOf (cmdField c 0x10 1)
      let u := s.started o
      s.carriesOut o (.ladder o) ref (u.ladderChecks target (cmdField c 0x13 1) 0x0716 (cmdZero c 0x11 2 && cmdZero c 0x14 44))
        fun t => if (decide (target.getD .aloft = t.pwr.low) && !t.su.packed) = true then t.complete ref 0
          else { t with pwr := { t.pwr with move := some { ref := some ref, target := target.getD .aloft, save := cmdField c 0x13 1 % 2 == 1 } } })
    ∧ (∀ m, s.pwr.move = some m → s.su.rails = true → ∃ t : State, exec .ladderComplete s = .next (t.answer m.ref 0x04 0 0 0)
      ∧ (m.target = .packed → t.su.stage = 0x01 ∧ t.su.packed = true ∧ t.su.rails = false ∧ t.su.switchClosed = s.su.switchClosed)
      ∧ (m.target ≠ .packed → t.pwr.low = m.target ∧ t.pwr.move = none)
      ∧ (SMap.wf Core.blank s.cores = true → SMap.wf Port.blank s.lnk.ports = true → m.target ≠ .packed →
          (s.pwr.low.depth < 2 → 2 ≤ m.target.depth →
            (∀ k < 256, t.core k = (t.core k).powerOff) ∧ (∀ p < 18, t.port p = (s.port p).ladderDown))
          ∧ (2 ≤ s.pwr.low.depth → m.target.depth < 2 →
            (∀ k < 256, t.core k = { s.core k with off := false, supply := (t.core k).supply }
              ∧ t.floorOf k ≤ (t.core k).supply.toNat ∧ (t.core k).supply.toNat ≤ t.ceilingOf k)
            ∧ (∀ p < 18, t.port p = (s.port p).ladderUp (decide (14 ≤ p) && s.siteConfig.isNone)))))
    ∧ (∀ o ref c, s.starts o 0x71 ref c = true →
      let kind := cmdField c 0x10 1
      let unit := cmdField c 0x11 1
      let depth := cmdField c 0x12 1
      let u := s.started o
      s.carriesOut o (.selftest o) ref (u.testChecks kind unit depth (cmdField c 0x13 1) 0x0716 (cmdZero c 0x14 44))
        fun t => { t.drainUnit kind unit with pwr := { (t.drainUnit kind unit).pwr with
          test := some { ref := some ref, kind := kind, unit := unit, full := depth == 1, atDrain := t.unitInUse kind unit } } })
    ∧ (∀ sig expd fails x, s.pwr.test = some x → s.su.rails = true → s.testDue x = true → fails.all TestUnit.valid = true → fails.all x.covers = true →
        fails.all s.testable = true →
        (x.kind = 3 ∨ (fails = [] ↔ sig = expd)) → ∃ t : State, exec (.selftestComplete sig expd fails) s =
          .next (t.answer x.ref 0x05 (if fails = [] then 0 else 0x0702) (if x.kind = 3 then fails.length else sig.toNat) 8)
        ∧ t.pwr = { s.pwr with test := none, stSig := sig, stExp := expd }
        ∧ (∀ k j, .array k j ∈ fails → bit t.su.testedOff (2 * k + j) = true)
        ∧ (fails.any TestUnit.halting = true → t.su.stage = 0x0e ∧ t.su.status = 0x0701)
        ∧ (fails = [] → t.cores = s.cores ∧ t.spn = s.spn ∧ t.parts = s.parts ∧ t.su = s.su))
    ∧ (∀ k < 256, s.su.rails = true → (s.core k).off = false →
        (SMap.wf Core.blank s.cores = true →
          ((s.core k).supply.toNat < s.ceilingOf k → ∃ t : State, exec (.supplyStep k true) s = .next t
            ∧ t.core k = { s.core k with supply := BitVec.ofNat 6 (max (s.floorOf k) ((s.core k).supply.toNat + 1)) }
            ∧ t = { s with cores := t.cores } ∧ ∀ j, j ≠ k → t.core j = s.core j)
          ∧ (s.floorOf k < (s.core k).supply.toNat → ∃ t : State, exec (.supplyStep k false) s = .next t
            ∧ t.core k = { s.core k with supply := BitVec.ofNat 6 (min (s.ceilingOf k) ((s.core k).supply.toNat - 1)) }
            ∧ t = { s with cores := t.cores } ∧ ∀ j, j ≠ k → t.core j = s.core j))
        ∧ (∀ temp : Byte, 95 ≤ temp.toNat →
          ((s.core k).hot = true → exec (.coreHot k temp) s = .next (s.heat k temp))
          ∧ ((s.core k).hot = false → exec (.coreHot k temp) s =
              .next (((s.heat k temp).modCore k fun c => { c with hot := true }).pwrEvent 1
                { status := unlistedCode 4, words := [k] })))
        ∧ (SMap.wf Core.blank s.cores = true →
          (∀ temp : Byte, (s.core k).hot = true → 93 ≤ temp.toNat → ∃ t : State, exec (.ceilingStep k temp) s = .next t
            ∧ (t.core k).ceilingCut = (s.core k).ceilingCut + (if s.floorOf k < s.ceilingOf k then 1 else 0)
            ∧ (t.core k).supply.toNat = min (s.core k).supply.toNat (t.ceilingOf k) ∧ (t.core k).temp = temp)
          ∧ (∀ temp : Byte, ((s.core k).hot = true ∧ temp.toNat < 93) ∨ ((s.core k).hot = false ∧ (s.core k).ceilingCut ≠ 0) → ∃ t : State,
            exec (.ceilingStep k temp) s = .next t
            ∧ t.core k = { s.core k with temp := temp, hot := false
                                         ceilingCut := if (s.core k).ceilingCut = 0 then 0 else (s.core k).ceilingCut - 1 })
          ∧ (∀ temp : Byte, 105 ≤ temp.toNat → (s.core k).supply.toNat ≤ s.floorOf k → (s.core k).held = false → ∃ t : State,
            exec (.coreHold k temp) s = .next t ∧ t.core k = { s.core k with temp := temp, held := true }
            ∧ t.pwr.holds = stick s.pwr.holds ∧ bit t.pwr.event 0 = true)))
    ∧ (∀ k < 256, ∀ temp : Byte, (s.core k).held = true → temp.toNat < 100 →
        exec (.coreHoldRelease k temp) s = .next ((s.heat k temp).modCore k fun c => { c with held := false }))
    ∧ (∀ k < 256, (s.core k).aloft = true →
        ((s.core k).arrA.quiet = true → exec (.engineGate k 0) s = .next (s.setCore k { s.core k with gatedA := true }))
        ∧ ((s.core k).arrB.quiet = true → exec (.engineGate k 1) s = .next (s.setCore k { s.core k with gatedB := true }))
        ∧ ((s.core k).flagsSettled = true → exec (.engineGate k 2) s = .next (s.setCore k { s.core k with gatedV := true })))
    ∧ (∀ k, s.floorOf k ≤ s.ceilingOf k ∧ s.ceilingOf k ≤ 35)
    ∧ (∀ stack < 12, exec (.hbmCalibration stack) s = .next s)

/-! ### Management -/

/-- The rows of management that are heard only while the controller is awake, over their operands. -/
def managementRows (path : MctpPath) (req : MctpReq) (eid n : Byte) (body first off : W32) (ident at_ : Nat) (data : List Byte) : List Instr :=
  [.mctpControl path req eid, .getStartup, .wake, .reset, .mgmtLadder body, .mgmtSelftest body, .logRead first n, .counterClear, .regRead off,
   .getSensorReading ident, .setEventReceiver eid, .requestUpdate, .firmwareData at_ data, .transferComplete, .verifyComplete, .activateFirmware]

/-- The management controller (R597 to R612): MCTP_CONTROL, GET_STARTUP, WAKE, RESET, LADDER, SELFTEST, LOG_READ, COUNTER_CLEAR, REG_READ,
GET_SENSOR_READING, SET_EVENT_RECEIVER, REQUEST_UPDATE, FIRMWARE_DATA, TRANSFER_COMPLETE, VERIFY_COMPLETE and ACTIVATE_FIRMWARE do nothing while the
controller is not awake. While it is, each is answered, with its effect or with the status that refuses it, which changes nothing but the answer; a
message that reaches the module by no path or of a type that it does not serve is dropped, a block of data ends in no answer, and what an update has
no use for (a block or a check before its time or after it, or while the module has not got the flash) changes nothing. EVENT_RESEND and
EVENT_ACKNOWLEDGE end in a next state in every state. An update's data goes to the slot not in use, every outcome of its check is logged, and only an
update that verified is activated. The codes are those of MCTP and PLDM as the model takes them (assumption 58); the packets' layout, what RESET and
COUNTER_CLEAR touch (64), what the log, the sensors' levels and the receiver do (63), the order of field errors and 0x0812 (59) and what ends an
update or makes it wait (65) are the model's reading. -/
def Obligations.ManagementAnswers : Prop :=
  ∀ s : State,
    (s.su.awake = false → ∀ path req eid n body first off ident at_ data, ∀ i ∈ managementRows path req eid n body first off ident at_ data,
      exec i s = .next s)
    ∧ (∀ path eid, s.su.awake = true → path = .smbus s.smbusAddress ∨ (path = .vdm ∧ s.hif.linkUp = true) →
      (∀ cmd, exec (.mctpControl path (.control cmd) eid) s =
        .next (let t := if cmd = 1 then s.setEid path eid else s; t.emit (.mctp (packets (t.mctpAnswer path cmd)))))
      ∧ (∀ kind cmd, exec (.mctpControl path (.pldm kind cmd) eid) s = .next (s.emit (pldmAnswer kind cmd)))
      ∧ (∀ code, code = 0 ∨ 8 < code → exec (.mctpControl path (.vendor code) eid) s = .next (s.vendor code 0x0811 []))
      ∧ (∀ code, 1 ≤ code → code ≤ 8 → exec (.mctpControl path (.vendor code) eid) s = .next s)
      ∧ (∀ kind, exec (.mctpControl path (.other kind) eid) s = .next s))
    ∧ (∀ req eid, (s.hif.linkUp = false → exec (.mctpControl .vdm req eid) s = .next s)
      ∧ ∀ a, a ≠ 0x60 + s.su.site.zeroExtend 7 → exec (.mctpControl (.smbus a) req eid) s = .next s)
    ∧ (s.su.awake = true → exec .getStartup s = .next (s.vendor 0x01 0 (wordBytes s.startupWord)))
    ∧ (s.su.awake = true → s.su.packed = false → exec .wake s = .next (s.vendor 0x02 0 []))
    ∧ (s.su.awake = true → s.su.packed = true → exec .wake s =
      .next ({ (s.vendor 0x02 0 []) with su := { s.su with packed := false, converters := true, stage := 0x02 } }))
    ∧ (s.su.awake = true → ∃ t : State, exec .reset s = .next t ∧ t.outbox = (s.vendor 0x03 0 []).outbox ∧ t.mgt = { s.mgt with update := none }
      ∧ t.fuses = s.fuses ∧ t.flash = s.flash ∧ t.su.rails = false ∧ t.su.converters = false ∧ t.su.switchClosed = false ∧ t.cores = [] ∧ t.parts = []
      ∧ t.spn = {} ∧ t.lnk = {} ∧ t.gon = {} ∧ t.hif = {} ∧ t.pwr = {} ∧ t.su.modResetN = s.su.modResetN
      ∧ (s.su.modResetN = true → t.su.stage = 0x01 ∧ t.su.thermalTrip = false ∧ t.su.currentTrip = false)
      ∧ (s.su.modResetN = false → t.su.stage = 0x0f ∧ t.su.thermalTrip = s.su.thermalTrip ∧ t.su.currentTrip = s.su.currentTrip))
    ∧ (∀ body, s.su.awake = true → ladderBodyOk body = false → exec (.mgmtLadder body) s = .next (s.vendor 0x04 0x0811 []))
    ∧ (∀ body, s.su.awake = true → ladderBodyOk body = true → s.noRails = true → bodyByte body 0 ≠ 0 →
        exec (.mgmtLadder body) s = .next (s.vendor 0x04 0x0812 []))
    ∧ (∀ body, s.su.awake = true → ladderBodyOk body = true → s.noRails = false ∨ bodyByte body 0 = 0 →
      let target := rungOf (bodyByte body 0)
      let checks := s.ladderChecks target (bodyByte body 3) 0x0811 true
      (∀ st, firstFail checks = some st → exec (.mgmtLadder body) s = .next (s.vendor 0x04 st []))
      ∧ (firstFail checks = none → target = some s.pwr.low → s.su.packed = false → exec (.mgmtLadder body) s = .next (s.vendor 0x04 0 []))
      ∧ (∀ r, firstFail checks = none → target = some r → r ≠ s.pwr.low ∨ s.su.packed = true → exec (.mgmtLadder body) s =
          .next { s with pwr := { s.pwr with move := some { ref := none, target := r, save := bodyByte body 3 % 2 == 1 } } }))
    ∧ (∀ body, s.su.awake = true →
      let kind := bodyByte body 0
      let unit := bodyByte body 1
      let ok := testFieldsOk kind unit (bodyByte body 2) (bodyByte body 3)
      let checks := s.testChecks kind unit (bodyByte body 2) (bodyByte body 3) 0x0811 true
      (ok = false → exec (.mgmtSelftest body) s = .next (s.vendor 0x05 0x0811 []))
      ∧ (ok = true → s.noRails = true → exec (.mgmtSelftest body) s = .next (s.vendor 0x05 0x0812 []))
      ∧ (ok = true → s.noRails = false → ∀ st, firstFail checks = some st → exec (.mgmtSelftest body) s = .next (s.vendor 0x05 st []))
      ∧ (s.noRails = false → firstFail checks = none → exec (.mgmtSelftest body) s =
          .next { s.drainUnit kind unit with pwr := { (s.drainUnit kind unit).pwr with
            test := some { ref := none, kind := kind, unit := unit, full := bodyByte body 2 == 1, atDrain := s.unitInUse kind unit } } }))
    ∧ (∀ first (n : Byte), s.su.awake = true →
      (n = 0 ∨ 8 < n.toNat → exec (.logRead first n) s = .next (s.vendor 0x06 0x0811 []))
      ∧ (1 ≤ n.toNat → n.toNat ≤ 8 →
        (s.logAhead first = true → exec (.logRead first n) s = .next (s.vendor 0x06 0 []))
        ∧ (s.logAhead first = false → s.logGone first = true → exec (.logRead first n) s = .next (s.vendor 0x06 0x0813 []))
        ∧ (s.logAhead first = false → s.logGone first = false →
            exec (.logRead first n) s = .next (s.vendor 0x06 0 ((s.logFrom first n.toNat).flatMap LogEntry.bytes)))))
    ∧ (s.su.awake = true → ∃ t : State, exec .counterClear s = .next (t.vendor 0x07 0 []) ∧ t.hif.evtDrop = 0 ∧ t.spn.hbmCe = 0 ∧ t.spn.balCe = 0
      ∧ t.spn.ue = 0 ∧ t.gon.reelDrop = 0 ∧ t.sec.authFail = 0
      ∧ t.pwr.holds = 0 ∧ t.mgt.logNext = s.mgt.logNext + 1 ∧ (t.mgt.log.head?.map (·.status) = some 0x0818)
      ∧ (SMap.wf Port.blank s.lnk.ports = true → ∀ p < 18, t.port p = (s.port p).clearCounts))
    ∧ (∀ off : W32, s.su.awake = true → off.toNat % 4 ≠ 0 ∨ 0x100000 ≤ off.toNat → exec (.regRead off) s = .next (s.vendor 0x08 0x0811 []))
    ∧ (∀ off : W32, s.su.awake = true → off.toNat % 4 = 0 → off.toNat < 0x100000 →
      (s.noRails = true → off.toNat / 0x10000 ≠ 7 → exec (.regRead off) s = .next (s.vendor 0x08 0x0812 []))
      ∧ (s.noRails = false ∨ off.toNat / 0x10000 = 7 → exec (.regRead off) s = .next (s.tick.vendor 0x08 0 (wordBytes (s.pfReg off.toNat)))))
    ∧ (s.su.awake = true → ∀ i, (1 ≤ i ∧ i ≤ 17) ∨ (32 ≤ i ∧ i ≤ 51) →
      let v := if i = 17 then 512 - popCount s.arraysOff else if i = 32 then s.ladderCode else if i = 51 then s.shownStage.toNat
        else if i ≤ 16 then s.measured i else (s.port (i - 33)).st.code
      exec (.getSensorReading i) s = .next (s.tick.emit (.sensor i v (sensorLevel i v))))
    ∧ (∀ v, sensorLevel 1 v = (if 2500 ≤ v then .upperCritical else if 2400 ≤ v then .upperWarning else .normal)
      ∧ sensorLevel 2 v = (if 660 ≤ v then .upperCritical else if 640 ≤ v then .upperWarning else if v ≤ 510 then .lowerCritical
          else if v ≤ 540 then .lowerWarning else .normal)
      ∧ sensorLevel 3 v = (if 105 ≤ v then .upperCritical else if 95 ≤ v then .upperWarning else .normal))
    ∧ (∀ i, s.su.awake = true → i = 0 ∨ (18 ≤ i ∧ i ≤ 31) ∨ 52 ≤ i → exec (.getSensorReading i) s = .next (s.emit (.pldm 0x11 0x80)))
    ∧ (∀ eid : Byte, s.su.awake = true → exec (.setEventReceiver eid) s = .next (({ s with mgt := { s.mgt with
        receiver := if eid = 0 then none else some eid, unacked := if eid = 0 then [] else s.mgt.unacked } } : State).emit (.pldm 0x04 0)))
    ∧ (s.su.awake = true → s.mgt.update ≠ none → exec .requestUpdate s = .next (s.pldm 0x10 0x81))
    ∧ (s.su.awake = true → s.mgt.update = none → s.su.stage ≠ 0x0b → s.su.stage ≠ 0x0e → exec .requestUpdate s = .next (s.pldm 0x10 0x8e))
    ∧ (s.su.awake = true → s.mgt.update = none → s.su.stage = 0x0b ∨ s.su.stage = 0x0e → exec .requestUpdate s =
      .next (({ s with mgt := { s.mgt with update := some { slot := !s.su.slot } }, su := { s.su with flashBusy := s.su.flashHoldN } } : State).pldm 0x10 0))
    ∧ (∀ number e (n : Nat), s.mgt.unacked.find? (fun u => u.1 == number) = some (number, n) → s.logEntry number = some e →
        s.mgt.receiver ≠ none → n ≤ 3 → ∃ t : State, exec (.eventResend number) s = .next (t.emit (.pldmEvent e))
          ∧ t.mgt.unacked.find? (fun u => u.1 == number) = some (number, n + 1))
    ∧ (∀ number, s.mgt.unacked.find? (fun u => u.1 == number) = none ∨ s.logEntry number = none ∨ s.mgt.receiver = none
          ∨ (∃ n : Nat, s.mgt.unacked.find? (fun u => u.1 == number) = some (number, n) ∧ 3 < n) →
        exec (.eventResend number) s = .next { s with mgt := { s.mgt with unacked := s.mgt.unacked.filter fun x => x.1 != number } })
    ∧ (∀ number, exec (.eventAcknowledge number) s =
        .next { s with mgt := { s.mgt with unacked := s.mgt.unacked.filter fun x => x.1 != number } })
    ∧ (s.su.awake = true →
      (∀ u off (data : List Byte), s.mgt.update = some u → u.transferred = false → s.su.flashBusy = true →
        (off + data.length ≤ 0x1000000 → ∃ t : State, exec (.firmwareData off data) s = .next t ∧ t = { s with flash := t.flash }
          ∧ (∀ i, (_ : i < data.length) → t.flash.byte ((if u.slot then 0x1000000 else 0) + off + i) = data[i])
          ∧ (∀ a, a < (if u.slot then 0x1000000 else 0) + off ∨ (if u.slot then 0x1000000 else 0) + off + data.length ≤ a →
              t.flash.byte a = s.flash.byte a))
        ∧ (0x1000000 < off + data.length → exec (.firmwareData off data) s = .next (s.pldm 0x15 0x82)))
      ∧ (∀ off (data : List Byte), s.mgt.update = none ∨ s.su.flashBusy = false ∨ (∃ u, s.mgt.update = some u ∧ u.transferred = true) →
          exec (.firmwareData off data) s = .next s)
      ∧ (s.mgt.update = none → exec .transferComplete s = .next (s.pldm 0x16 0x80) ∧ exec .verifyComplete s = .next s
          ∧ exec .activateFirmware s = .next (s.pldm 0x1a 0x80))
      ∧ (∀ u, s.mgt.update = some u → s.su.flashBusy = true → exec .transferComplete s =
          .next (({ s with mgt := { s.mgt with update := some { u with transferred := true } } } : State).pldm 0x16 0))
      ∧ (∀ u, s.mgt.update = some u → s.su.flashBusy = false → exec .transferComplete s = .next s)
      ∧ (∀ u, s.mgt.update = some u → u.transferred = false ∨ u.verified ≠ none ∨ s.su.flashBusy = false → exec .verifyComplete s = .next s)
      ∧ (∀ u, s.mgt.update = some u → u.transferred = true → u.verified = none → s.su.flashBusy = true →
        let st := s.updateFault u.slot
        let t := (s.log { status := st } (if st = 0 then 0 else 2)).pldm 0x17 st
        (st = 0 → exec .verifyComplete s = .next { t with mgt := { t.mgt with update := some { u with verified := some 0 } } })
        ∧ (st ≠ 0 → exec .verifyComplete s = .next { t with mgt := { t.mgt with update := none }, su := { t.su with flashBusy := false } }))
      ∧ (∀ u, s.mgt.update = some u → u.verified ≠ none → exec .activateFirmware s =
          .next ((({ s with mgt := { s.mgt with update := none }, su := { s.su with flashBusy := false } } : State).pldm 0x1a 0).emit (.activate true)))
      ∧ (∀ u, s.mgt.update = some u → u.verified = none → exec .activateFirmware s = .next (s.pldm 0x1a 0x85)))
end

