-- ==== Sys2Proof/Laws/Fold.lean ====
section
/-! SUPPORT. What a fold over states, and a choice between two, keeps: the queue of commands, the fuses, and power, pins and stage. -/

namespace Sys2Proof.Machine

/-- A fold keeps the queue, if each step does. -/
@[simp] theorem foldl_pending {α : Type} (f : State → α → State) (h : ∀ t a, (f t a).pending = t.pending) (l : List α) (s : State) :
    (l.foldl f s).pending = s.pending := by
  induction l generalizing s with
  | nil => rfl
  | cons a r ih => simp [ih, h]

/-- A fold keeps the fuses, if each step does. -/
@[simp] theorem foldl_fuses {α : Type} (f : State → α → State) (h : ∀ t a, (f t a).fuses = t.fuses) (l : List α) (s : State) :
    (l.foldl f s).fuses = s.fuses := by
  induction l generalizing s with
  | nil => rfl
  | cons a r ih => simp [ih, h]

/-- A fold keeps power, pins and stage, if each step does. -/
@[simp] theorem foldl_power {α : Type} (f : State → α → State) (h : ∀ t a, (f t a).su.power = t.su.power) (l : List α) (s : State) :
    (l.foldl f s).su.power = s.su.power := by
  induction l generalizing s with
  | nil => rfl
  | cons a r ih => simp [ih, h]

/-- A choice between two states keeps the queue, if both do. -/
@[simp] theorem ite_pending (c : Prop) [Decidable c] (a b : State) : (if c then a else b).pending = if c then a.pending else b.pending :=
  apply_ite State.pending c a b
/-- A choice between two states keeps the fuses, if both do. -/
@[simp] theorem ite_fuses (c : Prop) [Decidable c] (a b : State) : (if c then a else b).fuses = if c then a.fuses else b.fuses :=
  apply_ite State.fuses c a b
/-- A choice between two states keeps power, pins and stage, if both do. -/
@[simp] theorem ite_power (c : Prop) [Decidable c] (a b : State) : (if c then a else b).su.power = if c then a.su.power else b.su.power :=
  apply_ite (fun s : State => s.su.power) c a b

/-- A status recorded moves no power. -/
@[simp] theorem Startup.power_status (u : Startup) (x : W16) : Startup.power { u with status := x } = u.power := rfl
/-- A flash access moves no power. -/
@[simp] theorem Startup.power_flashBusy (u : Startup) (x : Bool) : Startup.power { u with flashBusy := x } = u.power := rfl
/-- A voltage taken moves no power. -/
@[simp] theorem Startup.power_volts (u : Startup) (x : W16) : Startup.power { u with volts := x } = u.power := rfl
/-- The input seen moves no power. -/
@[simp] theorem Startup.power_seen (u : Startup) (x : W16) (y : Bool) : Startup.power { u with volts := x, pwrfailN := y } = u.power := rfl
/-- The host interface's pins move no power. -/
@[simp] theorem Startup.power_hx (u : Startup) (x y z : Bool) : Startup.power { u with hxRail := x, wakeN := y, clkreqN := z } = u.power := rfl
/-- What is published moves no power. -/
@[simp] theorem Startup.power_published (u : Startup) (x : Option (Nat × BitVec 512)) : Startup.power { u with published := x } = u.power := rfl
/-- What self-test takes out of use moves no power. -/
@[simp] theorem Startup.power_testedOff (u : Startup) (x : BitVec 512) : Startup.power { u with testedOff := x } = u.power := rfl
@[simp] theorem Startup.power_withheld (u : Startup) (x : W32) : Startup.power { u with withheld := x } = u.power := rfl
@[simp] theorem Startup.power_takeArray (u : Startup) (x : BitVec 512) (y : W32) :
    Startup.power { u with testedOff := x, withheld := y } = u.power := rfl
@[simp] theorem Startup.power_badTethers (u : Startup) (x : W32) : Startup.power { u with badTethers := x } = u.power := rfl
@[simp] theorem Startup.power_belowGrade (u : Startup) (x : Bool) : Startup.power { u with belowGrade := x } = u.power := rfl
/-- PERST_N moves no power. -/
@[simp] theorem Startup.power_perstN (u : Startup) (x : Bool) : Startup.power { u with perstN := x } = u.power := rfl

end Sys2Proof.Machine
end

