-- ==== Sys2Proof/Laws/KeepsOps.lean ====
section
/-! SUPPORT. What the operations of Machine/Ops.lean keep: the queue, the fuses, and power, pins and stage where they move none. -/

namespace Sys2Proof.Machine

@[simp] theorem State.setCore_keeps (s : State) (k : Nat) (c : Core) :
    (State.setCore s k c).pending = (s).pending ∧ (State.setCore s k c).fuses = (s).fuses ∧ (State.setCore s k c).su.power = (s).su.power := by
  unfold State.setCore
  simp

@[simp] theorem State.modCore_keeps (s : State) (k : Nat) (f : Core → Core) :
    (State.modCore s k f).pending = (s).pending ∧ (State.modCore s k f).fuses = (s).fuses ∧ (State.modCore s k f).su.power = (s).su.power := by
  unfold State.modCore
  simp

@[simp] theorem State.setPart_keeps (s : State) (n : Nat) (p : Part) :
    (State.setPart s n p).pending = (s).pending ∧ (State.setPart s n p).fuses = (s).fuses ∧ (State.setPart s n p).su.power = (s).su.power := by
  unfold State.setPart
  simp

@[simp] theorem State.modPart_keeps (s : State) (n : Nat) (f : Part → Part) :
    (State.modPart s n f).pending = (s).pending ∧ (State.modPart s n f).fuses = (s).fuses ∧ (State.modPart s n f).su.power = (s).su.power := by
  unfold State.modPart
  simp

@[simp] theorem State.setPort_keeps (s : State) (p : Nat) (x : Port) :
    (State.setPort s p x).pending = (s).pending ∧ (State.setPort s p x).fuses = (s).fuses ∧ (State.setPort s p x).su.power = (s).su.power := by
  unfold State.setPort
  simp

@[simp] theorem State.modPort_keeps (s : State) (p : Nat) (f : Port → Port) :
    (State.modPort s p f).pending = (s).pending ∧ (State.modPort s p f).fuses = (s).fuses ∧ (State.modPort s p f).su.power = (s).su.power := by
  unfold State.modPort
  simp

@[simp] theorem State.setRing_keeps (s : State) (o : RingId) (r : Ring) :
    (State.setRing s o r).pending = (s).pending ∧ (State.setRing s o r).fuses = (s).fuses ∧ (State.setRing s o r).su.power = (s).su.power := by
  unfold State.setRing
  simp

@[simp] theorem State.setFunc_keeps (s : State) (fn : Nat) (f : Func) :
    (State.setFunc s fn f).pending = (s).pending ∧ (State.setFunc s fn f).fuses = (s).fuses ∧ (State.setFunc s fn f).su.power = (s).su.power := by
  unfold State.setFunc
  simp

@[simp] theorem State.setGondola_keeps (s : State) (g : Nat) (d : Gondola) :
    (State.setGondola s g d).pending = (s).pending ∧ (State.setGondola s g d).fuses = (s).fuses ∧ (State.setGondola s g d).su.power = (s).su.power := by
  unfold State.setGondola
  simp

@[simp] theorem State.setReel_keeps (s : State) (i : Nat) (r : Reel) :
    (State.setReel s i r).pending = (s).pending ∧ (State.setReel s i r).fuses = (s).fuses ∧ (State.setReel s i r).su.power = (s).su.power := by
  unfold State.setReel
  simp

@[simp] theorem State.setBucket_keeps (s : State) (i : Nat) (l : List BktDef) :
    (State.setBucket s i l).pending = (s).pending ∧ (State.setBucket s i l).fuses = (s).fuses ∧ (State.setBucket s i l).su.power = (s).su.power := by
  unfold State.setBucket
  simp

@[simp] theorem State.modCores_keeps (s : State) (l : List Nat) (f : Nat → Core → Core) :
    (State.modCores s l f).pending = (s).pending ∧ (State.modCores s l f).fuses = (s).fuses ∧ (State.modCores s l f).su.power = (s).su.power := by
  unfold State.modCores
  simp

@[simp] theorem State.tick_keeps (s : State) :
    (State.tick s).pending = (s).pending ∧ (State.tick s).fuses = (s).fuses ∧ (State.tick s).su.power = (s).su.power := by
  unfold State.tick
  simp

@[simp] theorem State.emit_keeps (s : State) (o : Out) :
    (State.emit s o).pending = (s).pending ∧ (State.emit s o).fuses = (s).fuses ∧ (State.emit s o).su.power = (s).su.power := by
  unfold State.emit
  simp

@[simp] theorem State.fire_keeps (s : State) (fn vec : Nat) :
    (State.fire s fn vec).pending = (s).pending ∧ (State.fire s fn vec).fuses = (s).fuses ∧ (State.fire s fn vec).su.power = (s).su.power := by
  unfold State.fire
  simp

@[simp] theorem State.firePending_keeps (s : State) (fn vec : Nat) :
    (State.firePending s fn vec).pending = (s).pending ∧ (State.firePending s fn vec).fuses = (s).fuses ∧ (State.firePending s fn vec).su.power = (s).su.power := by
  unfold State.firePending
  simp

@[simp] theorem State.putEntry_keeps (s : State) (o : RingId) (e : CplEntry) :
    (State.putEntry s o e).pending = (s).pending ∧ (State.putEntry s o e).fuses = (s).fuses ∧ (State.putEntry s o e).su.power = (s).su.power := by
  unfold State.putEntry
  simp

@[simp] theorem State.flush_keeps (s : State) (o : RingId) :
    (State.flush s o).pending = (s).pending ∧ (State.flush s o).fuses = (s).fuses ∧ (State.flush s o).su.power = (s).su.power := by
  unfold State.flush
  simp

@[simp] theorem State.enqueueRaw_keeps (s : State) (o : RingId) (e : CplEntry) :
    (State.enqueueRaw s o e).pending = (s).pending ∧ (State.enqueueRaw s o e).fuses = (s).fuses ∧ (State.enqueueRaw s o e).su.power = (s).su.power := by
  unfold State.enqueueRaw
  simp

@[simp] theorem State.log_keeps (s : State) (e : Ev) (cls : Nat) :
    (State.log s e cls).pending = (s).pending ∧ (State.log s e cls).fuses = (s).fuses ∧ (State.log s e cls).su.power = (s).su.power := by
  unfold State.log
  (repeat' split) <;> simp

@[simp] theorem State.postRaw_keeps (s : State) (part : Option Nat) (e : CplEntry) :
    (State.postRaw s part e).pending = (s).pending ∧ (State.postRaw s part e).fuses = (s).fuses ∧ (State.postRaw s part e).su.power = (s).su.power := by
  unfold State.postRaw
  (repeat' split) <;> simp

@[simp] theorem State.post_keeps (s : State) (part : Option Nat) (e : CplEntry) :
    (State.post s part e).pending = (s).pending ∧ (State.post s part e).fuses = (s).fuses ∧ (State.post s part e).su.power = (s).su.power := by
  unfold State.post
  simp

@[simp] theorem State.raise_keeps (s : State) (e : Ev) (enabled : Bool := true) :
    (State.raise s e enabled).pending = (s).pending ∧ (State.raise s e enabled).fuses = (s).fuses ∧ (State.raise s e enabled).su.power = (s).su.power := by
  unfold State.raise
  (repeat' split) <;> simp

@[simp] theorem State.hifEvent_keeps (s : State) (i : Nat) (e : Ev) :
    (State.hifEvent s i e).pending = (s).pending ∧ (State.hifEvent s i e).fuses = (s).fuses ∧ (State.hifEvent s i e).su.power = (s).su.power := by
  unfold State.hifEvent
  simp

@[simp] theorem State.spnEvent_keeps (s : State) (i : Nat) (e : Ev) :
    (State.spnEvent s i e).pending = (s).pending ∧ (State.spnEvent s i e).fuses = (s).fuses ∧ (State.spnEvent s i e).su.power = (s).su.power := by
  unfold State.spnEvent
  simp

@[simp] theorem State.lnkEvent_keeps (s : State) (i : Nat) (e : Ev) :
    (State.lnkEvent s i e).pending = (s).pending ∧ (State.lnkEvent s i e).fuses = (s).fuses ∧ (State.lnkEvent s i e).su.power = (s).su.power := by
  unfold State.lnkEvent
  simp

@[simp] theorem State.gonEvent_keeps (s : State) (i : Nat) (e : Ev) :
    (State.gonEvent s i e).pending = (s).pending ∧ (State.gonEvent s i e).fuses = (s).fuses ∧ (State.gonEvent s i e).su.power = (s).su.power := by
  unfold State.gonEvent
  simp

@[simp] theorem State.secEvent_keeps (s : State) (i : Nat) (e : Ev) :
    (State.secEvent s i e).pending = (s).pending ∧ (State.secEvent s i e).fuses = (s).fuses ∧ (State.secEvent s i e).su.power = (s).su.power := by
  unfold State.secEvent
  simp

@[simp] theorem State.pwrEvent_keeps (s : State) (i : Nat) (e : Ev) :
    (State.pwrEvent s i e).pending = (s).pending ∧ (State.pwrEvent s i e).fuses = (s).fuses ∧ (State.pwrEvent s i e).su.power = (s).su.power := by
  unfold State.pwrEvent
  simp

@[simp] theorem State.settle_keeps (s : State) (o : RingId) :
    (State.settle s o).pending = (s).pending ∧ (State.settle s o).fuses = (s).fuses ∧ (State.settle s o).su.power = (s).su.power := by
  unfold State.settle
  simp

@[simp] theorem State.logCorrected_keeps (s : State) (offset port value : Nat) :
    (State.logCorrected s offset port value).pending = (s).pending ∧ (State.logCorrected s offset port value).fuses = (s).fuses ∧ (State.logCorrected s offset port value).su.power = (s).su.power := by
  unfold State.logCorrected
  (repeat' split) <;> simp

@[simp] theorem State.count_keeps (s : State) (part : Option Nat) (k n : Nat) :
    (State.count s part k n).pending = (s).pending ∧ (State.count s part k n).fuses = (s).fuses ∧ (State.count s part k n).su.power = (s).su.power := by
  unfold State.count
  (repeat' split) <;> simp

@[simp] theorem State.complete_keeps (s : State) (ref : CmdRef) (status : Nat) (result : Nat := 0) :
    (State.complete s ref status result).pending = (s).pending ∧ (State.complete s ref status result).fuses = (s).fuses ∧ (State.complete s ref status result).su.power = (s).su.power := by
  unfold State.complete
  simp

@[simp] theorem State.completeOpt_keeps (s : State) (ref : Option CmdRef) (status : Nat) (result : Nat := 0) :
    (State.completeOpt s ref status result).pending = (s).pending ∧ (State.completeOpt s ref status result).fuses = (s).fuses ∧ (State.completeOpt s ref status result).su.power = (s).su.power := by
  unfold State.completeOpt
  (repeat' split) <;> simp

@[simp] theorem State.checked_keeps (s : State) (ref : CmdRef) (checks : List (Bool × Nat)) (f : State → State) (h_f : ∀ (x0 : State), (f x0).pending = (x0).pending ∧ (f x0).fuses = (x0).fuses ∧ (f x0).su.power = (x0).su.power) :
    (State.checked s ref checks f).pending = (s).pending ∧ (State.checked s ref checks f).fuses = (s).fuses ∧ (State.checked s ref checks f).su.power = (s).su.power := by
  unfold State.checked
  (repeat' split) <;> simp [h_f]

end Sys2Proof.Machine
end

