-- ==== Sys2Proof/Laws/KeepsPartOps.lean ====
section
/-! SUPPORT. What the operations of Machine/PartOps.lean keep: the queue, the fuses, and power, pins and stage where they move none. -/

namespace Sys2Proof.Machine

@[simp] theorem State.createPartition_keeps (s : State) (n : Nat) (kites : W32) (hbm ballast link : Byte) :
    (State.createPartition s n kites hbm ballast link).pending = (s).pending ∧ (State.createPartition s n kites hbm ballast link).fuses = (s).fuses ∧ (State.createPartition s n kites hbm ballast link).su.power = (s).su.power := by
  unfold State.createPartition
  simp

end Sys2Proof.Machine
end

