-- ==== Sys2Proof/Laws/KeepsStartup.lean ====
section
/-! SUPPORT. What the operations of Machine/Startup.lean keep: the queue, the fuses, and power, pins and stage where they move none. -/

namespace Sys2Proof.Machine

@[simp] theorem State.dark_keeps (s : State) :
    (State.dark s).pending = (s).pending ∧ (State.dark s).fuses = (s).fuses := by
  unfold State.dark
  try dsimp only
  simp

@[simp] theorem State.toStage_keeps (s : State) (st : Byte) :
    (State.toStage s st).pending = (s).pending ∧ (State.toStage s st).fuses = (s).fuses := by
  unfold State.toStage
  try dsimp only
  simp

@[simp] theorem State.seeInput_keeps (s : State) (cv : W16) :
    (State.seeInput s cv).pending = (s).pending ∧ (State.seeInput s cv).fuses = (s).fuses ∧ (State.seeInput s cv).su.power = (s).su.power := by
  unfold State.seeInput
  simp

@[simp] theorem State.note_keeps (s : State) (st : Nat) :
    (State.note s st).pending = (s).pending ∧ (State.note s st).fuses = (s).fuses ∧ (State.note s st).su.power = (s).su.power := by
  unfold State.note
  simp

@[simp] theorem State.halt_keeps (s : State) (st : Nat) :
    (State.halt s st).pending = (s).pending ∧ (State.halt s st).fuses = (s).fuses := by
  unfold State.halt
  try dsimp only
  simp

@[simp] theorem State.trip_keeps (s : State) :
    (State.trip s).pending = (s).pending ∧ (State.trip s).fuses = (s).fuses := by
  unfold State.trip
  try dsimp only
  simp

@[simp] theorem State.wantFlash_keeps (s : State) :
    (State.wantFlash s).pending = (s).pending ∧ (State.wantFlash s).fuses = (s).fuses := by
  unfold State.wantFlash
  try dsimp only
  (repeat' split) <;> simp

@[simp] theorem State.presentHx_keeps (s : State) :
    (State.presentHx s).pending = (s).pending ∧ (State.presentHx s).fuses = (s).fuses ∧ (State.presentHx s).su.power = (s).su.power := by
  unfold State.presentHx
  simp

@[simp] theorem State.cutOff_keeps (s : State) (cv : W16) (st : Nat) :
    (State.cutOff s cv st).pending = (s).pending ∧ (State.cutOff s cv st).fuses = (s).fuses := by
  unfold State.cutOff
  try dsimp only
  (repeat' split) <;> simp

@[simp] theorem State.overcurrent_keeps (s : State) :
    (State.overcurrent s).pending = (s).pending ∧ (State.overcurrent s).fuses = (s).fuses := by
  unfold State.overcurrent
  try dsimp only
  (repeat' split) <;> simp

@[simp] theorem State.modReset_keeps (s : State) :
    (State.modReset s).pending = (s).pending ∧ (State.modReset s).fuses = (s).fuses := by
  unfold State.modReset
  try dsimp only
  simp

@[simp] theorem State.modResetEnd_keeps (s : State) (lowUs : Nat) :
    (State.modResetEnd s lowUs).pending = (s).pending ∧ (State.modResetEnd s lowUs).fuses = (s).fuses := by
  unfold State.modResetEnd
  try dsimp only
  simp

@[simp] theorem State.slotFailed_keeps (s : State) (st : Nat) :
    (State.slotFailed s st).pending = (s).pending ∧ (State.slotFailed s st).fuses = (s).fuses := by
  unfold State.slotFailed
  try dsimp only
  (repeat' split) <;> simp

@[simp] theorem State.publishArrays_keeps (s : State) :
    (State.publishArrays s).pending = (s).pending ∧ (State.publishArrays s).fuses = (s).fuses ∧ (State.publishArrays s).su.power = (s).su.power := by
  unfold State.publishArrays
  simp

@[simp] theorem State.takeOut_keeps (s : State) (u : TestUnit) :
    (State.takeOut s u).pending = (s).pending ∧ (State.takeOut s u).fuses = (s).fuses ∧ (State.takeOut s u).su.power = (s).su.power := by
  unfold State.takeOut
  try dsimp only
  (repeat' split) <;> simp

@[simp] theorem State.gradeCheck_keeps (s : State) :
    (State.gradeCheck s).pending = (s).pending ∧ (State.gradeCheck s).fuses = (s).fuses ∧ (State.gradeCheck s).su.power = (s).su.power := by
  unfold State.gradeCheck
  simp

@[simp] theorem State.openPorts_keeps (s : State) :
    (State.openPorts s).pending = (s).pending ∧ (State.openPorts s).fuses = (s).fuses ∧ (State.openPorts s).su.power = (s).su.power := by
  unfold State.openPorts
  simp

@[simp] theorem State.createDefaults_keeps (s : State) (n : Nat) (l : List (W32 × Byte × Byte × Byte)) :
    (State.createDefaults s n l).pending = (s).pending ∧ (State.createDefaults s n l).fuses = (s).fuses ∧ (State.createDefaults s n l).su.power = (s).su.power := by
  induction l generalizing s n with
  | nil => simp [State.createDefaults]
  | cons e r ih => simp [State.createDefaults, ih]

@[simp] theorem State.finishStartup_keeps (s : State) :
    (State.finishStartup s).pending = (s).pending ∧ (State.finishStartup s).fuses = (s).fuses := by
  unfold State.finishStartup
  try dsimp only
  (repeat' split) <;> simp

end Sys2Proof.Machine
end

