-- ==== Sys2Proof/Laws/KeepsHostIf.lean ====
section
/-! SUPPORT. What the operations of Machine/HostIf.lean keep: the queue, the fuses, and power, pins and stage where they move none. -/

namespace Sys2Proof.Machine

@[simp] theorem State.resume_keeps (s : State) (fn : Nat) :
    (State.resume s fn).pending = (s).pending ∧ (State.resume s fn).fuses = (s).fuses ∧ (State.resume s fn).su.power = (s).su.power := by
  unfold State.resume
  simp

@[simp] theorem State.hostLinkDown_keeps (s : State) :
    (State.hostLinkDown s).pending = (s).pending ∧ (State.hostLinkDown s).fuses = (s).fuses ∧ (State.hostLinkDown s).su.power = (s).su.power := by
  unfold State.hostLinkDown
  simp

end Sys2Proof.Machine
end

