-- ==== Sys2Proof/Laws/KeepsKeys.lean ====
section
/-! SUPPORT. What the operations of Machine/Keys.lean keep: the queue, the fuses, and power, pins and stage where they move none. -/

namespace Sys2Proof.Machine

@[simp] theorem State.setEnv_keeps (s : State) (part idx : Nat) (e : Option Env) :
    (State.setEnv s part idx e).pending = (s).pending ∧ (State.setEnv s part idx e).fuses = (s).fuses ∧ (State.setEnv s part idx e).su.power = (s).su.power := by
  unfold State.setEnv
  simp

end Sys2Proof.Machine
end

