-- ==== Sys2Proof/Laws/KeepsSpanOps.lean ====
section
/-! SUPPORT. What the operations of Machine/SpanOps.lean keep: the queue, the fuses, and power, pins and stage where they move none. -/

namespace Sys2Proof.Machine

@[simp] theorem State.setExtent_keeps (s : State) (part ext : Nat) (e : Option Extent) :
    (State.setExtent s part ext e).pending = (s).pending ∧ (State.setExtent s part ext e).fuses = (s).fuses ∧ (State.setExtent s part ext e).su.power = (s).su.power := by
  unfold State.setExtent
  simp

@[simp] theorem State.setTile_keeps (s : State) (owner slot : Nat) (t : Tile) :
    (State.setTile s owner slot t).pending = (s).pending ∧ (State.setTile s owner slot t).fuses = (s).fuses ∧ (State.setTile s owner slot t).su.power = (s).su.power := by
  unfold State.setTile
  simp

@[simp] theorem State.writeNear_keeps (s : State) (t : Tile) :
    (State.writeNear s t).pending = (s).pending ∧ (State.writeNear s t).fuses = (s).fuses ∧ (State.writeNear s t).su.power = (s).su.power := by
  unfold State.writeNear
  (repeat' split) <;> simp

@[simp] theorem State.makeRoom_keeps (s : State) (part need except : Nat) (n : Nat) :
    ((State.makeRoom s part need except n).1).pending = (s).pending ∧ ((State.makeRoom s part need except n).1).fuses = (s).fuses ∧ ((State.makeRoom s part need except n).1).su.power = (s).su.power := by
  induction n generalizing s part need except with
  | zero => simp [State.makeRoom]
  | succ n ih =>
    simp only [State.makeRoom]
    (repeat' split) <;> simp [ih]

@[simp] theorem State.roomFor_keeps (s : State) (part need except : Nat) :
    ((State.roomFor s part need except).1).pending = (s).pending ∧ ((State.roomFor s part need except).1).fuses = (s).fuses ∧ ((State.roomFor s part need except).1).su.power = (s).su.power := by
  unfold State.roomFor
  simp

@[simp] theorem State.restTile_keeps (s : State) (owner slot : Nat) (t : Tile) :
    (State.restTile s owner slot t).pending = (s).pending ∧ (State.restTile s owner slot t).fuses = (s).fuses ∧ (State.restTile s owner slot t).su.power = (s).su.power := by
  unfold State.restTile
  simp

@[simp] theorem State.settleJobs_keeps (s : State) :
    (State.settleJobs s).pending = (s).pending ∧ (State.settleJobs s).fuses = (s).fuses ∧ (State.settleJobs s).su.power = (s).su.power := by
  unfold State.settleJobs
  simp

@[simp] theorem State.scrubTile_keeps (s : State) (owner slot : Nat) :
    (State.scrubTile s owner slot).pending = (s).pending ∧ (State.scrubTile s owner slot).fuses = (s).fuses ∧ (State.scrubTile s owner slot).su.power = (s).su.power := by
  unfold State.scrubTile
  simp

@[simp] theorem State.spnStuck_keeps (s : State) (before after : W32) (offset : Nat) :
    (State.spnStuck s before after offset).pending = (s).pending ∧ (State.spnStuck s before after offset).fuses = (s).fuses ∧ (State.spnStuck s before after offset).su.power = (s).su.power := by
  unfold State.spnStuck
  (repeat' split) <;> simp

@[simp] theorem State.corrected_keeps (s : State) (tier2 : Bool) (n : Nat) :
    (State.corrected s tier2 n).pending = (s).pending ∧ (State.corrected s tier2 n).fuses = (s).fuses ∧ (State.corrected s tier2 n).su.power = (s).su.power := by
  unfold State.corrected
  (repeat' split) <;> simp

@[simp] theorem State.poisonTile_keeps (s : State) (owner slot : Nat) :
    (State.poisonTile s owner slot).pending = (s).pending ∧ (State.poisonTile s owner slot).fuses = (s).fuses ∧ (State.poisonTile s owner slot).su.power = (s).su.power := by
  unfold State.poisonTile
  simp

@[simp] theorem State.codewords_keeps (s : State) (owner slot : Nat) (errs : CodeErrs) :
    (State.codewords s owner slot errs).pending = (s).pending ∧ (State.codewords s owner slot errs).fuses = (s).fuses ∧ (State.codewords s owner slot errs).su.power = (s).su.power := by
  unfold State.codewords
  try dsimp only
  (repeat' split) <;> simp

@[simp] theorem State.countTier_keeps (s : State) (part : Nat) (t : Tile) :
    (State.countTier s part t).pending = (s).pending ∧ (State.countTier s part t).fuses = (s).fuses ∧ (State.countTier s part t).su.power = (s).su.power := by
  unfold State.countTier
  (repeat' split) <;> simp

@[simp] theorem State.putBack_keeps (s : State) (owner slot : Nat) :
    (State.putBack s owner slot).pending = (s).pending ∧ (State.putBack s owner slot).fuses = (s).fuses ∧ (State.putBack s owner slot).su.power = (s).su.power := by
  unfold State.putBack
  try dsimp only
  (repeat' split) <;> simp

@[simp] theorem State.poisonRead_keeps (s : State) (part slot : Nat) :
    (State.poisonRead s part slot).pending = (s).pending ∧ (State.poisonRead s part slot).fuses = (s).fuses ∧ (State.poisonRead s part slot).su.power = (s).su.power := by
  unfold State.poisonRead
  simp

@[simp] theorem State.promoteWarm_keeps (s : State) (part slot : Nat) :
    (State.promoteWarm s part slot).pending = (s).pending ∧ (State.promoteWarm s part slot).fuses = (s).fuses ∧ (State.promoteWarm s part slot).su.power = (s).su.power := by
  unfold State.promoteWarm
  try dsimp only
  (repeat' split) <;> simp

@[simp] theorem State.takeNear_keeps (s : State) (part slot core : Nat) :
    (State.takeNear s part slot core).pending = (s).pending ∧ (State.takeNear s part slot core).fuses = (s).fuses ∧ (State.takeNear s part slot core).su.power = (s).su.power := by
  unfold State.takeNear
  try dsimp only
  (repeat' split) <;> simp

@[simp] theorem State.hintNow_keeps (s : State) (part hint core slot : Nat) :
    (State.hintNow s part hint core slot).pending = (s).pending ∧ (State.hintNow s part hint core slot).fuses = (s).fuses ∧ (State.hintNow s part hint core slot).su.power = (s).su.power := by
  unfold State.hintNow
  try dsimp only
  (repeat' split) <;> simp

@[simp] theorem State.hintTile_keeps (s : State) (part hint core slot : Nat) :
    (State.hintTile s part hint core slot).pending = (s).pending ∧ (State.hintTile s part hint core slot).fuses = (s).fuses ∧ (State.hintTile s part hint core slot).su.power = (s).su.power := by
  unfold State.hintTile
  try dsimp only
  (repeat' split) <;> simp

@[simp] theorem State.applyHint_keeps (s : State) (owner slot : Nat) :
    (State.applyHint s owner slot).pending = (s).pending ∧ (State.applyHint s owner slot).fuses = (s).fuses ∧ (State.applyHint s owner slot).su.power = (s).su.power := by
  unfold State.applyHint
  try dsimp only
  (repeat' split) <;> simp

@[simp] theorem State.writeTile_keeps (s : State) (owner slot : Nat) (e : Extent) (d : TileData) :
    (State.writeTile s owner slot e d).pending = (s).pending ∧ (State.writeTile s owner slot e d).fuses = (s).fuses ∧ (State.writeTile s owner slot e d).su.power = (s).su.power := by
  unfold State.writeTile
  simp

@[simp] theorem State.writeBack_keeps (s : State) (p : Nat → Nat → Bool) :
    (State.writeBack s p).pending = (s).pending ∧ (State.writeBack s p).fuses = (s).fuses ∧ (State.writeBack s p).su.power = (s).su.power := by
  unfold State.writeBack
  simp

@[simp] theorem State.countRead_keeps (s : State) (part : Nat) (r : SlotRef) (slot : Nat) :
    (State.countRead s part r slot).pending = (s).pending ∧ (State.countRead s part r slot).fuses = (s).fuses ∧ (State.countRead s part r slot).su.power = (s).su.power := by
  unfold State.countRead
  simp

@[simp] theorem State.writeSlots_keeps (s : State) (part addr len : Nat) (m : Mem) (slot : Nat) (n : Nat) :
    (State.writeSlots s part addr len m slot n).pending = (s).pending ∧ (State.writeSlots s part addr len m slot n).fuses = (s).fuses ∧ (State.writeSlots s part addr len m slot n).su.power = (s).su.power := by
  induction n generalizing s part addr len m slot with
  | zero => simp [State.writeSlots]
  | succ n ih =>
    simp only [State.writeSlots]
    (repeat' split) <;> simp [ih]

@[simp] theorem State.spanWrite_keeps (s : State) (part addr len : Nat) (m : Mem) :
    (State.spanWrite s part addr len m).pending = (s).pending ∧ (State.spanWrite s part addr len m).fuses = (s).fuses ∧ (State.spanWrite s part addr len m).su.power = (s).su.power := by
  unfold State.spanWrite
  simp

@[simp] theorem State.putTile_keeps (s : State) (part slot : Nat) (d : TileData) :
    (State.putTile s part slot d).pending = (s).pending ∧ (State.putTile s part slot d).fuses = (s).fuses ∧ (State.putTile s part slot d).su.power = (s).su.power := by
  unfold State.putTile
  (repeat' split) <;> simp

@[simp] theorem State.meetSlot_keeps (s : State) (part slot : Nat) (errs : CodeErrs) :
    (State.meetSlot s part slot errs).pending = (s).pending ∧ (State.meetSlot s part slot errs).fuses = (s).fuses ∧ (State.meetSlot s part slot errs).su.power = (s).su.power := by
  unfold State.meetSlot
  try dsimp only
  (repeat' split) <;> simp

@[simp] theorem State.meetSlots_keeps (s : State) (part : Nat) (slots : List Nat) (errs : List (Nat × CodeErrs)) :
    (State.meetSlots s part slots errs).pending = (s).pending ∧ (State.meetSlots s part slots errs).fuses = (s).fuses ∧ (State.meetSlots s part slots errs).su.power = (s).su.power := by
  unfold State.meetSlots
  refine ⟨foldl_pending _ ?_ _ _, foldl_fuses _ ?_ _ _, foldl_power _ ?_ _ _⟩ <;> (intro t a; split <;> simp)

@[simp] theorem State.meetCodewords_keeps (s : State) (part addr len : Nat) (errs : List (Nat × CodeErrs)) :
    (State.meetCodewords s part addr len errs).pending = (s).pending ∧ (State.meetCodewords s part addr len errs).fuses = (s).fuses ∧ (State.meetCodewords s part addr len errs).su.power = (s).su.power := by
  unfold State.meetCodewords
  try dsimp only
  refine ⟨foldl_pending _ ?_ _ _, foldl_fuses _ ?_ _ _, foldl_power _ ?_ _ _⟩ <;> (intro t a; split <;> simp)

@[simp] theorem State.afterChecks_keeps (s : State) (before : List (Bool × Nat)) (read : State → State) (h_f : ∀ (x0 : State), (read x0).pending = (x0).pending ∧ (read x0).fuses = (x0).fuses ∧ (read x0).su.power = (x0).su.power) :
    (State.afterChecks s before read).pending = (s).pending ∧ (State.afterChecks s before read).fuses = (s).fuses ∧ (State.afterChecks s before read).su.power = (s).su.power := by
  unfold State.afterChecks
  split <;> simp [h_f]

@[simp] theorem State.fetchTile_keeps (s : State) (part slot : Nat) :
    (State.fetchTile s part slot).1.pending = (s).pending ∧ (State.fetchTile s part slot).1.fuses = (s).fuses ∧ (State.fetchTile s part slot).1.su.power = (s).su.power := by
  unfold State.fetchTile
  try dsimp only
  (repeat' split) <;> simp

@[simp] theorem State.fetchTiles_keeps (s : State) (part : Nat) (l : List Nat) :
    (State.fetchTiles s part l).1.pending = (s).pending ∧ (State.fetchTiles s part l).1.fuses = (s).fuses ∧ (State.fetchTiles s part l).1.su.power = (s).su.power := by
  induction l generalizing s with
  | nil => simp [State.fetchTiles]
  | cons a l ih => simp [State.fetchTiles, ih]

@[simp] theorem State.checkedMeeting_keeps (s : State) (ref : CmdRef) (part met : Nat) (bad : List Nat) (checks : List (Bool × Nat)) (f : State → State) (h_f : ∀ (x0 : State), (f x0).pending = (x0).pending ∧ (f x0).fuses = (x0).fuses ∧ (f x0).su.power = (x0).su.power) :
    (State.checkedMeeting s ref part met bad checks f).pending = (s).pending ∧ (State.checkedMeeting s ref part met bad checks f).fuses = (s).fuses ∧ (State.checkedMeeting s ref part met bad checks f).su.power = (s).su.power := by
  unfold State.checkedMeeting
  (repeat' split) <;> simp [h_f]

@[simp] theorem State.checkedRead_keeps (s : State) (ref : CmdRef) (part addr len : Nat) (checks : List (Bool × Nat)) (f : State → State) (h_f : ∀ (x0 : State), (f x0).pending = (x0).pending ∧ (f x0).fuses = (x0).fuses ∧ (f x0).su.power = (x0).su.power) :
    (State.checkedRead s ref part addr len checks f).pending = (s).pending ∧ (State.checkedRead s ref part addr len checks f).fuses = (s).fuses ∧ (State.checkedRead s ref part addr len checks f).su.power = (s).su.power := by
  unfold State.checkedRead
  simp [h_f]

@[simp] theorem State.meeting_keeps (s : State) (ref : CmdRef) (part : Nat) (bad : List Nat) (checks : List (Bool × Nat)) (f : State → State) (h_f : ∀ (x0 : State), (f x0).pending = (x0).pending ∧ (f x0).fuses = (x0).fuses ∧ (f x0).su.power = (x0).su.power) :
    (State.meeting s ref part bad checks f).pending = (s).pending ∧ (State.meeting s ref part bad checks f).fuses = (s).fuses ∧ (State.meeting s ref part bad checks f).su.power = (s).su.power := by
  unfold State.meeting
  simp [h_f]

@[simp] theorem State.countReads_keeps (s : State) (part addr len : Nat) :
    (State.countReads s part addr len).pending = (s).pending ∧ (State.countReads s part addr len).fuses = (s).fuses ∧ (State.countReads s part addr len).su.power = (s).su.power := by
  unfold State.countReads
  try dsimp only
  simp (disch := (intros; (repeat' split) <;> simp))

@[simp] theorem State.scrubRange_keeps (s : State) (part lo hi : Nat) :
    (State.scrubRange s part lo hi).pending = (s).pending ∧ (State.scrubRange s part lo hi).fuses = (s).fuses ∧ (State.scrubRange s part lo hi).su.power = (s).su.power := by
  unfold State.scrubRange
  simp

@[simp] theorem State.unmapRange_keeps (s : State) (part lo hi : Nat) :
    (State.unmapRange s part lo hi).pending = (s).pending ∧ (State.unmapRange s part lo hi).fuses = (s).fuses ∧ (State.unmapRange s part lo hi).su.power = (s).su.power := by
  unfold State.unmapRange
  simp

end Sys2Proof.Machine
end

