-- ==== Sys2Proof/Laws/KeepsSeqOps.lean ====
section
/-! SUPPORT. What the operations of Machine/SeqOps.lean keep: the queue, the fuses, and power, pins and stage where they move none. -/

namespace Sys2Proof.Machine

@[simp] theorem State.setSeq_keeps (s : State) (n : Nat) (x : SeqSlot) :
    (State.setSeq s n x).pending = (s).pending ∧ (State.setSeq s n x).fuses = (s).fuses ∧ (State.setSeq s n x).su.power = (s).su.power := by
  unfold State.setSeq
  simp

@[simp] theorem State.dropRef_keeps (s : State) (x : SeqSlot) :
    (State.dropRef s x).pending = (s).pending ∧ (State.dropRef s x).fuses = (s).fuses ∧ (State.dropRef s x).su.power = (s).su.power := by
  unfold State.dropRef
  (repeat' split) <;> simp

@[simp] theorem State.tokenBoundary_keeps (s : State) (n : Nat) :
    (State.tokenBoundary s n).pending = (s).pending ∧ (State.tokenBoundary s n).fuses = (s).fuses ∧ (State.tokenBoundary s n).su.power = (s).su.power := by
  unfold State.tokenBoundary
  simp

@[simp] theorem State.endSeq_keeps (s : State) (n : Nat) (status : W16) :
    (State.endSeq s n status).pending = (s).pending ∧ (State.endSeq s n status).fuses = (s).fuses ∧ (State.endSeq s n status).su.power = (s).su.power := by
  unfold State.endSeq
  (repeat' split) <;> simp

@[simp] theorem State.graceCheck_keeps (s : State) (n : Nat) :
    (State.graceCheck s n).pending = (s).pending ∧ (State.graceCheck s n).fuses = (s).fuses ∧ (State.graceCheck s n).su.power = (s).su.power := by
  unfold State.graceCheck
  try dsimp only
  (repeat' split) <;> simp

@[simp] theorem State.withdraw_keeps (s : State) (g : Nat) :
    (State.withdraw s g).pending = (s).pending ∧ (State.withdraw s g).fuses = (s).fuses ∧ (State.withdraw s g).su.power = (s).su.power := by
  unfold State.withdraw
  simp

@[simp] theorem State.scrubSlots_keeps (s : State) (part slot : Nat) (n : Nat) :
    (State.scrubSlots s part slot n).pending = (s).pending ∧ (State.scrubSlots s part slot n).fuses = (s).fuses ∧ (State.scrubSlots s part slot n).su.power = (s).su.power := by
  induction n generalizing s slot with
  | zero => simp [State.scrubSlots]
  | succ n ih =>
    simp only [State.scrubSlots]
    split <;> simp [ih]

@[simp] theorem State.scrubPages_keeps (s : State) (x : SeqSlot) (table : Mem) (i : Nat) (n : Nat) :
    (State.scrubPages s x table i n).pending = (s).pending ∧ (State.scrubPages s x table i n).fuses = (s).fuses ∧ (State.scrubPages s x table i n).su.power = (s).su.power := by
  induction n generalizing s x table i with
  | zero => simp [State.scrubPages]
  | succ n ih =>
    simp only [State.scrubPages]
    (repeat' split) <;> simp [ih]

@[simp] theorem State.scrubSeq_keeps (s : State) (x : SeqSlot) :
    (State.scrubSeq s x).pending = (s).pending ∧ (State.scrubSeq s x).fuses = (s).fuses ∧ (State.scrubSeq s x).su.power = (s).su.power := by
  unfold State.scrubSeq
  simp

@[simp] theorem State.freeSeq_keeps (s : State) (n : Nat) :
    (State.freeSeq s n).pending = (s).pending ∧ (State.freeSeq s n).fuses = (s).fuses ∧ (State.freeSeq s n).su.power = (s).su.power := by
  unfold State.freeSeq
  simp

end Sys2Proof.Machine
end

