-- ==== Sys2Proof/Laws/KeepsCoreOps.lean ====
section
/-! SUPPORT. What the operations of Machine/CoreOps.lean keep: the queue, the fuses, and power, pins and stage where they move none. -/

namespace Sys2Proof.Machine

@[simp] theorem State.giveCredit_keeps (s : State) (src dst ch : Nat) :
    (State.giveCredit s src dst ch).pending = (s).pending ∧ (State.giveCredit s src dst ch).fuses = (s).fuses ∧ (State.giveCredit s src dst ch).su.power = (s).su.power := by
  unfold State.giveCredit
  (repeat' split) <;> simp

@[simp] theorem State.grant_keeps (s : State) (dst ch : Nat) (n : Nat) :
    (State.grant s dst ch n).pending = (s).pending ∧ (State.grant s dst ch n).fuses = (s).fuses ∧ (State.grant s dst ch n).su.power = (s).su.power := by
  induction n generalizing s dst ch with
  | zero => simp [State.grant]
  | succ n ih =>
    simp only [State.grant]
    (repeat' split) <;> simp [ih]

@[simp] theorem State.grantAll_keeps (s : State) (dst ch : Nat) :
    (State.grantAll s dst ch).pending = (s).pending ∧ (State.grantAll s dst ch).fuses = (s).fuses ∧ (State.grantAll s dst ch).su.power = (s).su.power := by
  unfold State.grantAll
  simp

@[simp] theorem State.returnCredit_keeps (s : State) (dst ch : Nat) :
    (State.returnCredit s dst ch).pending = (s).pending ∧ (State.returnCredit s dst ch).fuses = (s).fuses ∧ (State.returnCredit s dst ch).su.power = (s).su.power := by
  unfold State.returnCredit
  simp

@[simp] theorem State.dropCredit_keeps (s : State) (k : Nat) :
    (State.dropCredit s k).pending = (s).pending ∧ (State.dropCredit s k).fuses = (s).fuses ∧ (State.dropCredit s k).su.power = (s).su.power := by
  unfold State.dropCredit
  try dsimp only
  (repeat' split) <;> simp

@[simp] theorem State.reportEnd_keeps (s : State) (k st idx : Nat) (gen : W32) :
    (State.reportEnd s k st idx gen).pending = (s).pending ∧ (State.reportEnd s k st idx gen).fuses = (s).fuses ∧ (State.reportEnd s k st idx gen).su.power = (s).su.power := by
  unfold State.reportEnd
  (repeat' split) <;> simp

@[simp] theorem State.checkReports_keeps (s : State) (part : Nat) :
    (State.checkReports s part).pending = (s).pending ∧ (State.checkReports s part).fuses = (s).fuses ∧ (State.checkReports s part).su.power = (s).su.power := by
  unfold State.checkReports
  simp

@[simp] theorem State.keepNear_keeps (before after : State) :
    (State.keepNear before after).pending = (after).pending ∧ (State.keepNear before after).fuses = (after).fuses ∧ (State.keepNear before after).su.power = (after).su.power := by
  unfold State.keepNear
  refine ⟨foldl_pending _ ?_ _ _, foldl_fuses _ ?_ _ _, foldl_power _ ?_ _ _⟩ <;> (intro t a; dsimp only; (repeat' split) <;> simp)

@[simp] theorem State.fitSupply_keeps (s : State) (k : Nat) :
    (State.fitSupply s k).pending = (s).pending ∧ (State.fitSupply s k).fuses = (s).fuses ∧ (State.fitSupply s k).su.power = (s).su.power := by
  unfold State.fitSupply
  simp

@[simp] theorem State.staleMesh_keeps (s : State) (ks : List Nat) :
    (State.staleMesh s ks).pending = (s).pending ∧ (State.staleMesh s ks).fuses = (s).fuses ∧ (State.staleMesh s ks).su.power = (s).su.power := by
  unfold State.staleMesh
  simp

@[simp] theorem State.moveKites_keeps (s : State) (part : Nat) (new : W32) :
    (State.moveKites s part new).pending = (s).pending ∧ (State.moveKites s part new).fuses = (s).fuses ∧ (State.moveKites s part new).su.power = (s).su.power := by
  unfold State.moveKites
  simp

@[simp] theorem State.resizeMoved_keeps (s : State) (part : Nat) (r : Resize) :
    (State.resizeMoved s part r).pending = (s).pending ∧ (State.resizeMoved s part r).fuses = (s).fuses ∧ (State.resizeMoved s part r).su.power = (s).su.power := by
  unfold State.resizeMoved
  simp

@[simp] theorem State.moveNear_keeps (s : State) (part : Nat) :
    (State.moveNear s part).pending = (s).pending ∧ (State.moveNear s part).fuses = (s).fuses ∧ (State.moveNear s part).su.power = (s).su.power := by
  unfold State.moveNear
  simp

@[simp] theorem State.boundary_keeps (s : State) (part : Nat) :
    (State.boundary s part).pending = (s).pending ∧ (State.boundary s part).fuses = (s).fuses ∧ (State.boundary s part).su.power = (s).su.power := by
  unfold State.boundary
  (repeat' split) <;> simp

@[simp] theorem State.startCore_keeps (s : State) (k : Nat) :
    (State.startCore s k).pending = (s).pending ∧ (State.startCore s k).fuses = (s).fuses ∧ (State.startCore s k).su.power = (s).su.power := by
  unfold State.startCore
  simp

@[simp] theorem State.takeGen_keeps (s : State) (part : Nat) (g : W32) (ks : List Nat) :
    (State.takeGen s part g ks).pending = (s).pending ∧ (State.takeGen s part g ks).fuses = (s).fuses ∧ (State.takeGen s part g ks).su.power = (s).su.power := by
  unfold State.takeGen
  simp

@[simp] theorem State.take_keeps (s : State) (part : Nat) (ks : List Nat) :
    (State.take s part ks).pending = (s).pending ∧ (State.take s part ks).fuses = (s).fuses ∧ (State.take s part ks).su.power = (s).su.power := by
  unfold State.take
  try dsimp only
  (repeat' split) <;> simp

@[simp] theorem State.swapBanks_keeps (s : State) (k : Nat) :
    (State.swapBanks s k).pending = (s).pending ∧ (State.swapBanks s k).fuses = (s).fuses ∧ (State.swapBanks s k).su.power = (s).su.power := by
  unfold State.swapBanks
  try dsimp only
  (repeat' split) <;> simp

@[simp] theorem State.settleCore_keeps (s : State) (k : Nat) :
    (State.settleCore s k).pending = (s).pending ∧ (State.settleCore s k).fuses = (s).fuses ∧ (State.settleCore s k).su.power = (s).su.power := by
  unfold State.settleCore
  (repeat' split) <;> simp

@[simp] theorem State.endRoutine_keeps (s : State) (k st idx : Nat) :
    (State.endRoutine s k st idx).pending = (s).pending ∧ (State.endRoutine s k st idx).fuses = (s).fuses ∧ (State.endRoutine s k st idx).su.power = (s).su.power := by
  unfold State.endRoutine
  simp

end Sys2Proof.Machine
end

