-- ==== Sys2Proof/Laws/KeepsIssue.lean ====
section
/-! SUPPORT. What the operations of Machine/Issue.lean keep: the queue, the fuses, and power, pins and stage where they move none. -/

namespace Sys2Proof.Machine

@[simp] theorem State.sendNow_keeps (s : State) (k : Nat) (m : Mov) (dst u0 u1 t : Nat) (pay : Bool) (hint : Nat) :
    (State.sendNow s k m dst u0 u1 t pay hint).pending = (s).pending ∧ (State.sendNow s k m dst u0 u1 t pay hint).fuses = (s).fuses ∧ (State.sendNow s k m dst u0 u1 t pay hint).su.power = (s).su.power := by
  unfold State.sendNow
  simp

@[simp] theorem State.recvNow_keeps (s : State) (k : Nat) (m : Mov) (ch u0 u1 meta_ t : Nat) :
    (State.recvNow s k m ch u0 u1 meta_ t).pending = (s).pending ∧ (State.recvNow s k m ch u0 u1 meta_ t).fuses = (s).fuses ∧ (State.recvNow s k m ch u0 u1 meta_ t).su.power = (s).su.power := by
  unfold State.recvNow
  simp

@[simp] theorem State.movIssue_keeps (s : State) (k : Nat) (m : Mov) :
    (State.movIssue s k m).pending = (s).pending ∧ (State.movIssue s k m).fuses = (s).fuses ∧ (State.movIssue s k m).su.power = (s).su.power := by
  unfold State.movIssue
  (repeat' split) <;> simp

@[simp] theorem State.vecIssue_keeps (s : State) (k : Nat) (v : Vec) :
    (State.vecIssue s k v).pending = (s).pending ∧ (State.vecIssue s k v).fuses = (s).fuses ∧ (State.vecIssue s k v).su.power = (s).su.power := by
  unfold State.vecIssue
  (repeat' split) <;> simp

@[simp] theorem State.issueSlots_keeps (s : State) (k : Nat) (b : Bundle) :
    (State.issueSlots s k b).pending = (s).pending ∧ (State.issueSlots s k b).fuses = (s).fuses ∧ (State.issueSlots s k b).su.power = (s).su.power := by
  unfold State.issueSlots
  simp

@[simp] theorem State.issueReady_keeps (s : State) (k : Nat) (b : Bundle) :
    (State.issueReady s k b).pending = (s).pending ∧ (State.issueReady s k b).fuses = (s).fuses ∧ (State.issueReady s k b).su.power = (s).su.power := by
  unfold State.issueReady
  try dsimp only
  (repeat' split) <;> simp

@[simp] theorem State.issue_keeps (s : State) (k : Nat) (has : Bundle → Bool) :
    (State.issue s k has).pending = (s).pending ∧ (State.issue s k has).fuses = (s).fuses ∧ (State.issue s k has).su.power = (s).su.power := by
  unfold State.issue
  try dsimp only
  (repeat' split) <;> simp

end Sys2Proof.Machine
end

