-- ==== Sys2Proof/Laws/KeepsTrainOps.lean ====
section
/-! SUPPORT. What the operations of Machine/TrainOps.lean keep: the queue, the fuses, and power, pins and stage where they move none. -/

namespace Sys2Proof.Machine

@[simp] theorem State.putCtx_keeps (s : State) (part : Nat) (x : Ctx) :
    (State.putCtx s part x).pending = (s).pending ∧ (State.putCtx s part x).fuses = (s).fuses ∧ (State.putCtx s part x).su.power = (s).su.power := by
  unfold State.putCtx
  simp

@[simp] theorem State.countReject_keeps (s : State) (part : Nat) (before after : W32) :
    (State.countReject s part before after).pending = (s).pending ∧ (State.countReject s part before after).fuses = (s).fuses ∧ (State.countReject s part before after).su.power = (s).su.power := by
  unfold State.countReject
  (repeat' split) <;> simp

@[simp] theorem State.applyGate_keeps (s : State) (part : Nat) (x : Ctx) (sum : W64) :
    (State.applyGate s part x sum).pending = (s).pending ∧ (State.applyGate s part x sum).fuses = (s).fuses ∧ (State.applyGate s part x sum).su.power = (s).su.power := by
  unfold State.applyGate
  (repeat' split) <;> simp

@[simp] theorem State.normArrives_keeps (s : State) (part : Nat) (step : W32) (sum : W64) :
    (State.normArrives s part step sum).pending = (s).pending ∧ (State.normArrives s part step sum).fuses = (s).fuses ∧ (State.normArrives s part step sum).su.power = (s).su.power := by
  unfold State.normArrives
  (repeat' split) <;> simp

@[simp] theorem State.enterReducing_keeps (s : State) (part : Nat) (x : Ctx) :
    (State.enterReducing s part x).pending = (s).pending ∧ (State.enterReducing s part x).fuses = (s).fuses ∧ (State.enterReducing s part x).su.power = (s).su.power := by
  unfold State.enterReducing
  (repeat' split) <;> simp

@[simp] theorem State.commit_keeps (s : State) (part : Nat) (x : Ctx) :
    (State.commit s part x).pending = (s).pending ∧ (State.commit s part x).fuses = (s).fuses ∧ (State.commit s part x).su.power = (s).su.power := by
  unfold State.commit
  (repeat' split) <;> simp

@[simp] theorem State.tokenArrives_keeps (s : State) (part : Nat) (step : W32) (word : W64) :
    (State.tokenArrives s part step word).pending = (s).pending ∧ (State.tokenArrives s part step word).fuses = (s).fuses ∧ (State.tokenArrives s part step word).su.power = (s).su.power := by
  unfold State.tokenArrives
  (repeat' split) <;> simp

@[simp] theorem State.abortCtx_keeps (s : State) (part : Nat) :
    (State.abortCtx s part).pending = (s).pending ∧ (State.abortCtx s part).fuses = (s).fuses ∧ (State.abortCtx s part).su.power = (s).su.power := by
  unfold State.abortCtx
  (repeat' split) <;> simp

@[simp] theorem State.cancelReshard_keeps (s : State) (x : Ctx) :
    (State.cancelReshard s x).pending = (s).pending ∧ (State.cancelReshard s x).fuses = (s).fuses ∧ (State.cancelReshard s x).su.power = (s).su.power := by
  unfold State.cancelReshard
  (repeat' split) <;> simp

end Sys2Proof.Machine
end

