-- ==== Sys2Proof/Laws/KeepsTether.lean ====
section
/-! SUPPORT. What the operations of Machine/Tether.lean keep: the queue, the fuses, and power, pins and stage where they move none. -/

namespace Sys2Proof.Machine

@[simp] theorem State.loadDone_keeps (s : State) (part : Nat) (st result : Nat) :
    (State.loadDone s part st result).pending = (s).pending ∧ (State.loadDone s part st result).fuses = (s).fuses ∧ (State.loadDone s part st result).su.power = (s).su.power := by
  unfold State.loadDone
  (repeat' split) <;> simp

@[simp] theorem State.dropSpool_keeps (s : State) (part k : Nat) :
    (State.dropSpool s part k).pending = (s).pending ∧ (State.dropSpool s part k).fuses = (s).fuses ∧ (State.dropSpool s part k).su.power = (s).su.power := by
  unfold State.dropSpool
  simp

@[simp] theorem State.startBroadcast_keeps (s : State) (part : Nat) (g : W32) :
    (State.startBroadcast s part g).pending = (s).pending ∧ (State.startBroadcast s part g).fuses = (s).fuses ∧ (State.startBroadcast s part g).su.power = (s).su.power := by
  unfold State.startBroadcast
  simp

@[simp] theorem State.haltNow_keeps (s : State) (k : Nat) :
    (State.haltNow s k).pending = (s).pending ∧ (State.haltNow s k).fuses = (s).fuses ∧ (State.haltNow s k).su.power = (s).su.power := by
  unfold State.haltNow
  try dsimp only
  (repeat' split) <;> simp

@[simp] theorem State.snapDone_keeps (s : State) (part st : Nat) (g : W32) (halted : Nat) :
    (State.snapDone s part st g halted).pending = (s).pending ∧ (State.snapDone s part st g halted).fuses = (s).fuses ∧ (State.snapDone s part st g halted).su.power = (s).su.power := by
  unfold State.snapDone
  simp

@[simp] theorem State.abortCore_keeps (s : State) (k : Nat) :
    (State.abortCore s k).pending = (s).pending ∧ (State.abortCore s k).fuses = (s).fuses ∧ (State.abortCore s k).su.power = (s).su.power := by
  unfold State.abortCore
  simp

@[simp] theorem State.leaveStep_keeps (s : State) (n : Nat) :
    (State.leaveStep s n).pending = (s).pending ∧ (State.leaveStep s n).fuses = (s).fuses ∧ (State.leaveStep s n).su.power = (s).su.power := by
  unfold State.leaveStep
  simp

@[simp] theorem State.abortStep_keeps (s : State) (part : Nat) :
    (State.abortStep s part).pending = (s).pending ∧ (State.abortStep s part).fuses = (s).fuses ∧ (State.abortStep s part).su.power = (s).su.power := by
  unfold State.abortStep
  simp

@[simp] theorem State.abort_keeps (s : State) (part : Nat) :
    (State.abort s part).pending = (s).pending ∧ (State.abort s part).fuses = (s).fuses ∧ (State.abort s part).su.power = (s).su.power := by
  unfold State.abort
  try dsimp only
  (repeat' split) <;> simp

end Sys2Proof.Machine
end

