-- ==== Sys2Proof/Laws/KeepsSpan.lean ====
section
/-! SUPPORT. What the operations of Machine/Span.lean keep: the queue, the fuses, and power, pins and stage where they move none. -/

namespace Sys2Proof.Machine

@[simp] theorem State.addJob_keeps (s : State) (j : SpanJob) (done : Bool) :
    (State.addJob s j done).pending = (s).pending ∧ (State.addJob s j done).fuses = (s).fuses ∧ (State.addJob s j done).su.power = (s).su.power := by
  unfold State.addJob
  (repeat' split) <;> simp

@[simp] theorem State.unmapOne_keeps (s : State) (part ext : Nat) :
    (State.unmapOne s part ext).pending = (s).pending ∧ (State.unmapOne s part ext).fuses = (s).fuses ∧ (State.unmapOne s part ext).su.power = (s).su.power := by
  unfold State.unmapOne
  (repeat' split) <;> simp

@[simp] theorem State.sealTile_keeps (s : State) (part slot : Nat) :
    (State.sealTile s part slot).pending = (s).pending ∧ (State.sealTile s part slot).fuses = (s).fuses ∧ (State.sealTile s part slot).su.power = (s).su.power := by
  unfold State.sealTile
  simp

@[simp] theorem State.setMode_keeps (s : State) (part ext m n : Nat) :
    (State.setMode s part ext m n).pending = (s).pending ∧ (State.setMode s part ext m n).fuses = (s).fuses ∧ (State.setMode s part ext m n).su.power = (s).su.power := by
  unfold State.setMode
  (repeat' split) <;> simp

@[simp] theorem State.setOp_keeps (s : State) (core k : Nat) (o : InFlight) :
    (State.setOp s core k o).pending = (s).pending ∧ (State.setOp s core k o).fuses = (s).fuses ∧ (State.setOp s core k o).su.power = (s).su.power := by
  unfold State.setOp
  simp

@[simp] theorem State.served_keeps (s : State) (core k : Nat) (o : InFlight) (st : W16) :
    (State.served s core k o st).pending = (s).pending ∧ (State.served s core k o st).fuses = (s).fuses ∧ (State.served s core k o st).su.power = (s).su.power := by
  unfold State.served
  (repeat' split) <;> simp

@[simp] theorem State.coreWrite_keeps (s : State) (part : Nat) (r : SlotRef) (slot : Nat) (d : TileData) :
    (State.coreWrite s part r slot d).pending = (s).pending ∧ (State.coreWrite s part r slot d).fuses = (s).fuses ∧ (State.coreWrite s part r slot d).su.power = (s).su.power := by
  unfold State.coreWrite
  simp

@[simp] theorem State.readBack_keeps (s : State) (core k part : Nat) (o : InFlight) (r : SlotRef) (slot dst n : Nat) :
    (State.readBack s core k part o r slot dst n).pending = (s).pending ∧ (State.readBack s core k part o r slot dst n).fuses = (s).fuses ∧ (State.readBack s core k part o r slot dst n).su.power = (s).su.power := by
  unfold State.readBack
  simp

end Sys2Proof.Machine
end

