-- ==== Sys2Proof/Laws/KeepsSequence.lean ====
section
/-! SUPPORT. What the operations of Machine/Sequence.lean keep: the queue, the fuses, and power, pins and stage where they move none. -/

namespace Sys2Proof.Machine

@[simp] theorem State.enrol_keeps (s : State) (slot : Nat) (x : SeqSlot) :
    (State.enrol s slot x).pending = (s).pending ∧ (State.enrol s slot x).fuses = (s).fuses ∧ (State.enrol s slot x).su.power = (s).su.power := by
  unfold State.enrol
  (repeat' split) <;> simp

end Sys2Proof.Machine
end

