-- ==== Sys2Proof/Laws/KeepsGondola.lean ====
section
/-! SUPPORT. What the operations of Machine/Gondola.lean keep: the queue, the fuses, and power, pins and stage where they move none. -/

namespace Sys2Proof.Machine

@[simp] theorem State.place_keeps (s : State) (part residency addr : Nat) :
    (State.place s part residency addr).pending = (s).pending ∧ (State.place s part residency addr).fuses = (s).fuses ∧ (State.place s part residency addr).su.power = (s).su.power := by
  unfold State.place
  simp

@[simp] theorem State.readVersion_keeps (s : State) (part addr : Nat) :
    (State.readVersion s part addr).pending = (s).pending ∧ (State.readVersion s part addr).fuses = (s).fuses ∧ (State.readVersion s part addr).su.power = (s).su.power := by
  unfold State.readVersion
  simp

@[simp] theorem State.endMoor_keeps (s : State) (g : Nat) :
    (State.endMoor s g).pending = (s).pending ∧ (State.endMoor s g).fuses = (s).fuses ∧ (State.endMoor s g).su.power = (s).su.power := by
  unfold State.endMoor
  simp

@[simp] theorem State.endSwap_keeps (s : State) (g : Nat) :
    (State.endSwap s g).pending = (s).pending ∧ (State.endSwap s g).fuses = (s).fuses ∧ (State.endSwap s g).su.power = (s).su.power := by
  unfold State.endSwap
  try dsimp only
  (repeat' split) <;> simp

@[simp] theorem State.startRelease_keeps (s : State) (g : Nat) (ref : Option CmdRef) :
    (State.startRelease s g ref).pending = (s).pending ∧ (State.startRelease s g ref).fuses = (s).fuses ∧ (State.startRelease s g ref).su.power = (s).su.power := by
  unfold State.startRelease
  simp

@[simp] theorem State.cut_keeps (s : State) (g : Nat) :
    (State.cut s g).pending = (s).pending ∧ (State.cut s g).fuses = (s).fuses ∧ (State.cut s g).su.power = (s).su.power := by
  unfold State.cut
  simp

@[simp] theorem State.evict_keeps (s : State) (g : Nat) (ref : CmdRef) :
    (State.evict s g ref).pending = (s).pending ∧ (State.evict s g ref).fuses = (s).fuses ∧ (State.evict s g ref).su.power = (s).su.power := by
  unfold State.evict
  simp

@[simp] theorem State.releaseVersion_keeps (s : State) (part addr : Nat) :
    (State.releaseVersion s part addr).pending = (s).pending ∧ (State.releaseVersion s part addr).fuses = (s).fuses ∧ (State.releaseVersion s part addr).su.power = (s).su.power := by
  unfold State.releaseVersion
  simp

@[simp] theorem State.releaseRetiring_keeps (s : State) (g : Nat) :
    (State.releaseRetiring s g).pending = (s).pending ∧ (State.releaseRetiring s g).fuses = (s).fuses ∧ (State.releaseRetiring s g).su.power = (s).su.power := by
  unfold State.releaseRetiring
  simp

@[simp] theorem State.freeGondola_keeps (s : State) (g : Nat) :
    (State.freeGondola s g).pending = (s).pending ∧ (State.freeGondola s g).fuses = (s).fuses ∧ (State.freeGondola s g).su.power = (s).su.power := by
  unfold State.freeGondola
  (repeat' split) <;> simp

@[simp] theorem State.putReel_keeps (s : State) (i : Nat) (r : Reel) :
    (State.putReel s i r).pending = (s).pending ∧ (State.putReel s i r).fuses = (s).fuses ∧ (State.putReel s i r).su.power = (s).su.power := by
  unfold State.putReel
  simp

@[simp] theorem State.closeReel_keeps (s : State) (i : Nat) :
    (State.closeReel s i).pending = (s).pending ∧ (State.closeReel s i).fuses = (s).fuses ∧ (State.closeReel s i).su.power = (s).su.power := by
  unfold State.closeReel
  simp

@[simp] theorem State.reelStuck_keeps (s : State) (before after : W64) :
    (State.reelStuck s before after).pending = (s).pending ∧ (State.reelStuck s before after).fuses = (s).fuses ∧ (State.reelStuck s before after).su.power = (s).su.power := by
  unfold State.reelStuck
  split <;> simp

@[simp] theorem State.dropRecord_keeps (s : State) (i : Nat) (now : W64) :
    (State.dropRecord s i now).pending = (s).pending ∧ (State.dropRecord s i now).fuses = (s).fuses ∧ (State.dropRecord s i now).su.power = (s).su.power := by
  unfold State.dropRecord
  simp

@[simp] theorem State.append_keeps (s : State) (i : Nat) (d : TileData) :
    (State.append s i d).pending = (s).pending ∧ (State.append s i d).fuses = (s).fuses ∧ (State.append s i d).su.power = (s).su.power := by
  unfold State.append
  simp

@[simp] theorem State.accepted_keeps (s : State) (core k : Nat) (o : InFlight) (a : W64) (d : TileData) :
    (State.accepted s core k o a d).pending = (s).pending ∧ (State.accepted s core k o a d).fuses = (s).fuses ∧ (State.accepted s core k o a d).su.power = (s).su.power := by
  unfold State.accepted
  simp

@[simp] theorem State.include_keeps (s : State) (n : Nat) :
    (State.include s n).pending = (s).pending ∧ (State.include s n).fuses = (s).fuses ∧ (State.include s n).su.power = (s).su.power := by
  unfold State.include
  simp

@[simp] theorem State.startStep_keeps (s : State) (part : Nat) :
    (State.startStep s part).pending = (s).pending ∧ (State.startStep s part).fuses = (s).fuses ∧ (State.startStep s part).su.power = (s).su.power := by
  unfold State.startStep
  simp

@[simp] theorem State.countTokens_keeps (s : State) (part n k : Nat) :
    (State.countTokens s part n k).pending = (s).pending ∧ (State.countTokens s part n k).fuses = (s).fuses ∧ (State.countTokens s part n k).su.power = (s).su.power := by
  unfold State.countTokens
  simp

@[simp] theorem State.endEntry_keeps (s : State) (part : Nat) (e : StepEntry) (field : Nat) :
    (State.endEntry s part e field).pending = (s).pending ∧ (State.endEntry s part e field).fuses = (s).fuses ∧ (State.endEntry s part e field).su.power = (s).su.power := by
  unfold State.endEntry
  (repeat' split) <;> simp

@[simp] theorem State.endStep_keeps (s : State) (part : Nat) (p : Mem) (a : W64) :
    (State.endStep s part p a).pending = (s).pending ∧ (State.endStep s part p a).fuses = (s).fuses ∧ (State.endStep s part p a).su.power = (s).su.power := by
  unfold State.endStep
  simp

@[simp] theorem State.meetVersion_keeps (s : State) (part addr : Nat) (errs : List (Nat × CodeErrs)) :
    (State.meetVersion s part addr errs).pending = (s).pending ∧ (State.meetVersion s part addr errs).fuses = (s).fuses ∧ (State.meetVersion s part addr errs).su.power = (s).su.power := by
  unfold State.meetVersion
  try dsimp only
  (repeat' split) <;> simp

end Sys2Proof.Machine
end

