-- ==== Sys2Proof/Laws/KeepsLinkOps.lean ====
section
/-! SUPPORT. What the operations of Machine/LinkOps.lean keep: the queue, the fuses, and power, pins and stage where they move none. -/

namespace Sys2Proof.Machine

@[simp] theorem State.emitFrame_keeps (s : State) (p : Nat) (f : Frame) :
    (State.emitFrame s p f).pending = (s).pending ∧ (State.emitFrame s p f).fuses = (s).fuses ∧ (State.emitFrame s p f).su.power = (s).su.power := by
  unfold State.emitFrame
  simp

@[simp] theorem State.sendFrame_keeps (s : State) (p : Nat) (f : Frame) :
    (State.sendFrame s p f).pending = (s).pending ∧ (State.sendFrame s p f).fuses = (s).fuses ∧ (State.sendFrame s p f).su.power = (s).su.power := by
  unfold State.sendFrame
  simp

@[simp] theorem State.sendIdle_keeps (s : State) (p : Nat) (retry : Bool) :
    (State.sendIdle s p retry).pending = (s).pending ∧ (State.sendIdle s p retry).fuses = (s).fuses ∧ (State.sendIdle s p retry).su.power = (s).su.power := by
  unfold State.sendIdle
  simp

@[simp] theorem State.flushControl_keeps (s : State) (p : Nat) :
    (State.flushControl s p).pending = (s).pending ∧ (State.flushControl s p).fuses = (s).fuses ∧ (State.flushControl s p).su.power = (s).su.power := by
  unfold State.flushControl
  simp

@[simp] theorem State.sendControl_keeps (s : State) (p kind : Nat) (body : List Byte) :
    (State.sendControl s p kind body).pending = (s).pending ∧ (State.sendControl s p kind body).fuses = (s).fuses ∧ (State.sendControl s p kind body).su.power = (s).su.power := by
  unfold State.sendControl
  simp

@[simp] theorem State.sendRefusal_keeps (s : State) (port st bucket : Nat) (step origin dst : W32) :
    (State.sendRefusal s port st bucket step origin dst).pending = (s).pending ∧ (State.sendRefusal s port st bucket step origin dst).fuses = (s).fuses ∧ (State.sendRefusal s port st bucket step origin dst).su.power = (s).su.power := by
  unfold State.sendRefusal
  simp

@[simp] theorem State.resend_keeps (s : State) (p : Nat) :
    (State.resend s p).pending = (s).pending ∧ (State.resend s p).fuses = (s).fuses ∧ (State.resend s p).su.power = (s).su.power := by
  unfold State.resend
  simp

@[simp] theorem State.lnkStuck_keeps (s : State) (p : Nat) (before after : W32) (offset : Nat) :
    (State.lnkStuck s p before after offset).pending = (s).pending ∧ (State.lnkStuck s p before after offset).fuses = (s).fuses ∧ (State.lnkStuck s p before after offset).su.power = (s).su.power := by
  unfold State.lnkStuck
  (repeat' split) <;> simp

@[simp] theorem State.resendCounted_keeps (s : State) (p : Nat) :
    (State.resendCounted s p).pending = (s).pending ∧ (State.resendCounted s p).fuses = (s).fuses ∧ (State.resendCounted s p).su.power = (s).su.power := by
  unfold State.resendCounted
  simp

@[simp] theorem State.stageStatus_keeps (s : State) (st : Nat) :
    (State.stageStatus s st).pending = (s).pending ∧ (State.stageStatus s st).fuses = (s).fuses ∧ (State.stageStatus s st).su.power = (s).su.power := by
  unfold State.stageStatus
  (repeat' split) <;> simp

@[simp] theorem State.holdPort_keeps (s : State) (p st : Nat) (bit_ : Nat := 1) :
    (State.holdPort s p st bit_).pending = (s).pending ∧ (State.holdPort s p st bit_).fuses = (s).fuses ∧ (State.holdPort s p st bit_).su.power = (s).su.power := by
  unfold State.holdPort
  simp

@[simp] theorem State.losePort_keeps (s : State) (p : Nat) :
    (State.losePort s p).pending = (s).pending ∧ (State.losePort s p).fuses = (s).fuses ∧ (State.losePort s p).su.power = (s).su.power := by
  unfold State.losePort
  simp

@[simp] theorem State.pruneDigests_keeps (s : State) (bucket : Nat) :
    (State.pruneDigests s bucket).pending = (s).pending ∧ (State.pruneDigests s bucket).fuses = (s).fuses ∧ (State.pruneDigests s bucket).su.power = (s).su.power := by
  unfold State.pruneDigests
  simp

@[simp] theorem State.digest_keeps (s : State) (bucket : Nat) (step : W32) (port : Nat) (f : DigestRec → DigestRec) :
    (State.digest s bucket step port f).pending = (s).pending ∧ (State.digest s bucket step port f).fuses = (s).fuses ∧ (State.digest s bucket step port f).su.power = (s).su.power := by
  unfold State.digest
  simp

@[simp] theorem State.sendOn_keeps (s : State) (p part cls : Nat) (l : List Byte) :
    (State.sendOn s p part cls l).pending = (s).pending ∧ (State.sendOn s p part cls l).fuses = (s).fuses ∧ (State.sendOn s p part cls l).su.power = (s).su.power := by
  unfold State.sendOn
  (repeat' split) <;> simp

theorem State.trySend_keeps (s : State) (part cls : Nat) (dst : W32) (l : List Byte) (arr : Option Nat) (t : State)
    (ht : State.trySend s part cls dst l arr = some t) :
    (t).pending = (s).pending ∧ (t).fuses = (s).fuses ∧ (t).su.power = (s).su.power := by
  obtain ⟨p, -, rfl⟩ := Option.map_eq_some_iff.mp ht
  simp

@[simp] theorem State.dispatch_keeps (s : State) (part cls : Nat) (dst : W32) (l : List Byte) :
    (State.dispatch s part cls dst l).pending = (s).pending ∧ (State.dispatch s part cls dst l).fuses = (s).fuses ∧ (State.dispatch s part cls dst l).su.power = (s).su.power := by
  unfold State.dispatch
  split
  · rename_i t h
    exact State.trySend_keeps _ _ _ _ _ _ _ h
  · simp

@[simp] theorem State.freeUnit_keeps (s : State) (p cls : Nat) (l : List Byte) :
    (State.freeUnit s p cls l).pending = (s).pending ∧ (State.freeUnit s p cls l).fuses = (s).fuses ∧ (State.freeUnit s p cls l).su.power = (s).su.power := by
  unfold State.freeUnit
  try dsimp only
  (repeat' split) <;> simp

@[simp] theorem State.freeAny_keeps (s : State) (cls : Nat) (l : List Byte) :
    (State.freeAny s cls l).pending = (s).pending ∧ (State.freeAny s cls l).fuses = (s).fuses ∧ (State.freeAny s cls l).su.power = (s).su.power := by
  unfold State.freeAny
  simp

@[simp] theorem State.answerRequest_keeps (s : State) (part : Nat) (tag pos v : W32) (geo : Nat) :
    (State.answerRequest s part tag pos v geo).pending = (s).pending ∧ (State.answerRequest s part tag pos v geo).fuses = (s).fuses ∧ (State.answerRequest s part tag pos v geo).su.power = (s).su.power := by
  unfold State.answerRequest
  try dsimp only
  (repeat' split) <;> simp

@[simp] theorem State.relayUnit_keeps (s : State) (p : Nat) (u : Nat × Nat × List Byte) :
    (State.relayUnit s p u).pending = (s).pending ∧ (State.relayUnit s p u).fuses = (s).fuses ∧ (State.relayUnit s p u).su.power = (s).su.power := by
  unfold State.relayUnit
  dsimp only
  split
  · simp
  · split
    · split
      · simp
      · rename_i t h
        have k := State.trySend_keeps _ _ _ _ _ _ _ h
        simpa using k
    · split <;> simp

@[simp] theorem State.relay_keeps (s : State) :
    (State.relay s).pending = (s).pending ∧ (State.relay s).fuses = (s).fuses ∧ (State.relay s).su.power = (s).su.power := by
  unfold State.relay
  simp

@[simp] theorem State.flushWaiting_keeps (s : State) :
    (State.flushWaiting s).pending = (s).pending ∧ (State.flushWaiting s).fuses = (s).fuses ∧ (State.flushWaiting s).su.power = (s).su.power := by
  unfold State.flushWaiting
  simp

@[simp] theorem State.dropReplies_keeps (s : State) (part : Nat) (v : W32) :
    (State.dropReplies s part v).pending = (s).pending ∧ (State.dropReplies s part v).fuses = (s).fuses ∧ (State.dropReplies s part v).su.power = (s).su.power := by
  unfold State.dropReplies
  simp

end Sys2Proof.Machine
end

