-- ==== Sys2Proof/Laws/KeepsReduceOps.lean ====
section
/-! SUPPORT. What the operations of Machine/ReduceOps.lean keep: the queue, the fuses, and power, pins and stage where they move none. -/

namespace Sys2Proof.Machine

@[simp] theorem State.putReduction_keeps (s : State) (r : Reduction) :
    (State.putReduction s r).pending = (s).pending ∧ (State.putReduction s r).fuses = (s).fuses ∧ (State.putReduction s r).su.power = (s).su.power := by
  unfold State.putReduction
  simp

theorem State.linkDeliver_keeps (s : State) (core chan : Nat) (word0 : W32) (word1 : W64) (d : TileData) (t : State) (ht : State.linkDeliver s core chan word0 word1 d = some t) :
    (t).pending = (s).pending ∧ (t).fuses = (s).fuses ∧ (t).su.power = (s).su.power := by
  unfold State.linkDeliver at ht
  try dsimp only at ht
  (repeat' split at ht) <;> first | (cases ht; simp) | (cases ht)

@[simp] theorem State.noteChoice_keeps (s : State) (bucket : Nat) (step : W32) (chunk : Nat) (p : Place) (c : ChunkIn) :
    (State.noteChoice s bucket step chunk p c).pending = (s).pending ∧ (State.noteChoice s bucket step chunk p c).fuses = (s).fuses ∧ (State.noteChoice s bucket step chunk p c).su.power = (s).su.power := by
  unfold State.noteChoice
  (repeat' split) <;> simp

@[simp] theorem State.resultArrives_keeps (s : State) (d : BktDef) (bucket : Nat) (step : W32) (chunk : Nat) (loc : W32) (c : ChunkIn) :
    (State.resultArrives s d bucket step chunk loc c).pending = (s).pending ∧ (State.resultArrives s d bucket step chunk loc c).fuses = (s).fuses ∧ (State.resultArrives s d bucket step chunk loc c).su.power = (s).su.power := by
  unfold State.resultArrives
  try dsimp only
  (repeat' split) <;> simp

@[simp] theorem State.refused_keeps (s : State) (st bucket : Nat) (step origin : W32) :
    (State.refused s st bucket step origin).pending = (s).pending ∧ (State.refused s st bucket step origin).fuses = (s).fuses ∧ (State.refused s st bucket step origin).su.power = (s).su.power := by
  unfold State.refused
  simp

@[simp] theorem State.formSum_keeps (s : State) (d : BktDef) (r : Reduction) (next : State → Place → ChunkIn → State) (h_f : ∀ (x0 : State) (q : Place) (c : ChunkIn), (next x0 q c).pending = (x0).pending ∧ (next x0 q c).fuses = (x0).fuses ∧ (next x0 q c).su.power = (x0).su.power) :
    (State.formSum s d r next).pending = (s).pending ∧ (State.formSum s d r next).fuses = (s).fuses ∧ (State.formSum s d r next).su.power = (s).su.power := by
  unfold State.formSum
  try dsimp only
  (repeat' split) <;> simp [h_f]

@[simp] theorem State.takeInput_keeps (s : State) (d : BktDef) (bucket : Nat) (step : W32) (chunk : Nat) (p : Place) (c : ChunkIn) (n : Nat) :
    (State.takeInput s d bucket step chunk p c n).pending = (s).pending ∧ (State.takeInput s d bucket step chunk p c n).fuses = (s).fuses ∧ (State.takeInput s d bucket step chunk p c n).su.power = (s).su.power := by
  induction n generalizing s d bucket step chunk p c with
  | zero => simp [State.takeInput]
  | succ n ih =>
    simp [State.takeInput, ih]

@[simp] theorem State.pruneSteps_keeps (s : State) (bucket : Nat) :
    (State.pruneSteps s bucket).pending = (s).pending ∧ (State.pruneSteps s bucket).fuses = (s).fuses ∧ (State.pruneSteps s bucket).su.power = (s).su.power := by
  unfold State.pruneSteps
  simp

@[simp] theorem State.input_keeps (s : State) (d : BktDef) (bucket : Nat) (step : W32) (chunk : Nat) (p : Place) (c : ChunkIn) (force : Bool := false) :
    ((State.input s d bucket step chunk p c force).1).pending = (s).pending ∧ ((State.input s d bucket step chunk p c force).1).fuses = (s).fuses ∧ ((State.input s d bucket step chunk p c force).1).su.power = (s).su.power := by
  unfold State.input
  (repeat' split) <;> simp

theorem State.contribute_keeps (s : State) (d : BktDef) (u : ChunkUnit) (force : Bool := false) (t : State) (ht : State.contribute s d u force = some t) :
    (t).pending = (s).pending ∧ (t).fuses = (s).fuses ∧ (t).su.power = (s).su.power := by
  unfold State.contribute at ht
  dsimp only at ht
  split at ht
  · split at ht <;> (cases ht <;> simp)
  · obtain ⟨x, h, rfl⟩ := Option.map_eq_some_iff.mp ht
    have k := State.trySend_keeps _ _ _ _ _ _ _ h
    simp [k]

@[simp] theorem State.contributeOrWait_keeps (s : State) (d : BktDef) (u : ChunkUnit) :
    (State.contributeOrWait s d u).pending = (s).pending ∧ (State.contributeOrWait s d u).fuses = (s).fuses ∧ (State.contributeOrWait s d u).su.power = (s).su.power := by
  unfold State.contributeOrWait
  split
  · rename_i t h
    exact State.contribute_keeps _ _ _ _ _ h
  · simp

@[simp] theorem State.postToken_keeps (s : State) (part : Nat) :
    (State.postToken s part).pending = (s).pending ∧ (State.postToken s part).fuses = (s).fuses ∧ (State.postToken s part).su.power = (s).su.power := by
  unfold State.postToken
  try dsimp only
  (repeat' split) <;> simp

end Sys2Proof.Machine
end

