-- ==== Sys2Proof/Laws/KeepsLink.lean ====
section
/-! SUPPORT. What the operations of Machine/Link.lean keep: the queue, the fuses, and power, pins and stage where they move none. -/

namespace Sys2Proof.Machine

@[simp] theorem State.sendIdentity_keeps (s : State) (p kind : Nat) (body : List Byte) :
    (State.sendIdentity s p kind body).pending = (s).pending ∧ (State.sendIdentity s p kind body).fuses = (s).fuses ∧ (State.sendIdentity s p kind body).su.power = (s).su.power := by
  unfold State.sendIdentity
  simp

@[simp] theorem State.sendChain_keeps (s : State) (p : Nat) :
    (State.sendChain s p).pending = (s).pending ∧ (State.sendChain s p).fuses = (s).fuses ∧ (State.sendChain s p).su.power = (s).su.power := by
  unfold State.sendChain
  simp

@[simp] theorem State.beginAuth_keeps (s : State) (p : Nat) :
    (State.beginAuth s p).pending = (s).pending ∧ (State.beginAuth s p).fuses = (s).fuses ∧ (State.beginAuth s p).su.power = (s).su.power := by
  unfold State.beginAuth
  (repeat' split) <;> simp

@[simp] theorem State.reportLanes_keeps (s : State) (p : Nat) (lanes : Byte) :
    (State.reportLanes s p lanes).pending = (s).pending ∧ (State.reportLanes s p lanes).fuses = (s).fuses ∧ (State.reportLanes s p lanes).su.power = (s).su.power := by
  unfold State.reportLanes
  simp

@[simp] theorem State.portUp_keeps (s : State) (p : Nat) :
    (State.portUp s p).pending = (s).pending ∧ (State.portUp s p).fuses = (s).fuses ∧ (State.portUp s p).su.power = (s).su.power := by
  unfold State.portUp
  simp

theorem State.keyUp_keeps (s : State) (p : Nat) (t : State) (ht : State.keyUp s p = some t) :
    (t).pending = (s).pending ∧ (t).fuses = (s).fuses ∧ (t).su.power = (s).su.power := by
  unfold State.keyUp at ht
  split at ht
  · simp only [Option.some.injEq] at ht
    rw [← ht]
    simp
  · obtain ⟨k, -, rfl⟩ := Option.map_eq_some_iff.mp ht
    simp

theorem State.takeIdentity_keeps (s : State) (p kind : Nat) (body : List Byte) (t : State) (ht : State.takeIdentity s p kind body = some t) :
    (t).pending = (s).pending ∧ (t).fuses = (s).fuses ∧ (t).su.power = (s).su.power := by
  unfold State.takeIdentity at ht
  try dsimp only at ht
  (repeat' split at ht) <;> first
    | exact State.keyUp_keeps _ _ _ ht
    | (simp only [Option.some.injEq] at ht; rw [← ht]; simp)
    | (exact absurd ht (by simp))

@[simp] theorem State.countCodeword_keeps (s : State) (p : Nat) (d : FecOut) :
    (State.countCodeword s p d).pending = (s).pending ∧ (State.countCodeword s p d).fuses = (s).fuses ∧ (State.countCodeword s p d).su.power = (s).su.power := by
  unfold State.countCodeword
  try dsimp only
  (repeat' split) <;> simp

@[simp] theorem State.checkFailed_keeps (s : State) (p : Nat) :
    (State.checkFailed s p).pending = (s).pending ∧ (State.checkFailed s p).fuses = (s).fuses ∧ (State.checkFailed s p).su.power = (s).su.power := by
  unfold State.checkFailed
  (repeat' split) <;> simp

@[simp] theorem State.acknowledge_keeps (s : State) (p : Nat) (f : Frame) :
    (State.acknowledge s p f).pending = (s).pending ∧ (State.acknowledge s p f).fuses = (s).fuses ∧ (State.acknowledge s p f).su.power = (s).su.power := by
  unfold State.acknowledge
  (repeat' split) <;> simp

@[simp] theorem State.takeFrame_keeps (s : State) (p : Nat) (f : Frame) :
    (State.takeFrame s p f).pending = (s).pending ∧ (State.takeFrame s p f).fuses = (s).fuses ∧ (State.takeFrame s p f).su.power = (s).su.power := by
  unfold State.takeFrame
  (repeat' split) <;> simp

@[simp] theorem State.takeRefusal_keeps (s : State) (status : W16) (bucket : Nat) (step origin : W32) :
    (State.takeRefusal s status bucket step origin).pending = (s).pending ∧ (State.takeRefusal s status bucket step origin).fuses = (s).fuses ∧ (State.takeRefusal s status bucket step origin).su.power = (s).su.power := by
  unfold State.takeRefusal
  simp

end Sys2Proof.Machine
end

