-- ==== Sys2Proof/Laws/KeepsReduce.lean ====
section
/-! SUPPORT. What the operations of Machine/Reduce.lean keep: the queue, the fuses, and power, pins and stage where they move none. -/

namespace Sys2Proof.Machine

@[simp] theorem State.chunkAt_keeps (s : State) (port : Nat) (u : ChunkUnit) (f : DigestRec → BitVec 128 → DigestRec) :
    (State.chunkAt s port u f).pending = (s).pending ∧ (State.chunkAt s port u f).fuses = (s).fuses ∧ (State.chunkAt s port u f).su.power = (s).su.power := by
  unfold State.chunkAt
  simp

@[simp] theorem State.refuseChunk_keeps (s : State) (port : Nat) (u : ChunkUnit) (st : Nat) :
    (State.refuseChunk s port u st).pending = (s).pending ∧ (State.refuseChunk s port u st).fuses = (s).fuses ∧ (State.refuseChunk s port u st).su.power = (s).su.power := by
  unfold State.refuseChunk
  simp

@[simp] theorem State.takeChunk_keeps (s : State) (port : Nat) (u : ChunkUnit) (d : BktDef) (p : Place) :
    (State.takeChunk s port u d p).pending = (s).pending ∧ (State.takeChunk s port u d p).fuses = (s).fuses ∧ (State.takeChunk s port u d p).su.power = (s).su.power := by
  unfold State.takeChunk
  try dsimp only
  (repeat' split) <;> simp

@[simp] theorem State.forwardChunk_keeps (s : State) (port : Nat) (u : ChunkUnit) (dst : W32) :
    (State.forwardChunk s port u dst).pending = (s).pending ∧ (State.forwardChunk s port u dst).fuses = (s).fuses ∧ (State.forwardChunk s port u dst).su.power = (s).su.power := by
  unfold State.forwardChunk
  split
  · simp
  · rename_i t h
    have k := State.trySend_keeps _ _ _ _ _ _ _ h
    simp [k]

@[simp] theorem State.chunkHere_keeps (s : State) (port : Nat) (u : ChunkUnit) (d : BktDef) :
    (State.chunkHere s port u d).pending = (s).pending ∧ (State.chunkHere s port u d).fuses = (s).fuses ∧ (State.chunkHere s port u d).su.power = (s).su.power := by
  unfold State.chunkHere
  (repeat' split) <;> simp

theorem State.passResult_keeps (s : State) (d : BktDef) (bucket : Nat) (step : W32) (chunk : Nat) (c : ChunkIn) (p : W32) (t : State) (ht : State.passResult s d bucket step chunk c p = some t) :
    (t).pending = (s).pending ∧ (t).fuses = (s).fuses ∧ (t).su.power = (s).su.power := by
  unfold State.passResult at ht
  dsimp only at ht
  (repeat' split at ht) <;> first
    | exact State.trySend_keeps _ _ _ _ _ _ _ ht
    | (simp only [Option.some.injEq] at ht; rw [← ht]; simp)
    | (exact absurd ht (by simp))

theorem State.passAll_keeps (s : State) (d : BktDef) (bucket : Nat) (step : W32) (chunk : Nat) (c : ChunkIn) (l : List W32) (t : State)
    (ht : State.passAll s d bucket step chunk c l = some t) :
    t.pending = s.pending ∧ t.fuses = s.fuses ∧ t.su.power = s.su.power := by
  induction l generalizing s with
  | nil => cases ht; simp
  | cons p r ih =>
    simp only [State.passAll] at ht
    split at ht
    · cases ht
    · rename_i u h
      have k := State.passResult_keeps _ _ _ _ _ _ _ _ h
      have j := ih _ ht
      exact ⟨j.1.trans k.1, j.2.1.trans k.2.1, j.2.2.trans k.2.2⟩

@[simp] theorem State.delivered_keeps (s : State) (d : BktDef) (r : Reduction) (c : ChunkIn) :
    (State.delivered s d r c).pending = (s).pending ∧ (State.delivered s d r c).fuses = (s).fuses ∧ (State.delivered s d r c).su.power = (s).su.power := by
  unfold State.delivered
  (repeat' split) <;> simp

@[simp] theorem State.spreadGather_keeps (s : State) (d : BktDef) (t : TransferUnit) :
    (State.spreadGather s d t).pending = (s).pending ∧ (State.spreadGather s d t).fuses = (s).fuses ∧ (State.spreadGather s d t).su.power = (s).su.power := by
  unfold State.spreadGather
  simp

@[simp] theorem State.spread_keeps (s : State) (t : TransferUnit) :
    (State.spread s t).pending = (s).pending ∧ (State.spread s t).fuses = (s).fuses ∧ (State.spread s t).su.power = (s).su.power := by
  unfold State.spread
  (repeat' split) <;> simp

@[simp] theorem State.takeTransfer_keeps (s : State) (t : TransferUnit) :
    (State.takeTransfer s t).pending = (s).pending ∧ (State.takeTransfer s t).fuses = (s).fuses ∧ (State.takeTransfer s t).su.power = (s).su.power := by
  unfold State.takeTransfer
  (repeat' split) <;> simp

@[simp] theorem State.postWinching_keeps (s : State) (part : Nat) :
    (State.postWinching s part).pending = (s).pending ∧ (State.postWinching s part).fuses = (s).fuses ∧ (State.postWinching s part).su.power = (s).su.power := by
  unfold State.postWinching
  (repeat' split) <;> simp

@[simp] theorem State.removeBucket_keeps (s : State) (i : Nat) :
    (State.removeBucket s i).pending = (s).pending ∧ (State.removeBucket s i).fuses = (s).fuses ∧ (State.removeBucket s i).su.power = (s).su.power := by
  unfold State.removeBucket
  simp

@[simp] theorem State.putBytes_keeps (s : State) (part slot : Nat) (l : List Byte) :
    (State.putBytes s part slot l).pending = (s).pending ∧ (State.putBytes s part slot l).fuses = (s).fuses ∧ (State.putBytes s part slot l).su.power = (s).su.power := by
  unfold State.putBytes
  simp

end Sys2Proof.Machine
end

