-- ==== Sys2Proof/Laws/KeepsTrain.lean ====
section
/-! SUPPORT. What the operations of Machine/Train.lean keep: the queue, the fuses, and power, pins and stage where they move none. -/

namespace Sys2Proof.Machine

@[simp] theorem State.cancelHeld_keeps (s : State) (part : Nat) :
    (State.cancelHeld s part).pending = (s).pending ∧ (State.cancelHeld s part).fuses = (s).fuses ∧ (State.cancelHeld s part).su.power = (s).su.power := by
  unfold State.cancelHeld
  (repeat' split) <;> simp

@[simp] theorem State.untake_keeps (s : State) (bucket : Nat) (step : W32) (c : ChunkIn) :
    (State.untake s bucket step c).pending = (s).pending ∧ (State.untake s bucket step c).fuses = (s).fuses ∧ (State.untake s bucket step c).su.power = (s).su.power := by
  unfold State.untake
  (repeat' split) <;> simp

@[simp] theorem State.discardBefore_keeps (s : State) (part : Nat) (n : W32) :
    (State.discardBefore s part n).pending = (s).pending ∧ (State.discardBefore s part n).fuses = (s).fuses ∧ (State.discardBefore s part n).su.power = (s).su.power := by
  unfold State.discardBefore
  simp

@[simp] theorem State.stopCopy_keeps (s : State) (part : Nat) (f : W32 → Bool) :
    (State.stopCopy s part f).pending = (s).pending ∧ (State.stopCopy s part f).fuses = (s).fuses ∧ (State.stopCopy s part f).su.power = (s).su.power := by
  unfold State.stopCopy
  simp

@[simp] theorem State.copyVersion_keeps (s : State) (part : Nat) (x : Ctx) (v : W32) :
    (State.copyVersion s part x v).pending = (s).pending ∧ (State.copyVersion s part x v).fuses = (s).fuses ∧ (State.copyVersion s part x v).su.power = (s).su.power := by
  unfold State.copyVersion
  split
  · simp
  · refine ⟨foldl_pending _ ?_ _ _, foldl_fuses _ ?_ _ _, foldl_power _ ?_ _ _⟩ <;> (intro t a; dsimp only; split <;> simp)

@[simp] theorem State.putStore_keeps (s : State) (part : Nat) (t : TandemStore) :
    (State.putStore s part t).pending = (s).pending ∧ (State.putStore s part t).fuses = (s).fuses ∧ (State.putStore s part t).su.power = (s).su.power := by
  unfold State.putStore
  simp

@[simp] theorem State.makeStore_keeps (s : State) (part : Nat) (g : Geometry) (pos : W32) :
    (State.makeStore s part g pos).pending = (s).pending ∧ (State.makeStore s part g pos).fuses = (s).fuses ∧ (State.makeStore s part g pos).su.power = (s).su.power := by
  unfold State.makeStore
  (repeat' split) <;> simp

@[simp] theorem State.nameTandem_keeps (s : State) (part : Nat) (x : Ctx) (pos : W32) :
    (State.nameTandem s part x pos).pending = (s).pending ∧ (State.nameTandem s part x pos).fuses = (s).fuses ∧ (State.nameTandem s part x pos).su.power = (s).su.power := by
  unfold State.nameTandem
  simp

end Sys2Proof.Machine
end

