-- ==== Sys2Proof/Laws/KeepsReshard.lean ====
section
/-! SUPPORT. What the operations of Machine/Reshard.lean keep: the queue, the fuses, and power, pins and stage where they move none. -/

namespace Sys2Proof.Machine

@[simp] theorem State.unstage_keeps (s : State) (part : Nat) (r : Reshard) (slot : Nat) :
    ((State.unstage s part r slot).1).pending = (s).pending ∧ ((State.unstage s part r slot).1).fuses = (s).fuses ∧ ((State.unstage s part r slot).1).su.power = (s).su.power := by
  unfold State.unstage
  try dsimp only
  (repeat' split) <;> simp

@[simp] theorem State.holdReshard_keeps (s : State) (part : Nat) (r : Reshard) :
    (State.holdReshard s part r).pending = (s).pending ∧ (State.holdReshard s part r).fuses = (s).fuses ∧ (State.holdReshard s part r).su.power = (s).su.power := by
  unfold State.holdReshard
  (repeat' split) <;> simp

@[simp] theorem State.putReshard_keeps (s : State) (part : Nat) (x : Ctx) (r : Reshard) :
    (State.putReshard s part x r).pending = (s).pending ∧ (State.putReshard s part x r).fuses = (s).fuses ∧ (State.putReshard s part x r).su.power = (s).su.power := by
  unfold State.putReshard
  simp

theorem State.placeTile_keeps (s : State) (part : Nat) (r : Reshard) (slot : Nat) (d : TileData) (t : State) (q : Reshard)
    (ht : State.placeTile s part r slot d = some (t, q)) :
    t.pending = s.pending ∧ t.fuses = s.fuses ∧ t.su.power = s.su.power := by
  unfold State.placeTile at ht
  split at ht
  · cases h : r.freeStaging with
    | none => simp [h] at ht
    | some a => simp [h] at ht; obtain ⟨rfl, rfl⟩ := ht; simp
  · cases ht; simp

theorem State.sendWinch_keeps (s : State) (part : Nat) (x : Ctx) (r : Reshard) (w : WinchOut) (t : State) (ht : State.sendWinch s part x r w = some t) :
    (t).pending = (s).pending ∧ (t).fuses = (s).fuses ∧ (t).su.power = (s).su.power := State.trySend_keeps _ _ _ _ _ _ _ ht

@[simp] theorem State.reconfigure_keeps (s : State) (part : Nat) (x : Ctx) (r : Reshard) :
    (State.reconfigure s part x r).pending = (s).pending ∧ (State.reconfigure s part x r).fuses = (s).fuses ∧ (State.reconfigure s part x r).su.power = (s).su.power := by
  unfold State.reconfigure
  simp

@[simp] theorem State.winchPart_keeps (s : State) (part : Nat) :
    (State.winchPart s part).pending = (s).pending ∧ (State.winchPart s part).fuses = (s).fuses ∧ (State.winchPart s part).su.power = (s).su.power := by
  unfold State.winchPart
  (repeat' split) <;> simp

@[simp] theorem State.afterWinch_keeps (s : State) (part : Nat) :
    (State.afterWinch s part).pending = (s).pending ∧ (State.afterWinch s part).fuses = (s).fuses ∧ (State.afterWinch s part).su.power = (s).su.power := by
  unfold State.afterWinch
  (repeat' split) <;> simp

@[simp] theorem State.refuseWinch_keeps (s : State) (w : WinchTile) :
    (State.refuseWinch s w).pending = (s).pending ∧ (State.refuseWinch s w).fuses = (s).fuses ∧ (State.refuseWinch s w).su.power = (s).su.power := by
  unfold State.refuseWinch
  simp

@[simp] theorem State.discardWinch_keeps (s : State) (w : WinchTile) :
    (State.discardWinch s w).pending = (s).pending ∧ (State.discardWinch s w).fuses = (s).fuses ∧ (State.discardWinch s w).su.power = (s).su.power := by
  unfold State.discardWinch
  simp

@[simp] theorem State.endReshard_keeps (s : State) (part : Nat) (x : Ctx) (r : Reshard) :
    (State.endReshard s part x r).pending = (s).pending ∧ (State.endReshard s part x r).fuses = (s).fuses ∧ (State.endReshard s part x r).su.power = (s).su.power := by
  unfold State.endReshard
  (repeat' split) <;> simp

@[simp] theorem State.formWaiting_keeps (s : State) (part : Nat) :
    (State.formWaiting s part).pending = (s).pending ∧ (State.formWaiting s part).fuses = (s).fuses ∧ (State.formWaiting s part).su.power = (s).su.power := by
  unfold State.formWaiting
  refine ⟨foldl_pending _ ?_ _ _, foldl_fuses _ ?_ _ _, foldl_power _ ?_ _ _⟩ <;> (intro t a; (repeat' split) <;> simp)

end Sys2Proof.Machine
end

