-- ==== Sys2Proof/Laws/KeepsPartition.lean ====
section
/-! SUPPORT. What the operations of Machine/Partition.lean keep: the queue, the fuses, and power, pins and stage where they move none. -/

namespace Sys2Proof.Machine

@[simp] theorem State.endSequences_keeps (s : State) (n : Nat) :
    (State.endSequences s n).pending = (s).pending ∧ (State.endSequences s n).fuses = (s).fuses ∧ (State.endSequences s n).su.power = (s).su.power := by
  unfold State.endSequences
  simp

@[simp] theorem State.dropGondola_keeps (s : State) (g : Nat) :
    (State.dropGondola s g).pending = (s).pending ∧ (State.dropGondola s g).fuses = (s).fuses ∧ (State.dropGondola s g).su.power = (s).su.power := by
  unfold State.dropGondola
  simp

@[simp] theorem State.dropWaiters_keeps (s : State) (n : Nat) :
    (State.dropWaiters s n).pending = (s).pending ∧ (State.dropWaiters s n).fuses = (s).fuses ∧ (State.dropWaiters s n).su.power = (s).su.power := by
  unfold State.dropWaiters
  try dsimp only
  (repeat' split) <;> simp

@[simp] theorem State.deletePart_keeps (s : State) (n : Nat) :
    (State.deletePart s n).pending = (s).pending ∧ (State.deletePart s n).fuses = (s).fuses ∧ (State.deletePart s n).su.power = (s).su.power := by
  unfold State.deletePart
  simp

@[simp] theorem State.erasePart_keeps (s : State) (n : Nat) :
    (State.erasePart s n).pending = (s).pending ∧ (State.erasePart s n).fuses = (s).fuses ∧ (State.erasePart s n).su.power = (s).su.power := by
  unfold State.erasePart
  simp

@[simp] theorem State.installTile_keeps (s : State) (n : Nat) (x : Opened) (c : Control) (t : SpanEntry) :
    (State.installTile s n x c t).pending = (s).pending ∧ (State.installTile s n x c t).fuses = (s).fuses ∧ (State.installTile s n x c t).su.power = (s).su.power := by
  unfold State.installTile
  (repeat' split) <;> simp

@[simp] theorem State.install_keeps (s : State) (n : Nat) (img : Image) (x : Opened) (kites : W32) (hbm ballast link : Byte) :
    (State.install s n img x kites hbm ballast link).pending = (s).pending ∧ (State.install s n img x kites hbm ballast link).fuses = (s).fuses ∧ (State.install s n img x kites hbm ballast link).su.power = (s).su.power := by
  unfold State.install
  simp

end Sys2Proof.Machine
end

