-- ==== Sys2Proof/Laws/KeepsHostCopy.lean ====
section
/-! SUPPORT. What the operations of Machine/HostCopy.lean keep: the queue, the fuses, and power, pins and stage where they move none. -/

namespace Sys2Proof.Machine

@[simp] theorem State.addHostOp_keeps (s : State) (x : HostOp) :
    (State.addHostOp s x).pending = (s).pending ∧ (State.addHostOp s x).fuses = (s).fuses ∧ (State.addHostOp s x).su.power = (s).su.power := by
  unfold State.addHostOp
  simp

@[simp] theorem State.copyInPart_keeps (s : State) (part addr len : Nat) :
    (State.copyInPart s part addr len).pending = (s).pending ∧ (State.copyInPart s part addr len).fuses = (s).fuses ∧ (State.copyInPart s part addr len).su.power = (s).su.power := by
  unfold State.copyInPart
  simp

@[simp] theorem State.writeHost_keeps (s : State) (fn : Nat) (host : W64) (m : Mem) (len : Nat) :
    (State.writeHost s fn host m len).pending = (s).pending ∧ (State.writeHost s fn host m len).fuses = (s).fuses ∧ (State.writeHost s fn host m len).su.power = (s).su.power := by
  unfold State.writeHost
  try dsimp only
  (repeat' split) <;> simp

@[simp] theorem State.copyOutPart_keeps (s : State) (ref : CmdRef) (part addr : Nat) (host : W64) (len : Nat) :
    (State.copyOutPart s ref part addr host len).pending = (s).pending ∧ (State.copyOutPart s ref part addr host len).fuses = (s).fuses ∧ (State.copyOutPart s ref part addr host len).su.power = (s).su.power := by
  unfold State.copyOutPart
  simp

@[simp] theorem State.stopCopyOp_keeps (s : State) (x : HostOp) (st : Nat) :
    (State.stopCopyOp s x st).pending = (s).pending ∧ (State.stopCopyOp s x st).fuses = (s).fuses ∧ (State.stopCopyOp s x st).su.power = (s).su.power := by
  unfold State.stopCopyOp
  (repeat' split) <;> simp

@[simp] theorem State.endCopyIn_keeps (s : State) (ref : CmdRef) (part addr : Nat) (l : List Byte) :
    (State.endCopyIn s ref part addr l).pending = (s).pending ∧ (State.endCopyIn s ref part addr l).fuses = (s).fuses ∧ (State.endCopyIn s ref part addr l).su.power = (s).su.power := by
  unfold State.endCopyIn
  (repeat' split) <;> simp

@[simp] theorem State.endCopyOut_keeps (s : State) (ref : CmdRef) (part addr : Nat) (host : W64) (len : Nat) :
    (State.endCopyOut s ref part addr host len).pending = (s).pending ∧ (State.endCopyOut s ref part addr host len).fuses = (s).fuses ∧ (State.endCopyOut s ref part addr host len).su.power = (s).su.power := by
  unfold State.endCopyOut
  simp

end Sys2Proof.Machine
end

