-- ==== Sys2Proof/Laws/KeepsSecurity.lean ====
section
/-! SUPPORT. What the operations of Machine/Security.lean keep: the queue, the fuses, and power, pins and stage where they move none. -/

namespace Sys2Proof.Machine

@[simp] theorem State.takeRecord_keeps (s : State) (l : List Byte) :
    ((State.takeRecord s l).1).pending = (s).pending ∧ ((State.takeRecord s l).1).fuses = (s).fuses ∧ ((State.takeRecord s l).1).su.power = (s).su.power := by
  unfold State.takeRecord
  try dsimp only
  (repeat' split) <;> simp

@[simp] theorem State.importOne_keeps (s : State) (part : Nat) (key : BitVec 512) (t : SpanEntry) :
    ((State.importOne s part key t).1).pending = (s).pending ∧ ((State.importOne s part key t).1).fuses = (s).fuses ∧ ((State.importOne s part key t).1).su.power = (s).su.power := by
  unfold State.importOne
  try dsimp only
  (repeat' split) <;> simp

@[simp] theorem State.importAll_keeps (s : State) (part : Nat) (key : BitVec 512) (l : List SpanEntry) :
    ((State.importAll s part key l).1).pending = (s).pending ∧ ((State.importAll s part key l).1).fuses = (s).fuses ∧ ((State.importAll s part key l).1).su.power = (s).su.power := by
  unfold State.importAll
  generalize (0 : Nat) = n
  induction l generalizing s n with
  | nil => simp
  | cons a r ih => simp [List.foldl, ih]

@[simp] theorem State.endImport_keeps (s : State) (ref : CmdRef) (part env segs tiles : Nat) (l : List Byte) :
    (State.endImport s ref part env segs tiles l).pending = (s).pending ∧ (State.endImport s ref part env segs tiles l).fuses = (s).fuses ∧ (State.endImport s ref part env segs tiles l).su.power = (s).su.power := by
  unfold State.endImport
  (repeat' split) <;> simp

@[simp] theorem State.meetHostOp_keeps (s : State) (x : HostOp) (errs : List (Nat × CodeErrs)) :
    (State.meetHostOp s x errs).pending = (s).pending ∧ (State.meetHostOp s x errs).fuses = (s).fuses ∧ (State.meetHostOp s x errs).su.power = (s).su.power := by
  unfold State.meetHostOp
  (repeat' split) <;> simp

@[simp] theorem State.endHostOp_keeps (s : State) (x : HostOp) (result : Option (List Byte)) :
    (State.endHostOp s x result).pending = (s).pending ∧ (State.endHostOp s x result).fuses = (s).fuses ∧ (State.endHostOp s x result).su.power = (s).su.power := by
  unfold State.endHostOp
  (repeat' split) <;> simp

@[simp] theorem State.authFailed_keeps (s : State) :
    (State.authFailed s).pending = (s).pending ∧ (State.authFailed s).fuses = (s).fuses ∧ (State.authFailed s).su.power = (s).su.power := by
  unfold State.authFailed
  simp

@[simp] theorem State.spdm_keeps (s : State) (code : Nat) (ok : Bool) (result : List Byte) :
    (State.spdm s code ok result).pending = (s).pending ∧ (State.spdm s code ok result).fuses = (s).fuses ∧ (State.spdm s code ok result).su.power = (s).su.power := by
  unfold State.spdm
  simp

@[simp] theorem State.openSession_keeps (s : State) (path : SpdmPath) (share chain : List Byte) :
    (State.openSession s path share chain).pending = (s).pending ∧ (State.openSession s path share chain).fuses = (s).fuses ∧ (State.openSession s path share chain).su.power = (s).su.power := by
  unfold State.openSession
  (repeat' split) <;> simp

@[simp] theorem State.leaveSecure_keeps (s : State) (fn : Nat) :
    (State.leaveSecure s fn).pending = (s).pending ∧ (State.leaveSecure s fn).fuses = (s).fuses ∧ (State.leaveSecure s fn).su.power = (s).su.power := by
  unfold State.leaveSecure
  simp

end Sys2Proof.Machine
end

