-- ==== Sys2Proof/Laws/KeepsPower.lean ====
section
/-! SUPPORT. What the operations of Machine/Power.lean keep: the queue, the fuses, and power, pins and stage where they move none. -/

namespace Sys2Proof.Machine

@[simp] theorem State.vendor_keeps (s : State) (cmd st : Nat) (result : List Byte) :
    (State.vendor s cmd st result).pending = (s).pending ∧ (State.vendor s cmd st result).fuses = (s).fuses ∧ (State.vendor s cmd st result).su.power = (s).su.power := by
  unfold State.vendor
  simp

@[simp] theorem State.answer_keeps (s : State) (ref : Option CmdRef) (cmd st : Nat) (result : Nat) (n : Nat) :
    (State.answer s ref cmd st result n).pending = (s).pending ∧ (State.answer s ref cmd st result n).fuses = (s).fuses ∧ (State.answer s ref cmd st result n).su.power = (s).su.power := by
  unfold State.answer
  (repeat' split) <;> simp

@[simp] theorem State.guarded_keeps (s : State) (ref : Option CmdRef) (cmd : Nat) (checks : List (Bool × Nat)) (f : State → State) (h_f : ∀ (x0 : State), (f x0).pending = (x0).pending ∧ (f x0).fuses = (x0).fuses ∧ (f x0).su.power = (x0).su.power) :
    (State.guarded s ref cmd checks f).pending = (s).pending ∧ (State.guarded s ref cmd checks f).fuses = (s).fuses ∧ (State.guarded s ref cmd checks f).su.power = (s).su.power := by
  unfold State.guarded
  (repeat' split) <;> simp [h_f]

@[simp] theorem State.ladder_keeps (s : State) (ref : Option CmdRef) (target : Option Rung) (flags bad : Nat) (fieldsOk : Bool) :
    (State.ladder s ref target flags bad fieldsOk).pending = (s).pending ∧ (State.ladder s ref target flags bad fieldsOk).fuses = (s).fuses ∧ (State.ladder s ref target flags bad fieldsOk).su.power = (s).su.power := by
  unfold State.ladder
  simp

@[simp] theorem State.groundPort_keeps (s : State) (p : Nat) :
    (State.groundPort s p).pending = s.pending ∧ (State.groundPort s p).fuses = s.fuses ∧ (State.groundPort s p).su.power = s.su.power := by
  unfold State.groundPort
  split <;> simp

@[simp] theorem State.failUnit_keeps (s : State) (u : TestUnit) :
    (State.failUnit s u).pending = s.pending ∧ (State.failUnit s u).fuses = s.fuses ∧ (State.failUnit s u).su.power = s.su.power := by
  unfold State.failUnit
  (repeat' split) <;> simp

@[simp] theorem State.enterGrounded_keeps (s : State) :
    (State.enterGrounded s).pending = (s).pending ∧ (State.enterGrounded s).fuses = (s).fuses ∧ (State.enterGrounded s).su.power = (s).su.power := by
  unfold State.enterGrounded
  simp

@[simp] theorem State.enterFolded_keeps (s : State) :
    (State.enterFolded s).pending = (s).pending ∧ (State.enterFolded s).fuses = (s).fuses ∧ (State.enterFolded s).su.power = (s).su.power := by
  unfold State.enterFolded
  simp

@[simp] theorem State.leaveFolded_keeps (s : State) :
    (State.leaveFolded s).pending = (s).pending ∧ (State.leaveFolded s).fuses = (s).fuses ∧ (State.leaveFolded s).su.power = (s).su.power := by
  unfold State.leaveFolded
  simp

@[simp] theorem State.leaveGrounded_keeps (s : State) :
    (State.leaveGrounded s).pending = (s).pending ∧ (State.leaveGrounded s).fuses = (s).fuses ∧ (State.leaveGrounded s).su.power = (s).su.power := by
  unfold State.leaveGrounded
  simp

@[simp] theorem State.enterPacked_keeps (s : State) :
    (State.enterPacked s).pending = (s).pending ∧ (State.enterPacked s).fuses = (s).fuses := by
  unfold State.enterPacked
  try dsimp only
  simp (disch := (intros; simp))

@[simp] theorem State.moveRung_keeps (s : State) (target : Rung) :
    (State.moveRung s target).pending = (s).pending ∧ (State.moveRung s target).fuses = (s).fuses := by
  unfold State.moveRung
  try dsimp only
  (repeat' split) <;> simp (disch := (intros; (repeat' split) <;> simp))

@[simp] theorem State.drainUnit_keeps (s : State) (kind unit : Nat) :
    (State.drainUnit s kind unit).pending = (s).pending ∧ (State.drainUnit s kind unit).fuses = (s).fuses ∧ (State.drainUnit s kind unit).su.power = (s).su.power := by
  unfold State.drainUnit
  (repeat' split) <;> simp

@[simp] theorem State.selfTest_keeps (s : State) (ref : Option CmdRef) (kind unit depth flags bad : Nat) (fieldsOk : Bool) :
    (State.selfTest s ref kind unit depth flags bad fieldsOk).pending = (s).pending ∧ (State.selfTest s ref kind unit depth flags bad fieldsOk).fuses = (s).fuses ∧ (State.selfTest s ref kind unit depth flags bad fieldsOk).su.power = (s).su.power := by
  unfold State.selfTest
  simp

@[simp] theorem State.testFailed_keeps (s : State) (fails : List TestUnit) :
    (State.testFailed s fails).pending = (s).pending ∧ (State.testFailed s fails).fuses = (s).fuses := by
  unfold State.testFailed
  try dsimp only
  (repeat' split) <;> simp (disch := (intros; (repeat' split) <;> simp))

@[simp] theorem State.logFails_keeps (s : State) (fails : List TestUnit) :
    (State.logFails s fails).pending = (s).pending ∧ (State.logFails s fails).fuses = (s).fuses ∧ (State.logFails s fails).su.power = (s).su.power := by
  unfold State.logFails
  simp

@[simp] theorem State.heat_keeps (s : State) (core : Nat) (temp : Byte) :
    (State.heat s core temp).pending = (s).pending ∧ (State.heat s core temp).fuses = (s).fuses ∧ (State.heat s core temp).su.power = (s).su.power := by
  unfold State.heat
  simp

end Sys2Proof.Machine
end

