-- ==== Sys2Proof/Laws/KeepsRegisters.lean ====
section
/-! SUPPORT. What the operations of Machine/Registers.lean keep: the queue, the fuses, and power, pins and stage where they move none. -/

namespace Sys2Proof.Machine

@[simp] theorem State.holdDown_keeps (s : State) (p : Nat) :
    (State.holdDown s p).pending = (s).pending ∧ (State.holdDown s p).fuses = (s).fuses ∧ (State.holdDown s p).su.power = (s).su.power := by
  unfold State.holdDown
  simp

@[simp] theorem State.unhold_keeps (s : State) (p : Nat) :
    (State.unhold s p).pending = (s).pending ∧ (State.unhold s p).fuses = (s).fuses ∧ (State.unhold s p).su.power = (s).su.power := by
  unfold State.unhold
  simp

@[simp] theorem State.recal_keeps (s : State) (p : Nat) :
    (State.recal s p).pending = (s).pending ∧ (State.recal s p).fuses = (s).fuses ∧ (State.recal s p).su.power = (s).su.power := by
  unfold State.recal
  (repeat' split) <;> simp

@[simp] theorem State.writePortCtl_keeps (s : State) (v : W32) :
    (State.writePortCtl s v).pending = (s).pending ∧ (State.writePortCtl s v).fuses = (s).fuses ∧ (State.writePortCtl s v).su.power = (s).su.power := by
  unfold State.writePortCtl
  (repeat' split) <;> simp

@[simp] theorem State.writeRing_keeps (s : State) (fn off : Nat) (v : W32) :
    (State.writeRing s fn off v).pending = (s).pending ∧ (State.writeRing s fn off v).fuses = (s).fuses ∧ (State.writeRing s fn off v).su.power = (s).su.power := by
  unfold State.writeRing
  (repeat' split) <;> simp

@[simp] theorem State.writeHif_keeps (s : State) (off : Nat) (v : W32) :
    (State.writeHif s off v).pending = (s).pending ∧ (State.writeHif s off v).fuses = (s).fuses ∧ (State.writeHif s off v).su.power = (s).su.power := by
  unfold State.writeHif
  (repeat' split) <;> simp

@[simp] theorem State.writeTet_keeps (s : State) (off : Nat) (v : W32) :
    (State.writeTet s off v).pending = (s).pending ∧ (State.writeTet s off v).fuses = (s).fuses ∧ (State.writeTet s off v).su.power = (s).su.power := by
  unfold State.writeTet
  (repeat' split) <;> simp

@[simp] theorem State.writeSpn_keeps (s : State) (off : Nat) (v : W32) :
    (State.writeSpn s off v).pending = (s).pending ∧ (State.writeSpn s off v).fuses = (s).fuses ∧ (State.writeSpn s off v).su.power = (s).su.power := by
  unfold State.writeSpn
  (repeat' split) <;> simp

@[simp] theorem State.writeLnk_keeps (s : State) (off : Nat) (v : W32) :
    (State.writeLnk s off v).pending = (s).pending ∧ (State.writeLnk s off v).fuses = (s).fuses ∧ (State.writeLnk s off v).su.power = (s).su.power := by
  unfold State.writeLnk
  (repeat' split) <;> simp

@[simp] theorem State.writeGon_keeps (s : State) (off : Nat) (v : W32) :
    (State.writeGon s off v).pending = (s).pending ∧ (State.writeGon s off v).fuses = (s).fuses ∧ (State.writeGon s off v).su.power = (s).su.power := by
  unfold State.writeGon
  (repeat' split) <;> simp

@[simp] theorem State.writeSec_keeps (s : State) (off : Nat) (v : W32) :
    (State.writeSec s off v).pending = (s).pending ∧ (State.writeSec s off v).fuses = (s).fuses ∧ (State.writeSec s off v).su.power = (s).su.power := by
  unfold State.writeSec
  (repeat' split) <;> simp

@[simp] theorem State.writePwr_keeps (s : State) (off : Nat) (v : W32) :
    (State.writePwr s off v).pending = (s).pending ∧ (State.writePwr s off v).fuses = (s).fuses ∧ (State.writePwr s off v).su.power = (s).su.power := by
  unfold State.writePwr
  (repeat' split) <;> simp

@[simp] theorem State.clearCounts_keeps (s : State) (v : W32) :
    (State.clearCounts s v).pending = (s).pending ∧ (State.clearCounts s v).fuses = (s).fuses ∧ (State.clearCounts s v).su.power = (s).su.power := by
  unfold State.clearCounts
  simp

@[simp] theorem State.writeMgt_keeps (s : State) (off : Nat) (v : W32) :
    (State.writeMgt s off v).pending = (s).pending ∧ (State.writeMgt s off v).fuses = (s).fuses ∧ (State.writeMgt s off v).su.power = (s).su.power := by
  unfold State.writeMgt
  (repeat' split) <;> simp

@[simp] theorem State.writePf_keeps (s : State) (offset : Nat) (v : W32) :
    (State.writePf s offset v).pending = (s).pending ∧ (State.writePf s offset v).fuses = (s).fuses ∧ (State.writePf s offset v).su.power = (s).su.power := by
  unfold State.writePf
  simp

end Sys2Proof.Machine
end

