-- ==== Sys2Proof/Laws/KeepsMgmt.lean ====
section
/-! SUPPORT. What the operations of Machine/Mgmt.lean keep: the queue, the fuses, and power, pins and stage where they move none. -/

namespace Sys2Proof.Machine

@[simp] theorem State.clearErrors_keeps (s : State) :
    (State.clearErrors s).pending = (s).pending ∧ (State.clearErrors s).fuses = (s).fuses ∧ (State.clearErrors s).su.power = (s).su.power := by
  unfold State.clearErrors
  dsimp only
  refine ⟨?_, ?_, ?_⟩
  · rw [foldl_pending _ (by intro t a; (repeat' split) <;> simp)]; simp
  · rw [foldl_fuses _ (by intro t a; (repeat' split) <;> simp)]; simp
  · rw [foldl_power _ (by intro t a; (repeat' split) <;> simp)]; simp

@[simp] theorem State.pldm_keeps (s : State) (code st : Nat) :
    (State.pldm s code st).pending = (s).pending ∧ (State.pldm s code st).fuses = (s).fuses ∧ (State.pldm s code st).su.power = (s).su.power := by
  unfold State.pldm
  simp

@[simp] theorem State.endUpdate_keeps (s : State) :
    (State.endUpdate s).pending = (s).pending ∧ (State.endUpdate s).fuses = (s).fuses ∧ (State.endUpdate s).su.power = (s).su.power := by
  unfold State.endUpdate
  simp

end Sys2Proof.Machine
end

