-- ==== Sys2Proof/Laws/Shared.lean ====
section
/-! SUPPORT. What the operations that every family goes through can do: `onUnit`, `hostCommand`, `issueAt`, `arrayEvent`, `whenAwake`, `ideKm`. -/

namespace Sys2Proof.Machine

/-- `onUnit` answers its state where the unit exists, and nothing else is a next state. -/
theorem onUnit_eq_next {ok : Bool} {t u : State} : onUnit ok t = .next u ↔ ok = true ∧ u = t := by
  unfold onUnit
  split <;> simp_all [eq_comm]

/-- `onUnit` stops exactly where the unit does not exist. -/
theorem onUnit_eq_fault {ok : Bool} {t : State} {r : Fault} : onUnit ok t = .fault r ↔ ok = false ∧ r = .noSuchUnit := by
  unfold onUnit
  split <;> simp_all [eq_comm]

/-- `onUnit` refuses nothing. -/
theorem onUnit_ne_refused {ok : Bool} {t : State} {r : Refusal} : onUnit ok t ≠ .refused r := by
  unfold onUnit
  split <;> simp

/-- Everything a host command's row can do: nothing, if it is not the command its ring starts next; 0x0711, in a ladder state that does
not carry it out; otherwise its own effect, on the state in which it has started. -/
theorem hostCommand_cases {o : RingId} {op : Nat} {s t : State} {f : CmdRef → BitVec 512 → State → State}
    (h : hostCommand o op s f = .next t) :
    o.valid = true ∧
      ((s.front o op = none ∧ t = s) ∨
       (∃ ref c, s.front o op = some (ref, c) ∧
          ((s.setRing o (s.ring o).begin).lowLadder && !(op ∈ ladderOpcodes)) = true ∧
          t = (s.setRing o (s.ring o).begin).complete ref 0x0711) ∨
       (∃ ref c, s.front o op = some (ref, c) ∧
          ((s.setRing o (s.ring o).begin).lowLadder && !(op ∈ ladderOpcodes)) = false ∧
          t = f ref c (s.setRing o (s.ring o).begin))) := by
  unfold hostCommand at h
  obtain ⟨hv, rfl⟩ := onUnit_eq_next.mp h
  refine ⟨hv, ?_⟩
  cases hf : s.front o op with
  | none => exact .inl ⟨rfl, rfl⟩
  | some p =>
    obtain ⟨ref, c⟩ := p
    cases hl : ((s.setRing o (s.ring o).begin).lowLadder && !(op ∈ ladderOpcodes)) with
    | true => exact .inr (.inl ⟨ref, c, rfl, rfl, by simp only [hl, if_true]⟩)
    | false => exact .inr (.inr ⟨ref, c, rfl, rfl, by simp [hl]⟩)

/-- A host command that its ring starts next and that the ladder lets through has its effect. -/
theorem hostCommand_runs {o : RingId} {op : Nat} {s : State} {f : CmdRef → BitVec 512 → State → State} {ref : CmdRef} {c : BitVec 512}
    (hv : o.valid = true) (hf : s.front o op = some (ref, c))
    (hl : ((s.setRing o (s.ring o).begin).lowLadder && !(op ∈ ladderOpcodes)) = false) :
    hostCommand o op s f = .next (f ref c (s.setRing o (s.ring o).begin)) := by
  unfold hostCommand onUnit
  rw [if_pos hv, hf]
  simp only [hl]
  rfl

/-- A host command keeps the queue, the fuses and the power, if its effect does. -/
theorem hostCommand_keeps {o : RingId} {op : Nat} {s t : State} {f : CmdRef → BitVec 512 → State → State}
    (hf : ∀ ref c u, (f ref c u).pending = u.pending ∧ (f ref c u).fuses = u.fuses ∧ (f ref c u).su.power = u.su.power)
    (h : hostCommand o op s f = .next t) :
    t.pending = s.pending ∧ t.fuses = s.fuses ∧ t.su.power = s.su.power := by
  obtain ⟨-, ⟨-, rfl⟩ | ⟨ref, c, -, -, rfl⟩ | ⟨ref, c, -, -, rfl⟩⟩ := hostCommand_cases h
  · simp
  · simp
  · simp [hf]

/-- A bundle's issue keeps the queue, the fuses and the power. -/
theorem issueAt_keeps {k : Nat} {has : Bundle → Bool} {s t : State} (h : issueAt k has s = .next t) :
    t.pending = s.pending ∧ t.fuses = s.fuses ∧ t.su.power = s.su.power := by
  obtain ⟨-, rfl⟩ := onUnit_eq_next.mp h
  simp

/-- An operation that passes its checks has its effect. -/
theorem checked_runs {s : State} {ref : CmdRef} {l : List (Bool × Nat)} {f : State → State} (h : firstFail l = none) :
    s.checked ref l f = f s := by
  simp [State.checked, h]

/-- An operation that fails a check completes with the first failing check's status. -/
theorem checked_fails {s : State} {ref : CmdRef} {l : List (Bool × Nat)} {f : State → State} {st : Nat} (h : firstFail l = some st) :
    s.checked ref l f = s.complete ref st := by
  simp [State.checked, h]

/-- No check fails exactly when every check passes. -/
theorem firstFail_eq_none {l : List (Bool × Nat)} : firstFail l = none ↔ ∀ e ∈ l, e.1 = false := by
  induction l with
  | nil => simp [firstFail]
  | cons e r ih =>
    obtain ⟨b, st⟩ := e
    cases b <;> simp [firstFail, ih]

end Sys2Proof.Machine
end

