-- ==== Sys2Proof/Laws/Table.lean ====
section
/-! SUPPORT. The laws of sparse tables and memories: a read after a write, and that every operation keeps the canonical form. -/

namespace Sys2Proof.Machine

variable {α : Type}

/-! ### Reading after writing -/

/-- A key below every key of a table reads as the default. -/
theorem SMap.get_above (d : α) (m : SMap α) (b i : Nat) (h : SMap.above b m = true) (hi : i ≤ b) : SMap.get d m i = d := by
  induction m generalizing b with
  | nil => rfl
  | cons e r ih =>
    obtain ⟨k, v⟩ := e
    simp only [SMap.above, Bool.and_eq_true, decide_eq_true_eq] at h
    rw [SMap.get, if_neg (by omega)]
    exact ih k h.2 (by omega)

/-- The key just written reads as what was written. -/
theorem SMap.get_set_same [DecidableEq α] (d : α) (m : SMap α) (i : Nat) (x : α) (h : SMap.wf d m = true) :
    SMap.get d (SMap.set d m i x) i = x := by
  induction m with
  | nil =>
    simp only [SMap.set]
    split
    · simp_all [SMap.get]
    · simp [SMap.get]
  | cons e r ih =>
    obtain ⟨k, v⟩ := e
    simp only [SMap.wf, Bool.and_eq_true, decide_eq_true_eq] at h
    simp only [SMap.set]
    split
    · split
      · rename_i hik hx
        rw [SMap.get, if_neg (by omega), hx]
        exact SMap.get_above d r k i h.1.2 (by omega)
      · simp [SMap.get]
    · split
      · rename_i _ hik
        split
        · rename_i hx
          rw [hx]
          exact SMap.get_above d r k i h.1.2 (by omega)
        · simp [SMap.get]
      · rename_i _ hik
        rw [SMap.get, if_neg (fun he => hik he.symm)]
        exact ih h.2

/-- Every other key reads as before. -/
theorem SMap.get_set_ne [DecidableEq α] (d : α) (m : SMap α) (i j : Nat) (x : α) (h : SMap.wf d m = true) (hij : j ≠ i) :
    SMap.get d (SMap.set d m i x) j = SMap.get d m j := by
  induction m with
  | nil =>
    simp only [SMap.set]
    split
    · rfl
    · simp [SMap.get, hij.symm]
  | cons e r ih =>
    obtain ⟨k, v⟩ := e
    simp only [SMap.wf, Bool.and_eq_true, decide_eq_true_eq] at h
    simp only [SMap.set]
    split
    · split
      · rfl
      · rw [SMap.get, if_neg hij.symm]
    · split
      · rename_i _ hik
        subst hik
        split
        · rename_i hx
          rw [SMap.get, if_neg hij.symm]
        · rw [SMap.get, if_neg hij.symm, SMap.get, if_neg hij.symm]
      · rw [SMap.get, SMap.get, ih h.2]

/-! ### The canonical form -/

/-- `above` said with `Pairwise`: keys rise, and the bound lies below them. -/
theorem SMap.above_iff (b : Nat) (m : SMap α) :
    SMap.above b m = true ↔ m.Pairwise (fun a b => a.1 < b.1) ∧ ∀ e ∈ m, b < e.1 := by
  induction m generalizing b with
  | nil => simp [SMap.above]
  | cons e r ih =>
    obtain ⟨k, v⟩ := e
    simp only [SMap.above, Bool.and_eq_true, decide_eq_true_eq, ih, List.pairwise_cons, List.mem_cons, forall_eq_or_imp]
    constructor
    · rintro ⟨hb, hp, hk⟩
      exact ⟨⟨hk, hp⟩, hb, fun e he => lt_trans hb (hk e he)⟩
    · rintro ⟨⟨hk, hp⟩, hb, -⟩
      exact ⟨hb, hp, hk⟩

/-- The canonical form said with `Pairwise`: keys rise, and no entry is the default. -/
theorem SMap.wf_iff [DecidableEq α] (d : α) (m : SMap α) :
    SMap.wf d m = true ↔ m.Pairwise (fun a b => a.1 < b.1) ∧ ∀ e ∈ m, e.2 ≠ d := by
  induction m with
  | nil => simp [SMap.wf]
  | cons e r ih =>
    obtain ⟨k, v⟩ := e
    simp only [SMap.wf, Bool.and_eq_true, decide_eq_true_eq, ih, SMap.above_iff, List.pairwise_cons, List.mem_cons, forall_eq_or_imp]
    tauto

/-- Writing a key adds no key but that one. -/
theorem SMap.above_set [DecidableEq α] (d : α) (m : SMap α) (b i : Nat) (x : α) (h : SMap.above b m = true) (hi : b < i) :
    SMap.above b (SMap.set d m i x) = true := by
  induction m generalizing b with
  | nil =>
    simp only [SMap.set]
    split <;> simp [SMap.above, hi]
  | cons e r ih =>
    obtain ⟨k, v⟩ := e
    have hw := h
    simp only [SMap.above, Bool.and_eq_true, decide_eq_true_eq] at h
    simp only [SMap.set]
    split
    · split
      · exact hw
      · simp only [SMap.above, Bool.and_eq_true, decide_eq_true_eq]
        exact ⟨hi, by assumption, h.2⟩
    · split
      · rename_i _ hik
        subst hik
        split
        · have hk := (SMap.above_iff i r).mp h.2
          exact (SMap.above_iff b r).mpr ⟨hk.1, fun e he => lt_trans hi (hk.2 e he)⟩
        · simp only [SMap.above, Bool.and_eq_true, decide_eq_true_eq]
          exact h
      · simp only [SMap.above, Bool.and_eq_true, decide_eq_true_eq]
        exact ⟨h.1, ih k h.2 (by omega)⟩

/-- Writing a key keeps the canonical form. -/
theorem SMap.set_wf [DecidableEq α] (d : α) (m : SMap α) (i : Nat) (x : α) (h : SMap.wf d m = true) :
    SMap.wf d (SMap.set d m i x) = true := by
  induction m with
  | nil =>
    simp only [SMap.set]
    split
    · rfl
    · simp_all [SMap.wf, SMap.above]
  | cons e r ih =>
    obtain ⟨k, v⟩ := e
    have hw := h
    simp only [SMap.wf, Bool.and_eq_true, decide_eq_true_eq] at h
    simp only [SMap.set]
    split
    · split
      · exact hw
      · rename_i hik hx
        simp only [SMap.wf, SMap.above, Bool.and_eq_true, decide_eq_true_eq]
        exact ⟨⟨hx, hik, h.1.2⟩, h⟩
    · split
      · rename_i _ hik
        subst hik
        split
        · exact h.2
        · rename_i hx
          simp only [SMap.wf, Bool.and_eq_true, decide_eq_true_eq]
          exact ⟨⟨hx, h.1.2⟩, h.2⟩
      · rename_i h1 h2
        simp only [SMap.wf, Bool.and_eq_true, decide_eq_true_eq]
        exact ⟨⟨h.1.1, SMap.above_set d r k i x h.1.2 (by omega)⟩, ih h.2⟩

/-- A selection of entries keeps the canonical form. -/
theorem SMap.filter_wf [DecidableEq α] (d : α) (p : Nat × α → Bool) (m : SMap α) (h : SMap.wf d m = true) :
    SMap.wf d (m.filter p) = true := by
  rw [SMap.wf_iff] at *
  exact ⟨h.1.filter p, fun e he => h.2 e (List.mem_filter.mp he).1⟩

/-- `keep` keeps the canonical form. -/
theorem SMap.keep_wf [DecidableEq α] (d : α) (p : Nat → α → Bool) (m : SMap α) (h : SMap.wf d m = true) :
    SMap.wf d (m.keep p) = true := SMap.filter_wf d _ m h

/-- `mapVals` gives the canonical form. -/
theorem SMap.mapVals_wf [DecidableEq α] (d : α) (f : Nat → α → α) (m : SMap α) (h : SMap.wf d m = true) :
    SMap.wf d (SMap.mapVals d f m) = true := by
  unfold SMap.mapVals
  rw [SMap.wf_iff] at *
  refine ⟨List.Pairwise.filter _ (List.pairwise_map.mpr h.1), fun e he => ?_⟩
  simpa using (List.mem_filter.mp he).2

/-- Entries shifted by one distance keep the canonical form. -/
theorem SMap.shift_wf [DecidableEq α] (d : α) (a : Nat) (m : SMap α) (h : SMap.wf d m = true) :
    SMap.wf d (m.map fun e => (e.1 + a, e.2)) = true := by
  rw [SMap.wf_iff] at *
  refine ⟨List.pairwise_map.mpr (h.1.imp fun hab => by omega), fun e he => ?_⟩
  obtain ⟨x, hx, rfl⟩ := List.mem_map.mp he
  exact h.2 x hx

/-- Two canonical tables, the keys of the second above those of the first, join to one. -/
theorem SMap.append_wf [DecidableEq α] (d : α) (m n : SMap α) (hm : SMap.wf d m = true) (hn : SMap.wf d n = true)
    (h : ∀ x ∈ m, ∀ y ∈ n, x.1 < y.1) : SMap.wf d (m ++ n) = true := by
  rw [SMap.wf_iff] at *
  exact ⟨List.pairwise_append.mpr ⟨hm.1, hn.1, h⟩, fun e he => (List.mem_append.mp he).elim (hm.2 e) (hn.2 e)⟩

/-! ### Memories -/

/-- Writing a byte keeps the canonical form. -/
theorem Mem.setByte_wf (m : Mem) (a : Nat) (b : Byte) (h : m.wf = true) : (m.setByte a b).wf = true := SMap.set_wf _ _ _ _ h

/-- The byte just written reads as what was written. -/
theorem Mem.byte_setByte_same (m : Mem) (a : Nat) (b : Byte) (h : m.wf = true) : (m.setByte a b).byte a = b :=
  SMap.get_set_same _ _ _ _ h

/-- Every other byte reads as before. -/
theorem Mem.byte_setByte_ne (m : Mem) (a c : Nat) (b : Byte) (h : m.wf = true) (hc : c ≠ a) : (m.setByte a b).byte c = m.byte c :=
  SMap.get_set_ne _ _ _ _ _ h hc

/-- A slice of a memory has the canonical form. -/
theorem Mem.slice_wf (m : Mem) (a n : Nat) (h : m.wf = true) : (m.slice a n).wf = true := by
  unfold Mem.wf Mem.slice at *
  rw [SMap.wf_iff] at *
  refine ⟨List.pairwise_map.mpr ?_, fun e he => ?_⟩
  · refine (h.1.filter _).imp_of_mem fun {x y} hx hy hxy => ?_
    have h1 := (List.mem_filter.mp hx).2
    simp only [Bool.and_eq_true, decide_eq_true_eq] at h1
    show x.1 - a < y.1 - a
    omega
  · obtain ⟨x, hx, rfl⟩ := List.mem_map.mp he
    exact h.2 x (List.mem_filter.mp hx).1

/-- A splice of two canonical memories has the canonical form. -/
theorem Mem.splice_wf (m : Mem) (a n : Nat) (x : Mem) (hm : m.wf = true) (hx : x.wf = true) : (m.splice a n x).wf = true := by
  unfold Mem.wf Mem.splice at *
  refine SMap.append_wf _ _ _ (SMap.append_wf _ _ _ (SMap.filter_wf _ _ _ hm) (SMap.shift_wf _ _ _ (SMap.filter_wf _ _ _ hx)) ?_)
    (SMap.filter_wf _ _ _ hm) ?_
  · intro e he f hf
    obtain ⟨y, hy, rfl⟩ := List.mem_map.mp hf
    have h1 := (List.mem_filter.mp he).2
    simp only [decide_eq_true_eq] at h1
    show e.1 < y.1 + a
    omega
  · intro e he f hf
    have h2 := (List.mem_filter.mp hf).2
    simp only [decide_eq_true_eq] at h2
    rcases List.mem_append.mp he with he | he
    · have h1 := (List.mem_filter.mp he).2
      simp only [decide_eq_true_eq] at h1
      omega
    · obtain ⟨y, hy, rfl⟩ := List.mem_map.mp he
      have h1 := (List.mem_filter.mp hy).2
      simp only [decide_eq_true_eq] at h1
      show y.1 + a < f.1
      omega

/-- The entries of a memory made from bytes at `a` lie at or above `a`. -/
theorem Mem.ofListAt_ge (a : Nat) (l : List Byte) : ∀ e ∈ Mem.ofListAt a l, a ≤ e.1 := by
  induction l generalizing a with
  | nil => simp [Mem.ofListAt]
  | cons b r ih =>
    intro e he
    simp only [Mem.ofListAt] at he
    split at he
    · exact le_trans (by omega) (ih (a + 1) e he)
    · rcases List.mem_cons.mp he with rfl | he
      · exact le_refl _
      · exact le_trans (by omega) (ih (a + 1) e he)

/-- A memory made from bytes has the canonical form. -/
theorem Mem.ofListAt_wf (a : Nat) (l : List Byte) : (Mem.ofListAt a l).wf = true := by
  unfold Mem.wf
  induction l generalizing a with
  | nil => rfl
  | cons b r ih =>
    simp only [Mem.ofListAt]
    split
    · exact ih (a + 1)
    · rename_i hb
      simp only [SMap.wf, Bool.and_eq_true, decide_eq_true_eq]
      refine ⟨⟨hb, (SMap.above_iff a _).mpr ⟨((SMap.wf_iff _ _).mp (ih (a + 1))).1, fun e he => ?_⟩⟩, ih (a + 1)⟩
      have := Mem.ofListAt_ge (a + 1) r e he
      omega

/-- A memory made from bytes at 0 has the canonical form. -/
theorem Mem.ofList_wf (l : List Byte) : (Mem.ofList l).wf = true := Mem.ofListAt_wf 0 l

/-- Writing a number keeps the canonical form. -/
theorem Mem.writeNat_wf (m : Mem) (a n x : Nat) (h : m.wf = true) : (m.writeNat a n x).wf = true :=
  Mem.splice_wf _ _ _ _ h (Mem.ofList_wf _)

/-- Writing a word keeps the canonical form. -/
theorem Mem.write_wf {w : Nat} (m : Mem) (a : Nat) (x : BitVec w) (h : m.wf = true) : (m.write a x).wf = true :=
  Mem.writeNat_wf _ _ _ _ h

/-! ### Reading across a splice -/

/-- A byte of a selection of entries that keeps its address reads as before. -/
theorem SMap.get_filter_pos (d : α) (p : Nat → Bool) (m : SMap α) (i : Nat) (h : p i = true) :
    SMap.get d (m.filter fun e => p e.1) i = SMap.get d m i := by
  induction m with
  | nil => rfl
  | cons e r ih =>
    obtain ⟨k, v⟩ := e
    by_cases hp : p k = true
    · simp [SMap.get, hp, ih]
    · have hk : k ≠ i := fun hki => hp (hki ▸ h)
      simp [SMap.get, hp, hk, ih]

/-- A byte of a selection of entries that drops its address reads as the default. -/
theorem SMap.get_filter_neg (d : α) (p : Nat → Bool) (m : SMap α) (i : Nat) (h : p i = false) :
    SMap.get d (m.filter fun e => p e.1) i = d := by
  induction m with
  | nil => rfl
  | cons e r ih =>
    obtain ⟨k, v⟩ := e
    by_cases hp : p k = true
    · have hk : k ≠ i := fun hki => by rw [hki, h] at hp; cases hp
      simp [SMap.get, hp, hk, ih]
    · simp [hp, ih]

/-- A key that no entry of the first part lists reads from the second. -/
theorem SMap.get_append (d : α) (m n : SMap α) (i : Nat) (h : ∀ e ∈ m, e.1 ≠ i) : SMap.get d (m ++ n) i = SMap.get d n i := by
  induction m with
  | nil => rfl
  | cons e r ih =>
    obtain ⟨k, v⟩ := e
    simp only [List.cons_append, SMap.get]
    rw [if_neg (h (k, v) (by simp))]
    exact ih fun e he => h e (by simp [he])

/-- A key that no entry of the second part lists reads from the first. -/
theorem SMap.get_append_left (d : α) (m n : SMap α) (i : Nat) (h : ∀ e ∈ n, e.1 ≠ i) : SMap.get d (m ++ n) i = SMap.get d m i := by
  induction m with
  | nil =>
    rw [List.nil_append, SMap.get]
    induction n with
    | nil => rfl
    | cons e r ih =>
      obtain ⟨k, v⟩ := e
      rw [SMap.get, if_neg (h (k, v) (by simp))]
      exact ih fun e he => h e (by simp [he])
  | cons e r ih =>
    obtain ⟨k, v⟩ := e
    simp [SMap.get, ih]

/-- A byte outside the range of a splice reads as before. -/
theorem Mem.byte_splice_out (m : Mem) (a n : Nat) (x : Mem) (i : Nat) (h : i < a ∨ a + n ≤ i) : (m.splice a n x).byte i = m.byte i := by
  unfold Mem.byte Mem.splice
  have mid : ∀ e ∈ (x.filter fun e => decide (e.1 < n)).map fun e => (e.1 + a, e.2), e.1 ≠ i := by
    intro e he
    obtain ⟨y, hy, rfl⟩ := List.mem_map.mp he
    have := (List.mem_filter.mp hy).2
    simp only [decide_eq_true_eq] at this
    show y.1 + a ≠ i
    omega
  rcases h with h | h
  · rw [SMap.get_append_left, SMap.get_append_left _ _ _ _ mid]
    · exact SMap.get_filter_pos _ (fun k => decide (k < a)) m i (by simpa using h)
    · intro e he
      have := (List.mem_filter.mp he).2
      simp only [decide_eq_true_eq] at this
      omega
  · rw [SMap.get_append]
    · exact SMap.get_filter_pos _ (fun k => decide (a + n ≤ k)) m i (by simpa using h)
    · intro e he
      rcases List.mem_append.mp he with he | he
      · have := (List.mem_filter.mp he).2
        simp only [decide_eq_true_eq] at this
        omega
      · exact mid e he

/-- A key of a shifted table reads as the key it came from. -/
theorem SMap.get_shift (d : α) (m : SMap α) (a i : Nat) (h : a ≤ i) : SMap.get d (m.map fun e => (e.1 + a, e.2)) i = SMap.get d m (i - a) := by
  induction m with
  | nil => rfl
  | cons e r ih =>
    obtain ⟨k, v⟩ := e
    simp only [List.map_cons, SMap.get, ih]
    have hk : k + a = i ↔ k = i - a := by omega
    simp [hk]

/-- A byte inside the range of a splice reads as what was put there. -/
theorem Mem.byte_splice_in (m : Mem) (a n : Nat) (x : Mem) (i : Nat) (h : a ≤ i) (h' : i < a + n) :
    (m.splice a n x).byte i = x.byte (i - a) := by
  unfold Mem.byte Mem.splice
  rw [SMap.get_append_left, SMap.get_append]
  · rw [SMap.get_shift _ _ _ _ h]
    exact SMap.get_filter_pos _ (fun k => decide (k < n)) x (i - a) (by simp; omega)
  · intro e he
    have := (List.mem_filter.mp he).2
    simp only [decide_eq_true_eq] at this
    omega
  · intro e he
    have := (List.mem_filter.mp he).2
    simp only [decide_eq_true_eq] at this
    omega

end Sys2Proof.Machine
end

