-- ==== Sys2Proof/Laws/State.lean ====
section
/-! SUPPORT. Each named update of the state, field by field: what it changes and what it keeps. -/

namespace Sys2Proof.Machine

/-! ### `State.setCore` -/

@[simp] theorem State.setCore_pending (s : State) (k : Nat) (c : Core) : (s.setCore k c).pending = s.pending := rfl
@[simp] theorem State.setCore_fuses (s : State) (k : Nat) (c : Core) : (s.setCore k c).fuses = s.fuses := rfl
@[simp] theorem State.setCore_flash (s : State) (k : Nat) (c : Core) : (s.setCore k c).flash = s.flash := rfl
@[simp] theorem State.setCore_su (s : State) (k : Nat) (c : Core) : (s.setCore k c).su = s.su := rfl
@[simp] theorem State.setCore_hif (s : State) (k : Nat) (c : Core) : (s.setCore k c).hif = s.hif := rfl
@[simp] theorem State.setCore_tetPsel (s : State) (k : Nat) (c : Core) : (s.setCore k c).tetPsel = s.tetPsel := rfl
@[simp] theorem State.setCore_tetCsel (s : State) (k : Nat) (c : Core) : (s.setCore k c).tetCsel = s.tetCsel := rfl
@[simp] theorem State.setCore_cores (s : State) (k : Nat) (c : Core) : (s.setCore k c).cores = SMap.set Core.blank s.cores k c := rfl
@[simp] theorem State.setCore_mesh (s : State) (k : Nat) (c : Core) : (s.setCore k c).mesh = s.mesh := rfl
@[simp] theorem State.setCore_parts (s : State) (k : Nat) (c : Core) : (s.setCore k c).parts = s.parts := rfl
@[simp] theorem State.setCore_spn (s : State) (k : Nat) (c : Core) : (s.setCore k c).spn = s.spn := rfl
@[simp] theorem State.setCore_lnk (s : State) (k : Nat) (c : Core) : (s.setCore k c).lnk = s.lnk := rfl
@[simp] theorem State.setCore_gon (s : State) (k : Nat) (c : Core) : (s.setCore k c).gon = s.gon := rfl
@[simp] theorem State.setCore_sec (s : State) (k : Nat) (c : Core) : (s.setCore k c).sec = s.sec := rfl
@[simp] theorem State.setCore_pwr (s : State) (k : Nat) (c : Core) : (s.setCore k c).pwr = s.pwr := rfl
@[simp] theorem State.setCore_mgt (s : State) (k : Nat) (c : Core) : (s.setCore k c).mgt = s.mgt := rfl
@[simp] theorem State.setCore_free (s : State) (k : Nat) (c : Core) : (s.setCore k c).free = s.free := rfl
@[simp] theorem State.setCore_outbox (s : State) (k : Nat) (c : Core) : (s.setCore k c).outbox = s.outbox := rfl

/-! ### `State.setPart` -/

@[simp] theorem State.setPart_pending (s : State) (n : Nat) (p : Part) : (s.setPart n p).pending = s.pending := rfl
@[simp] theorem State.setPart_fuses (s : State) (n : Nat) (p : Part) : (s.setPart n p).fuses = s.fuses := rfl
@[simp] theorem State.setPart_flash (s : State) (n : Nat) (p : Part) : (s.setPart n p).flash = s.flash := rfl
@[simp] theorem State.setPart_su (s : State) (n : Nat) (p : Part) : (s.setPart n p).su = s.su := rfl
@[simp] theorem State.setPart_hif (s : State) (n : Nat) (p : Part) : (s.setPart n p).hif = s.hif := rfl
@[simp] theorem State.setPart_tetPsel (s : State) (n : Nat) (p : Part) : (s.setPart n p).tetPsel = s.tetPsel := rfl
@[simp] theorem State.setPart_tetCsel (s : State) (n : Nat) (p : Part) : (s.setPart n p).tetCsel = s.tetCsel := rfl
@[simp] theorem State.setPart_cores (s : State) (n : Nat) (p : Part) : (s.setPart n p).cores = s.cores := rfl
@[simp] theorem State.setPart_mesh (s : State) (n : Nat) (p : Part) : (s.setPart n p).mesh = s.mesh := rfl
@[simp] theorem State.setPart_parts (s : State) (n : Nat) (p : Part) : (s.setPart n p).parts = SMap.set Part.blank s.parts n p := rfl
@[simp] theorem State.setPart_spn (s : State) (n : Nat) (p : Part) : (s.setPart n p).spn = s.spn := rfl
@[simp] theorem State.setPart_lnk (s : State) (n : Nat) (p : Part) : (s.setPart n p).lnk = s.lnk := rfl
@[simp] theorem State.setPart_gon (s : State) (n : Nat) (p : Part) : (s.setPart n p).gon = s.gon := rfl
@[simp] theorem State.setPart_sec (s : State) (n : Nat) (p : Part) : (s.setPart n p).sec = s.sec := rfl
@[simp] theorem State.setPart_pwr (s : State) (n : Nat) (p : Part) : (s.setPart n p).pwr = s.pwr := rfl
@[simp] theorem State.setPart_mgt (s : State) (n : Nat) (p : Part) : (s.setPart n p).mgt = s.mgt := rfl
@[simp] theorem State.setPart_free (s : State) (n : Nat) (p : Part) : (s.setPart n p).free = s.free := rfl
@[simp] theorem State.setPart_outbox (s : State) (n : Nat) (p : Part) : (s.setPart n p).outbox = s.outbox := rfl

/-! ### `State.setPort` -/

@[simp] theorem State.setPort_pending (s : State) (p : Nat) (x : Port) : (s.setPort p x).pending = s.pending := rfl
@[simp] theorem State.setPort_fuses (s : State) (p : Nat) (x : Port) : (s.setPort p x).fuses = s.fuses := rfl
@[simp] theorem State.setPort_flash (s : State) (p : Nat) (x : Port) : (s.setPort p x).flash = s.flash := rfl
@[simp] theorem State.setPort_su (s : State) (p : Nat) (x : Port) : (s.setPort p x).su = s.su := rfl
@[simp] theorem State.setPort_hif (s : State) (p : Nat) (x : Port) : (s.setPort p x).hif = s.hif := rfl
@[simp] theorem State.setPort_tetPsel (s : State) (p : Nat) (x : Port) : (s.setPort p x).tetPsel = s.tetPsel := rfl
@[simp] theorem State.setPort_tetCsel (s : State) (p : Nat) (x : Port) : (s.setPort p x).tetCsel = s.tetCsel := rfl
@[simp] theorem State.setPort_cores (s : State) (p : Nat) (x : Port) : (s.setPort p x).cores = s.cores := rfl
@[simp] theorem State.setPort_mesh (s : State) (p : Nat) (x : Port) : (s.setPort p x).mesh = s.mesh := rfl
@[simp] theorem State.setPort_parts (s : State) (p : Nat) (x : Port) : (s.setPort p x).parts = s.parts := rfl
@[simp] theorem State.setPort_spn (s : State) (p : Nat) (x : Port) : (s.setPort p x).spn = s.spn := rfl
@[simp] theorem State.setPort_lnk (s : State) (p : Nat) (x : Port) : (s.setPort p x).lnk = { s.lnk with ports := SMap.set Port.blank s.lnk.ports p x } := rfl
@[simp] theorem State.setPort_gon (s : State) (p : Nat) (x : Port) : (s.setPort p x).gon = s.gon := rfl
@[simp] theorem State.setPort_sec (s : State) (p : Nat) (x : Port) : (s.setPort p x).sec = s.sec := rfl
@[simp] theorem State.setPort_pwr (s : State) (p : Nat) (x : Port) : (s.setPort p x).pwr = s.pwr := rfl
@[simp] theorem State.setPort_mgt (s : State) (p : Nat) (x : Port) : (s.setPort p x).mgt = s.mgt := rfl
@[simp] theorem State.setPort_free (s : State) (p : Nat) (x : Port) : (s.setPort p x).free = s.free := rfl
@[simp] theorem State.setPort_outbox (s : State) (p : Nat) (x : Port) : (s.setPort p x).outbox = s.outbox := rfl

/-! ### `State.setRing` -/

@[simp] theorem State.setRing_pending (s : State) (o : RingId) (r : Ring) : (s.setRing o r).pending = s.pending := rfl
@[simp] theorem State.setRing_fuses (s : State) (o : RingId) (r : Ring) : (s.setRing o r).fuses = s.fuses := rfl
@[simp] theorem State.setRing_flash (s : State) (o : RingId) (r : Ring) : (s.setRing o r).flash = s.flash := rfl
@[simp] theorem State.setRing_su (s : State) (o : RingId) (r : Ring) : (s.setRing o r).su = s.su := rfl
@[simp] theorem State.setRing_hif (s : State) (o : RingId) (r : Ring) : (s.setRing o r).hif = { s.hif with rings := SMap.set Ring.blank s.hif.rings o.key r } := rfl
@[simp] theorem State.setRing_tetPsel (s : State) (o : RingId) (r : Ring) : (s.setRing o r).tetPsel = s.tetPsel := rfl
@[simp] theorem State.setRing_tetCsel (s : State) (o : RingId) (r : Ring) : (s.setRing o r).tetCsel = s.tetCsel := rfl
@[simp] theorem State.setRing_cores (s : State) (o : RingId) (r : Ring) : (s.setRing o r).cores = s.cores := rfl
@[simp] theorem State.setRing_mesh (s : State) (o : RingId) (r : Ring) : (s.setRing o r).mesh = s.mesh := rfl
@[simp] theorem State.setRing_parts (s : State) (o : RingId) (r : Ring) : (s.setRing o r).parts = s.parts := rfl
@[simp] theorem State.setRing_spn (s : State) (o : RingId) (r : Ring) : (s.setRing o r).spn = s.spn := rfl
@[simp] theorem State.setRing_lnk (s : State) (o : RingId) (r : Ring) : (s.setRing o r).lnk = s.lnk := rfl
@[simp] theorem State.setRing_gon (s : State) (o : RingId) (r : Ring) : (s.setRing o r).gon = s.gon := rfl
@[simp] theorem State.setRing_sec (s : State) (o : RingId) (r : Ring) : (s.setRing o r).sec = s.sec := rfl
@[simp] theorem State.setRing_pwr (s : State) (o : RingId) (r : Ring) : (s.setRing o r).pwr = s.pwr := rfl
@[simp] theorem State.setRing_mgt (s : State) (o : RingId) (r : Ring) : (s.setRing o r).mgt = s.mgt := rfl
@[simp] theorem State.setRing_free (s : State) (o : RingId) (r : Ring) : (s.setRing o r).free = s.free := rfl
@[simp] theorem State.setRing_outbox (s : State) (o : RingId) (r : Ring) : (s.setRing o r).outbox = s.outbox := rfl

/-! ### `State.setFunc` -/

@[simp] theorem State.setFunc_pending (s : State) (fn : Nat) (f : Func) : (s.setFunc fn f).pending = s.pending := rfl
@[simp] theorem State.setFunc_fuses (s : State) (fn : Nat) (f : Func) : (s.setFunc fn f).fuses = s.fuses := rfl
@[simp] theorem State.setFunc_flash (s : State) (fn : Nat) (f : Func) : (s.setFunc fn f).flash = s.flash := rfl
@[simp] theorem State.setFunc_su (s : State) (fn : Nat) (f : Func) : (s.setFunc fn f).su = s.su := rfl
@[simp] theorem State.setFunc_hif (s : State) (fn : Nat) (f : Func) : (s.setFunc fn f).hif = { s.hif with funcs := SMap.set Func.blank s.hif.funcs fn f } := rfl
@[simp] theorem State.setFunc_tetPsel (s : State) (fn : Nat) (f : Func) : (s.setFunc fn f).tetPsel = s.tetPsel := rfl
@[simp] theorem State.setFunc_tetCsel (s : State) (fn : Nat) (f : Func) : (s.setFunc fn f).tetCsel = s.tetCsel := rfl
@[simp] theorem State.setFunc_cores (s : State) (fn : Nat) (f : Func) : (s.setFunc fn f).cores = s.cores := rfl
@[simp] theorem State.setFunc_mesh (s : State) (fn : Nat) (f : Func) : (s.setFunc fn f).mesh = s.mesh := rfl
@[simp] theorem State.setFunc_parts (s : State) (fn : Nat) (f : Func) : (s.setFunc fn f).parts = s.parts := rfl
@[simp] theorem State.setFunc_spn (s : State) (fn : Nat) (f : Func) : (s.setFunc fn f).spn = s.spn := rfl
@[simp] theorem State.setFunc_lnk (s : State) (fn : Nat) (f : Func) : (s.setFunc fn f).lnk = s.lnk := rfl
@[simp] theorem State.setFunc_gon (s : State) (fn : Nat) (f : Func) : (s.setFunc fn f).gon = s.gon := rfl
@[simp] theorem State.setFunc_sec (s : State) (fn : Nat) (f : Func) : (s.setFunc fn f).sec = s.sec := rfl
@[simp] theorem State.setFunc_pwr (s : State) (fn : Nat) (f : Func) : (s.setFunc fn f).pwr = s.pwr := rfl
@[simp] theorem State.setFunc_mgt (s : State) (fn : Nat) (f : Func) : (s.setFunc fn f).mgt = s.mgt := rfl
@[simp] theorem State.setFunc_free (s : State) (fn : Nat) (f : Func) : (s.setFunc fn f).free = s.free := rfl
@[simp] theorem State.setFunc_outbox (s : State) (fn : Nat) (f : Func) : (s.setFunc fn f).outbox = s.outbox := rfl

/-! ### `State.setGondola` -/

@[simp] theorem State.setGondola_pending (s : State) (g : Nat) (d : Gondola) : (s.setGondola g d).pending = s.pending := rfl
@[simp] theorem State.setGondola_fuses (s : State) (g : Nat) (d : Gondola) : (s.setGondola g d).fuses = s.fuses := rfl
@[simp] theorem State.setGondola_flash (s : State) (g : Nat) (d : Gondola) : (s.setGondola g d).flash = s.flash := rfl
@[simp] theorem State.setGondola_su (s : State) (g : Nat) (d : Gondola) : (s.setGondola g d).su = s.su := rfl
@[simp] theorem State.setGondola_hif (s : State) (g : Nat) (d : Gondola) : (s.setGondola g d).hif = s.hif := rfl
@[simp] theorem State.setGondola_tetPsel (s : State) (g : Nat) (d : Gondola) : (s.setGondola g d).tetPsel = s.tetPsel := rfl
@[simp] theorem State.setGondola_tetCsel (s : State) (g : Nat) (d : Gondola) : (s.setGondola g d).tetCsel = s.tetCsel := rfl
@[simp] theorem State.setGondola_cores (s : State) (g : Nat) (d : Gondola) : (s.setGondola g d).cores = s.cores := rfl
@[simp] theorem State.setGondola_mesh (s : State) (g : Nat) (d : Gondola) : (s.setGondola g d).mesh = s.mesh := rfl
@[simp] theorem State.setGondola_parts (s : State) (g : Nat) (d : Gondola) : (s.setGondola g d).parts = s.parts := rfl
@[simp] theorem State.setGondola_spn (s : State) (g : Nat) (d : Gondola) : (s.setGondola g d).spn = s.spn := rfl
@[simp] theorem State.setGondola_lnk (s : State) (g : Nat) (d : Gondola) : (s.setGondola g d).lnk = s.lnk := rfl
@[simp] theorem State.setGondola_gon (s : State) (g : Nat) (d : Gondola) : (s.setGondola g d).gon = { s.gon with table := SMap.set Gondola.blank s.gon.table g d } := rfl
@[simp] theorem State.setGondola_sec (s : State) (g : Nat) (d : Gondola) : (s.setGondola g d).sec = s.sec := rfl
@[simp] theorem State.setGondola_pwr (s : State) (g : Nat) (d : Gondola) : (s.setGondola g d).pwr = s.pwr := rfl
@[simp] theorem State.setGondola_mgt (s : State) (g : Nat) (d : Gondola) : (s.setGondola g d).mgt = s.mgt := rfl
@[simp] theorem State.setGondola_free (s : State) (g : Nat) (d : Gondola) : (s.setGondola g d).free = s.free := rfl
@[simp] theorem State.setGondola_outbox (s : State) (g : Nat) (d : Gondola) : (s.setGondola g d).outbox = s.outbox := rfl

/-! ### `State.setReel` -/

@[simp] theorem State.setReel_pending (s : State) (i : Nat) (r : Reel) : (s.setReel i r).pending = s.pending := rfl
@[simp] theorem State.setReel_fuses (s : State) (i : Nat) (r : Reel) : (s.setReel i r).fuses = s.fuses := rfl
@[simp] theorem State.setReel_flash (s : State) (i : Nat) (r : Reel) : (s.setReel i r).flash = s.flash := rfl
@[simp] theorem State.setReel_su (s : State) (i : Nat) (r : Reel) : (s.setReel i r).su = s.su := rfl
@[simp] theorem State.setReel_hif (s : State) (i : Nat) (r : Reel) : (s.setReel i r).hif = s.hif := rfl
@[simp] theorem State.setReel_tetPsel (s : State) (i : Nat) (r : Reel) : (s.setReel i r).tetPsel = s.tetPsel := rfl
@[simp] theorem State.setReel_tetCsel (s : State) (i : Nat) (r : Reel) : (s.setReel i r).tetCsel = s.tetCsel := rfl
@[simp] theorem State.setReel_cores (s : State) (i : Nat) (r : Reel) : (s.setReel i r).cores = s.cores := rfl
@[simp] theorem State.setReel_mesh (s : State) (i : Nat) (r : Reel) : (s.setReel i r).mesh = s.mesh := rfl
@[simp] theorem State.setReel_parts (s : State) (i : Nat) (r : Reel) : (s.setReel i r).parts = s.parts := rfl
@[simp] theorem State.setReel_spn (s : State) (i : Nat) (r : Reel) : (s.setReel i r).spn = s.spn := rfl
@[simp] theorem State.setReel_lnk (s : State) (i : Nat) (r : Reel) : (s.setReel i r).lnk = s.lnk := rfl
@[simp] theorem State.setReel_gon (s : State) (i : Nat) (r : Reel) : (s.setReel i r).gon = { s.gon with reels := SMap.set Reel.blank s.gon.reels i r } := rfl
@[simp] theorem State.setReel_sec (s : State) (i : Nat) (r : Reel) : (s.setReel i r).sec = s.sec := rfl
@[simp] theorem State.setReel_pwr (s : State) (i : Nat) (r : Reel) : (s.setReel i r).pwr = s.pwr := rfl
@[simp] theorem State.setReel_mgt (s : State) (i : Nat) (r : Reel) : (s.setReel i r).mgt = s.mgt := rfl
@[simp] theorem State.setReel_free (s : State) (i : Nat) (r : Reel) : (s.setReel i r).free = s.free := rfl
@[simp] theorem State.setReel_outbox (s : State) (i : Nat) (r : Reel) : (s.setReel i r).outbox = s.outbox := rfl

/-! ### `State.setBucket` -/

@[simp] theorem State.setBucket_pending (s : State) (i : Nat) (l : List BktDef) : (s.setBucket i l).pending = s.pending := rfl
@[simp] theorem State.setBucket_fuses (s : State) (i : Nat) (l : List BktDef) : (s.setBucket i l).fuses = s.fuses := rfl
@[simp] theorem State.setBucket_flash (s : State) (i : Nat) (l : List BktDef) : (s.setBucket i l).flash = s.flash := rfl
@[simp] theorem State.setBucket_su (s : State) (i : Nat) (l : List BktDef) : (s.setBucket i l).su = s.su := rfl
@[simp] theorem State.setBucket_hif (s : State) (i : Nat) (l : List BktDef) : (s.setBucket i l).hif = s.hif := rfl
@[simp] theorem State.setBucket_tetPsel (s : State) (i : Nat) (l : List BktDef) : (s.setBucket i l).tetPsel = s.tetPsel := rfl
@[simp] theorem State.setBucket_tetCsel (s : State) (i : Nat) (l : List BktDef) : (s.setBucket i l).tetCsel = s.tetCsel := rfl
@[simp] theorem State.setBucket_cores (s : State) (i : Nat) (l : List BktDef) : (s.setBucket i l).cores = s.cores := rfl
@[simp] theorem State.setBucket_mesh (s : State) (i : Nat) (l : List BktDef) : (s.setBucket i l).mesh = s.mesh := rfl
@[simp] theorem State.setBucket_parts (s : State) (i : Nat) (l : List BktDef) : (s.setBucket i l).parts = s.parts := rfl
@[simp] theorem State.setBucket_spn (s : State) (i : Nat) (l : List BktDef) : (s.setBucket i l).spn = s.spn := rfl
@[simp] theorem State.setBucket_lnk (s : State) (i : Nat) (l : List BktDef) : (s.setBucket i l).lnk = { s.lnk with buckets := SMap.set [] s.lnk.buckets i l } := rfl
@[simp] theorem State.setBucket_gon (s : State) (i : Nat) (l : List BktDef) : (s.setBucket i l).gon = s.gon := rfl
@[simp] theorem State.setBucket_sec (s : State) (i : Nat) (l : List BktDef) : (s.setBucket i l).sec = s.sec := rfl
@[simp] theorem State.setBucket_pwr (s : State) (i : Nat) (l : List BktDef) : (s.setBucket i l).pwr = s.pwr := rfl
@[simp] theorem State.setBucket_mgt (s : State) (i : Nat) (l : List BktDef) : (s.setBucket i l).mgt = s.mgt := rfl
@[simp] theorem State.setBucket_free (s : State) (i : Nat) (l : List BktDef) : (s.setBucket i l).free = s.free := rfl
@[simp] theorem State.setBucket_outbox (s : State) (i : Nat) (l : List BktDef) : (s.setBucket i l).outbox = s.outbox := rfl

/-! ### `State.tick` -/

@[simp] theorem State.tick_pending (s : State)  : (s.tick ).pending = s.pending := rfl
@[simp] theorem State.tick_fuses (s : State)  : (s.tick ).fuses = s.fuses := rfl
@[simp] theorem State.tick_flash (s : State)  : (s.tick ).flash = s.flash := rfl
@[simp] theorem State.tick_su (s : State)  : (s.tick ).su = s.su := rfl
@[simp] theorem State.tick_hif (s : State)  : (s.tick ).hif = s.hif := rfl
@[simp] theorem State.tick_tetPsel (s : State)  : (s.tick ).tetPsel = s.tetPsel := rfl
@[simp] theorem State.tick_tetCsel (s : State)  : (s.tick ).tetCsel = s.tetCsel := rfl
@[simp] theorem State.tick_cores (s : State)  : (s.tick ).cores = s.cores := rfl
@[simp] theorem State.tick_mesh (s : State)  : (s.tick ).mesh = s.mesh := rfl
@[simp] theorem State.tick_parts (s : State)  : (s.tick ).parts = s.parts := rfl
@[simp] theorem State.tick_spn (s : State)  : (s.tick ).spn = s.spn := rfl
@[simp] theorem State.tick_lnk (s : State)  : (s.tick ).lnk = s.lnk := rfl
@[simp] theorem State.tick_gon (s : State)  : (s.tick ).gon = s.gon := rfl
@[simp] theorem State.tick_sec (s : State)  : (s.tick ).sec = s.sec := rfl
@[simp] theorem State.tick_pwr (s : State)  : (s.tick ).pwr = s.pwr := rfl
@[simp] theorem State.tick_mgt (s : State)  : (s.tick ).mgt = s.mgt := rfl
@[simp] theorem State.tick_free (s : State)  : (s.tick ).free = s.free + 1 := rfl
@[simp] theorem State.tick_outbox (s : State)  : (s.tick ).outbox = s.outbox := rfl

/-! ### `State.emit` -/

@[simp] theorem State.emit_pending (s : State) (o : Out) : (s.emit o).pending = s.pending := rfl
@[simp] theorem State.emit_fuses (s : State) (o : Out) : (s.emit o).fuses = s.fuses := rfl
@[simp] theorem State.emit_flash (s : State) (o : Out) : (s.emit o).flash = s.flash := rfl
@[simp] theorem State.emit_su (s : State) (o : Out) : (s.emit o).su = s.su := rfl
@[simp] theorem State.emit_hif (s : State) (o : Out) : (s.emit o).hif = s.hif := rfl
@[simp] theorem State.emit_tetPsel (s : State) (o : Out) : (s.emit o).tetPsel = s.tetPsel := rfl
@[simp] theorem State.emit_tetCsel (s : State) (o : Out) : (s.emit o).tetCsel = s.tetCsel := rfl
@[simp] theorem State.emit_cores (s : State) (o : Out) : (s.emit o).cores = s.cores := rfl
@[simp] theorem State.emit_mesh (s : State) (o : Out) : (s.emit o).mesh = s.mesh := rfl
@[simp] theorem State.emit_parts (s : State) (o : Out) : (s.emit o).parts = s.parts := rfl
@[simp] theorem State.emit_spn (s : State) (o : Out) : (s.emit o).spn = s.spn := rfl
@[simp] theorem State.emit_lnk (s : State) (o : Out) : (s.emit o).lnk = s.lnk := rfl
@[simp] theorem State.emit_gon (s : State) (o : Out) : (s.emit o).gon = s.gon := rfl
@[simp] theorem State.emit_sec (s : State) (o : Out) : (s.emit o).sec = s.sec := rfl
@[simp] theorem State.emit_pwr (s : State) (o : Out) : (s.emit o).pwr = s.pwr := rfl
@[simp] theorem State.emit_mgt (s : State) (o : Out) : (s.emit o).mgt = s.mgt := rfl
@[simp] theorem State.emit_free (s : State) (o : Out) : (s.emit o).free = s.free := rfl
@[simp] theorem State.emit_outbox (s : State) (o : Out) : (s.emit o).outbox = o :: s.outbox := rfl

/-! ### Reading a unit after replacing it -/

@[simp] theorem State.core_setCore (s : State) (k : Nat) (c : Core) (h : SMap.wf Core.blank s.cores = true) : (s.setCore k c).core k = c :=
  SMap.get_set_same _ _ _ _ h
theorem State.core_setCore_ne (s : State) (k j : Nat) (c : Core) (h : SMap.wf Core.blank s.cores = true) (hj : j ≠ k) :
    (s.setCore k c).core j = s.core j := SMap.get_set_ne _ _ _ _ _ h hj
@[simp] theorem State.part_setPart (s : State) (n : Nat) (p : Part) (h : SMap.wf Part.blank s.parts = true) : (s.setPart n p).part n = p :=
  SMap.get_set_same _ _ _ _ h
theorem State.part_setPart_ne (s : State) (n j : Nat) (p : Part) (h : SMap.wf Part.blank s.parts = true) (hj : j ≠ n) :
    (s.setPart n p).part j = s.part j := SMap.get_set_ne _ _ _ _ _ h hj
@[simp] theorem State.port_setPort (s : State) (p : Nat) (x : Port) (h : SMap.wf Port.blank s.lnk.ports = true) : (s.setPort p x).port p = x :=
  SMap.get_set_same _ _ _ _ h
theorem State.port_setPort_ne (s : State) (p j : Nat) (x : Port) (h : SMap.wf Port.blank s.lnk.ports = true) (hj : j ≠ p) :
    (s.setPort p x).port j = s.port j := SMap.get_set_ne _ _ _ _ _ h hj
@[simp] theorem State.ring_setRing (s : State) (o : RingId) (r : Ring) (h : SMap.wf Ring.blank s.hif.rings = true) : (s.setRing o r).ring o = r :=
  SMap.get_set_same _ _ _ _ h
theorem State.ring_setRing_ne (s : State) (o q : RingId) (r : Ring) (h : SMap.wf Ring.blank s.hif.rings = true) (hq : q.key ≠ o.key) :
    (s.setRing o r).ring q = s.ring q := SMap.get_set_ne _ _ _ _ _ h hq
@[simp] theorem State.func_setFunc (s : State) (fn : Nat) (f : Func) (h : SMap.wf Func.blank s.hif.funcs = true) : (s.setFunc fn f).func fn = f :=
  SMap.get_set_same _ _ _ _ h
theorem State.func_setFunc_ne (s : State) (fn j : Nat) (f : Func) (h : SMap.wf Func.blank s.hif.funcs = true) (hj : j ≠ fn) :
    (s.setFunc fn f).func j = s.func j := SMap.get_set_ne _ _ _ _ _ h hj
@[simp] theorem State.gondola_setGondola (s : State) (g : Nat) (d : Gondola) (h : SMap.wf Gondola.blank s.gon.table = true) :
    (s.setGondola g d).gondola g = d := SMap.get_set_same _ _ _ _ h
@[simp] theorem State.reel_setReel (s : State) (i : Nat) (r : Reel) (h : SMap.wf Reel.blank s.gon.reels = true) : (s.setReel i r).reel i = r :=
  SMap.get_set_same _ _ _ _ h
@[simp] theorem State.bucket_setBucket (s : State) (i : Nat) (l : List BktDef) (h : SMap.wf [] s.lnk.buckets = true) :
    (s.setBucket i l).bucket i = l := SMap.get_set_same _ _ _ _ h

/-- The ring table, the cores and the partitions keep their canonical form when one is replaced. -/
theorem State.setCore_wf (s : State) (k : Nat) (c : Core) (h : SMap.wf Core.blank s.cores = true) : SMap.wf Core.blank (s.setCore k c).cores = true :=
  SMap.set_wf _ _ _ _ h
theorem State.setPart_wf (s : State) (n : Nat) (p : Part) (h : SMap.wf Part.blank s.parts = true) : SMap.wf Part.blank (s.setPart n p).parts = true :=
  SMap.set_wf _ _ _ _ h
theorem State.setPort_wf (s : State) (p : Nat) (x : Port) (h : SMap.wf Port.blank s.lnk.ports = true) :
    SMap.wf Port.blank (s.setPort p x).lnk.ports = true := SMap.set_wf _ _ _ _ h
theorem State.setRing_wf (s : State) (o : RingId) (r : Ring) (h : SMap.wf Ring.blank s.hif.rings = true) :
    SMap.wf Ring.blank (s.setRing o r).hif.rings = true := SMap.set_wf _ _ _ _ h
theorem State.setFunc_wf (s : State) (fn : Nat) (f : Func) (h : SMap.wf Func.blank s.hif.funcs = true) :
    SMap.wf Func.blank (s.setFunc fn f).hif.funcs = true := SMap.set_wf _ _ _ _ h

end Sys2Proof.Machine
end

