-- ==== Sys2Proof/Tests/Slice0.lean ====
section
/-! SUPPORT. The model's own tests: the well-formedness smoke, one small step per command with what the manual expects of it, and for every statement
with hypotheses a state and operands that meet them. -/

set_option Elab.async false

namespace Sys2Proof.Tests

open Sys2Proof.Machine

/-! ### Small states -/

/-- A next state with a property. -/
def ok (r : Res) (p : State → Bool) : Bool :=
  match r with
  | .next t => p t
  | _ => false

/-- The same state again, and the model's one stop. -/
def same (r : Res) (s : State) : Bool := ok r fun t => decide (t = s)
def stops (r : Res) : Bool :=
  match r with
  | .fault .noSuchUnit => true
  | _ => false

/-- Ring 0 of the PF. -/
def pf : RingId := { fn := 0, ring := 0 }

/-- A woken module with its main rails up, in a stage. -/
def powered (stage : Byte) : State :=
  { su := { standby := true, awake := true, switchClosed := true, converters := true, rails := true, hxRail := true, mated := true, stage := stage } }

/-- A module in stage 0x0b with the host link up and ring 0 of the PF enabled. -/
def up : State :=
  { powered 0x0b with
    hif := { linkUp := true, vfsEnabled := true, funcs := [(0, { busMaster := true, msixEnable := true, masked := 0 })]
             rings := [(0, { enable := true, epoch := 1 })] }
    spn := { ready := true }, gon := { ready := true }, sec := { ready := true, drbgOk := true } }

/-- A command's 64 bytes: its opcode and its other fields as (offset, value). -/
def cmd (op : Nat) (fs : List (Nat × Nat)) : BitVec 512 := BitVec.ofNat 512 (op + (fs.map fun f => f.2 * 256 ^ f.1).sum)

/-- `s` with a command fetched on ring 0 of the PF. -/
def given (s : State) (c : BitVec 512) : State := s.setRing pf { s.ring pf with fetched := [(1, c)] }

/-- The statuses completed on ring 0 of the PF. -/
def statuses (t : State) : List Nat := (t.ring pf).entries.map (·.status.toNat)

/-- `up` with partition 0 Running on kite 0, a quarter of each share. -/
def part0 : Part := { st := .running, kites := 1, hbm := 16, ballast := 16, link := 16, policy := 0 }
def base : State := { up with parts := [(0, part0)] }

/-- `s` with core 0 as given. -/
def core0 (s : State) (c : Core) : State := s.setCore 0 c

/-! ### Well-formed commands -/

theorem smoke_core : Instr.wf (.nop 256) = false := by decide
theorem smoke_part : Instr.wf (.freezeComplete 32) = false := by decide
theorem smoke_port : Instr.wf (.retryTimeout 18) = false := by decide
theorem smoke_function : Instr.wf (.functionLevelReset 33) = false := by decide
theorem smoke_ring_pf : Instr.wf (.map { fn := 0, ring := 16 }) = false := by decide
theorem smoke_ring_vf : Instr.wf (.map { fn := 1, ring := 4 }) = false := by decide
theorem smoke_vector_pf : Instr.wf (.msixUnmask 0 17) = false := by decide
theorem smoke_vector_vf : Instr.wf (.msixUnmask 32 4) = false := by decide
theorem smoke_config_vector : Instr.wf (.configRequest 1 (.msixMask 4)) = false := by decide
theorem smoke_stack : Instr.wf (.stackThrottle 12) = false := by decide
theorem smoke_memory_stack : Instr.wf (.memoryStageComplete (some 12) false) = false := by decide
theorem smoke_gondola : Instr.wf (.moorComplete 16384) = false := by decide
theorem smoke_bucket : Instr.wf (.bucketDefRetire 4096) = false := by decide
theorem smoke_sequence : Instr.wf (.sequenceScrubComplete 1536) = false := by decide
theorem smoke_source : Instr.wf (.messageArrive 289 0 0) = false := by decide
theorem smoke_channel : Instr.wf (.messageArrive 0 0 16) = false := by decide
theorem smoke_array : Instr.wf (.bridleStart 0 2) = false := by decide
theorem smoke_engine : Instr.wf (.engineGate 0 3) = false := by decide
theorem smoke_units : Instr.wf (.startupSelfTestComplete [.array 0 2]) = false ∧ Instr.wf (.startupSelfTestComplete [.link 18]) = false
    ∧ Instr.wf (.selftestComplete 0 0 [.tether 32]) = false ∧ Instr.wf (.selftestComplete 0 0 [.vector 256]) = false := by decide
theorem smoke_well_formed : Instr.wf (.map { fn := 32, ring := 3 }) = true ∧ Instr.wf (.nop 255) = true
    ∧ Instr.wf (.msixUnmask 0 16) = true := by decide

/-- A missing unit is the model's one stop. -/
theorem test_missing_unit : stops (exec (.nop 256) up) = true := by decide +kernel

/-- No row gives bits: every word spells no command. -/
theorem test_decode : decodeTableWord 512 0x30 = none ∧ up.withFetchWord 512 0x30 = up := by decide +kernel

/-- An empty queue idles, and a step takes the front. -/
theorem test_step_idle : same (step up) up = true := by decide +kernel
theorem test_step_front : step { up with pending := [.hostLinkDown, .wake] } = exec .hostLinkDown { up with pending := [.wake] } := rfl

/-- Core 0 after a command. -/
def after (r : Res) (p : Core → Bool) : Bool := ok r fun t => p (t.core 0)

/-! ### Input, power and start-up -/

/-- A woken module whose main switch is open. -/
def open1 : State := { su := { standby := true, awake := true } }

theorem witness_PowerComesUp :
    State.reset.su.standby = false ∧ 4000 ≤ (4000 : W16).toNat
    ∧ ({ su := { standby := true } } : State).su.awake = false
    ∧ (open1.su.stage = 0x01 ∧ open1.su.modResetN = true ∧ open1.su.thermalTrip = false ∧ open1.su.currentTrip = false
      ∧ open1.su.switchClosed = false ∧ open1.su.packed = false ∧ 5300 ≤ (5300 : W16).toNat ∧ (6500 : W16).toNat ≤ 6500)
    ∧ (6501 : W16).toNat > 6500 ∧ (5299 : W16).toNat < 5300 ∧ ({ open1 with su := { open1.su with modResetN := false } } : State).su.modResetN = false := by
  decide +kernel
theorem test_standbyOn : ok (exec (.standbyOn 4000) .reset) (fun t => t.su.standby) = true := by decide +kernel
theorem test_standbyOn_below : same (exec (.standbyOn 3999) .reset) .reset = true := by decide +kernel
theorem test_managementWake : ok (exec (.managementWake 5 3) { su := { standby := true } })
    (fun t => t.su.awake && t.su.stage == 1 && t.su.site == 5 && t.su.board == 3 && t.mgt.wakes == 1) = true := by decide +kernel
theorem test_mainSwitchClose : ok (exec (.mainSwitchClose 6500 true) open1) (fun t => t.su.switchClosed && t.su.stage == 2) = true := by
  decide +kernel
theorem test_mainSwitchClose_unmated : ok (exec (.mainSwitchClose 6000 false) open1) (fun t => !t.su.switchClosed && t.su.stage == 1) = true := by
  decide +kernel
/-- Stage 0x02 with the switch closed and the converters not yet started. -/
def stage2 : State := { su := { open1.su with switchClosed := true, stage := 2 } }
theorem test_mainConvertersStart : ok (exec (.mainConvertersStart 6000 5900) stage2) (fun t => t.su.converters) = true := by decide +kernel
theorem test_mainConvertersStart_far : same (exec (.mainConvertersStart 6000 5899) stage2) stage2 = true := by decide +kernel
theorem test_railsSettled : ok (exec .railsSettled { su := { stage2.su with converters := true } })
    (fun t => t.su.rails && t.su.stage == 3 && t.su.flashBusy) = true := by decide +kernel
theorem test_railsSettled_held : ok (exec .railsSettled { su := { stage2.su with converters := true, flashHoldN := false } })
    (fun t => t.su.rails && t.su.stage == 4 && !t.su.flashBusy) = true := by decide +kernel
theorem test_railSettleTimeout : ok (exec .railSettleTimeout { su := { stage2.su with converters := true } })
    (fun t => t.su.stage == 0x0e && t.su.status == 0x0701) = true := by
  unfold exec execRailSettleTimeout
  generalize Config.hostRail _ = up
  cases up <;> decide +kernel

theorem witness_PowerGoesDown :
    up.su.standby = true ∧ (3799 : W16).toNat < 3800 ∧ up.su.awake = true ∧ up.su.pwrfailN = true ∧ up.su.switchClosed = true
    ∧ up.su.stage ≠ 0x0e ∧ up.su.stage ≠ 0x0f ∧ (5099 : W16).toNat < 5100 ∧ 6600 < (6601 : W16).toNat ∧ 5100 ≤ (5100 : W16).toNat
    ∧ (5399 : W16).toNat < 5400 ∧ up.su.mated = true := by decide +kernel
theorem test_standbyOff : ok (exec (.standbyOff 3799) base) (fun t => !t.su.standby && !t.su.awake && t.parts == [] && t.su.stage == 1) = true := by
  decide +kernel
theorem test_mainCutOff : ok (exec (.mainCutOff 5099) base)
    (fun t => t.su.stage == 1 && t.su.status == 0x0806 && !t.su.switchClosed && t.parts == [] && !t.su.pwrfailN) = true := by decide +kernel
theorem test_overvoltageCutOff : ok (exec (.overvoltageCutOff 6601) base)
    (fun t => t.su.stage == 1 && t.su.status == 0x0807 && !t.su.switchClosed) = true := by decide +kernel
theorem test_inputRangeLow : ∃ st, exec (.inputRangeLow 5399) base =
    .next (({ base with su := { base.su with volts := 5399 } } : State).log { status := st } (classOf st)) := ⟨_, rfl⟩
theorem test_mateOkBreak : ok (exec .mateOkBreak base) (fun t => !t.su.switchClosed && !t.su.mated && t.su.stage == 1) = true := by decide +kernel

theorem witness_TripsHaltAndLatch : base.su.switchClosed = true ∧ 255 < 256 ∧ 115 ≤ (115 : Byte).toNat := by decide +kernel
theorem test_thermalTrip : ok (exec (.thermalTrip 255 115) base)
    (fun t => t.su.stage == 0x0e && t.su.status == 0x0702 && t.su.thermalTrip && !t.su.switchClosed && !t.su.thermN) = true := by decide +kernel
theorem test_thermalTrip_below : same (exec (.thermalTrip 0 114) base) base = true := by decide +kernel
theorem test_overcurrentTripSlow : ok (exec .overcurrentTripSlow base) (fun t => t.su.stage == 0x0e && t.su.currentTrip) = true := by decide +kernel
theorem test_overcurrentTripFast : ok (exec .overcurrentTripFast base) (fun t => t.su.status == 0x0702 && t.su.currentTrip) = true := by
  decide +kernel

/-- A module held in reset with a latched trip, and one whose flash the carrier holds. -/
def inReset : State := { su := { open1.su with modResetN := false, stage := 0x0f, thermalTrip := true } }
def flashHeld : State := { su := { (powered 4).su with flashHoldN := false } }
theorem witness_PinsAct :
    up.su.modResetN = true ∧ up.su.awake = true ∧ inReset.su.modResetN = false ∧ inReset.su.awake = true ∧ (powered 3).su.flashBusy = false
    ∧ (powered 3).su.stage = 0x03 ∧ up.su.stage ≠ 0x03 ∧ flashHeld.su.stage = 0x04 := by decide +kernel
theorem test_modResetFall : ok (exec .modResetFall base) (fun t => t.su.stage == 0x0f && !t.su.switchClosed && t.parts == []) = true := by
  decide +kernel
theorem test_modResetRise : ok (exec (.modResetRise 1000) inReset) (fun t => t.su.stage == 1 && !t.su.thermalTrip) = true := by decide +kernel
theorem test_modResetRise_short : ok (exec (.modResetRise 999) inReset) (fun t => t.su.stage == 1 && t.su.thermalTrip) = true := by decide +kernel
theorem test_perstAssert : exec .perstAssert base = .next (({ base with
    su := { base.su with perstN := false }
    hif := { base.hif with funcs := [] } } : State).hostLinkDown) := by
  have e : SMap.mapVals Func.blank (fun _ f => f.pcieReset) base.hif.funcs = [] := by decide +kernel
  simp only [exec, execPerstAssert, e]
theorem test_perstRelease : ok (exec .perstRelease { su := { perstN := false } }) (fun t => t.su.perstN) = true := by decide +kernel
theorem test_flashHoldAssert : ok (exec .flashHoldAssert (powered 3)) (fun t => t.su.stage == 4 && !t.su.flashHoldN) = true := by decide +kernel
theorem test_flashHoldRelease : ok (exec .flashHoldRelease flashHeld) (fun t => t.su.stage == 3 && t.su.flashBusy) = true := by decide +kernel

/-- Reading the flash with one candidate left, and with none. -/
def reading (tries : List Bool) : State := { su := { (powered 3).su with flashBusy := true, tries := tries } }
theorem witness_ImageAndFuseStages :
    (reading [true]).su.flashBusy = true ∧ (reading [true]).su.rails = true ∧ (reading [true]).su.stage = 0x03 ∧ (reading []).su.tries = []
    ∧ (reading [true]).su.tries = [true] ∧ (reading [true, false]).su.tries = true :: false :: [] ∧ (powered 6).su.stage = 0x06
    ∧ ({ powered 6 with fuses := { grade := 0 } } : State).fuses.consistent = false ∧ (powered 6).fuses.consistent = true := by decide +kernel
theorem test_flashReadComplete : ok (exec (.flashReadComplete true) (reading [])) (fun t => t.su.stage == 0x0e && t.su.status == 0x0802) = true := by
  decide +kernel
theorem test_flashReadComplete_next : ok (exec (.flashReadComplete false) (reading [true, false]))
    (fun t => t.su.stage == 3 && t.su.tries == [false] && t.mgt.logNext == 1) = true := by decide +kernel
theorem test_fuseMapRead : ok (exec (.fuseMapRead true) (powered 6)) (fun t => t.su.stage == 7 && t.sec.ready) = true := by decide +kernel
theorem test_fuseMapRead_inconsistent : ok (exec (.fuseMapRead true) { powered 6 with fuses := { grade := 0 } })
    (fun t => t.su.stage == 0x0e && t.su.status == 0x0605) = true := by decide +kernel

theorem witness_StartupSelfTest :
    (powered 7).su.stage = 0x07 ∧ (powered 7).su.owner = false ∧ popCount (powered 7).arraysOff ≤ (gradeSpare (powered 7).fuses.grade).getD 0
    ∧ SMap.wf Port.blank (powered 7).lnk.ports = true
    ∧ bothOff (setBit (0 : BitVec 512) 511) 255 = false ∧ bothOff (setBit (setBit (0 : BitVec 512) 511) 510) 255 = true := by decide +kernel
theorem test_startupSelfTestComplete : ok (exec (.startupSelfTestComplete [.array 255 1]) (powered 7))
    (fun t => t.su.stage == 8 && t.su.degraded && bit t.su.testedOff 511 && t.su.withheld == 0 && t.su.belowGrade) = true := by decide +kernel
theorem test_startupSelfTestComplete_halts : ok (exec (.startupSelfTestComplete [.tether 31]) (powered 7))
    (fun t => t.su.stage == 0x0e && t.su.status == 0x0701) = true := by decide +kernel

theorem witness_MemoryAndLinkStages :
    (powered 8).su.stage = 0x08 ∧ (powered 8).su.retriedStacks.contains 11 = false ∧ (powered 8).su.retriedBallast = false
    ∧ ({ (powered 8).su with retriedStacks := [11] } : Startup).retriedStacks.contains 11 = true
    ∧ ({ (powered 8).su with retriedBallast := true } : Startup).retriedBallast = true ∧ (powered 9).su.stage = 0x09
    ∧ (∀ p < 18, (((List.range 18).foldl (fun t p => t.modPort p fun x => { x with st := .held }) (powered 9)).port p).settled = true)
    ∧ tableValid ({ powered 9 with su := { (powered 9).su with withheld := 0xffffffff } } : State).defaultTable = false := by decide +kernel
theorem test_memoryStageComplete : ok (exec (.memoryStageComplete none false) (powered 8))
    (fun t => t.su.stage == 9 && t.su.linksDriven && t.spn.ready) = true := by decide +kernel
theorem test_memoryStageComplete_again : ok (exec (.memoryStageComplete (some 11) false) { powered 8 with su := { (powered 8).su with retriedStacks := [11] } })
    (fun t => t.su.stage == 0x0e && t.su.status == 0x0301) = true := by decide +kernel
theorem test_linkStageEnd_waits : same (exec .linkStageEnd (powered 9)) (powered 9) = true := by decide +kernel
theorem test_linkStageTimeout : ok (exec .linkStageTimeout (powered 9))
    (fun t => t.su.stage == 0x0b && t.gon.ready && t.hif.vfsEnabled && t.hasPart 0 && (t.part 0).hbm == 64) = true := by decide +kernel

/-! ### The host link, the functions, the rings and the registers -/

theorem witness_HostLinkAndFunctions :
    up.hif.linkUp = true ∧ up.su.perstN = true ∧ up.hif.vfsEnabled = true ∧ 16 < (if (0 : Nat) = 0 then 17 else 4) ∧ 3 < (if (32 : Nat) = 0 then 17 else 4)
    ∧ (powered 9).su.rails = true ∧ (powered 9).hif.linkUp = false ∧ (7 : BitVec 4).toNat ≤ 7 ∧ 1 ≤ (1 : BitVec 4).toNat
    ∧ SMap.wf Func.blank up.hif.funcs = true ∧ (up.func 0).msixEnable = true ∧ bit (up.func 0).masked 16 = false ∧ up.canPost 0 = true
    ∧ (({ up with su := { up.su with perstN := false } } : State)).canPost 0 = false ∧ (up.func 32).msixEnable = false := by decide +kernel
theorem test_configRequest : ok (exec (.configRequest 0 (.msixMask 16)) up) (fun t => bit (t.func 0).masked 16 && t.outbox == [.config 0 0x0b000000]) = true := by
  decide +kernel
theorem test_hostLinkActive : exec (.hostLinkActive 7 4 true) (powered 9) = .next ((List.range 33).foldl State.resume
    { powered 9 with hif := { linkUp := true, speed := 7, width := 4, flit := true } }) := rfl
theorem test_hostLinkActive_reserved : same (exec (.hostLinkActive 8 4 true) (powered 9)) (powered 9) = true := by decide +kernel
theorem test_hostLinkDown : exec .hostLinkDown up = .next (({ up with hif := { up.hif with linkUp := false, speed := 0, width := 0, flit := false } } : State).hifEvent 0
    { status := unlistedCode 1 }) := by simp only [exec, execHostLinkDown, State.hostLinkDown]; rw [if_pos (by decide +kernel)]
theorem test_functionLevelReset : ok (exec (.functionLevelReset 0) up) (fun t => !(t.func 0).busMaster && !(t.func 0).msixEnable) = true := by
  decide +kernel
theorem test_busMasterDisable : ok (exec (.busMasterDisable 0) up) (fun t => !(t.func 0).busMaster && (t.func 0).msixEnable) = true := by
  decide +kernel
theorem test_busMasterEnable : ok (exec (.busMasterEnable 0) (up.setFunc 0 { msixEnable := true, masked := 0, pendingVec := 1 }))
    (fun t => (t.func 0).busMaster && (t.func 0).pendingVec == 0 && t.outbox == [.msix 0 0]) = true := by decide +kernel
theorem test_msixUnmask : ok (exec (.msixUnmask 0 16) (up.setFunc 0 { busMaster := true, msixEnable := true, masked := 0x10000, pendingVec := 0x10000 }))
    (fun t => (t.func 0).masked == 0 && (t.func 0).pendingVec == 0 && t.outbox == [.msix 0 16]) = true := by decide +kernel

/-- A ring with two entries written and not returned. -/
def withEntries : State := up.setRing pf { up.ring pf with entries := [{ kind := 1, status := 0, part := 0 }, { kind := 1, status := 2, part := 0 }], cplTail := 2 }
theorem witness_DoorbellsMoveRings :
    pf.valid = true ∧ ({ fn := 32, ring := 3 } : RingId).valid = true ∧ up.hostReach 0 = true ∧ (up.ring pf).enable = true ∧ (15 : W32).toNat % 65536 < (up.ring pf).size
    ∧ (up.ring { fn := 0, ring := 1 }).enable = false ∧ (up.ring pf).size ≤ (16 : W32).toNat % 65536 ∧ (powered 0x0a).hostReach 0 = false := by decide +kernel
theorem test_hifDbCmd : ok (exec (.hifDbCmd pf 15) up) (fun t => (t.ring pf).cmdTail == 15) = true := by decide +kernel
theorem test_hifDbCmd_outside : same (exec (.hifDbCmd pf 16) up) up = true := by decide +kernel
theorem test_hifDbCpl : ok (exec (.hifDbCpl pf 1) withEntries) (fun t => statuses t == [2] && (t.ring pf).cplHead == 1) = true := by decide +kernel

theorem witness_RingsEnableAndDisable :
    up.hostReach 0 = true ∧ up.hostReach 32 = true ∧ bit (0x80040100 : W32) 31 = true ∧ bit (0x00040100 : W32) 31 = false
    ∧ (up.ring (up.selected 0)).enable = true ∧ (up.ring (up.selected 32)).enable = false := by decide +kernel
theorem test_ringEnable : ok (exec (.ringEnable 32 0x80100200) up)
    (fun t => (t.ring { fn := 32, ring := 0 }).enable && (t.ring { fn := 32, ring := 0 }).log2 == 16 && (t.ring { fn := 32, ring := 0 }).phase) = true := by
  decide +kernel
theorem test_ringEnable_log2_kept : ok (exec (.ringEnable 0 0x80100200) up) (fun t => (t.ring pf).log2 == 4 && (t.ring pf).coalCnt == 2) = true := by
  decide +kernel
theorem test_ringDisable : ok (exec (.ringDisable 0 0x00100000) withEntries)
    (fun t => !(t.ring pf).enable && (t.ring pf).entries == [] && (t.ring pf).epoch == 2) = true := by decide +kernel

/-- A ring with a command to fetch, and the function 1 ring of partition 0. -/
def toFetch : State := up.setRing pf { up.ring pf with cmdHead := 15, cmdTail := 2 }
def vf0 : RingId := { fn := 1, ring := 0 }
def toFetchVf : State := (up.setFunc 1 { busMaster := true }).setRing vf0 { enable := true, epoch := 1, cmdTail := 1 }
theorem witness_CommandsAreFetched :
    toFetch.canPost 0 = true ∧ (toFetch.ring pf).enable = true ∧ (toFetch.ring pf).cmdHead ≠ (toFetch.ring pf).cmdTail ∧ (toFetch.ring pf).room = true
    ∧ cmdOp (cmd 0x30 []) ∈ opcodes ∧ headerBad (cmd 0x30 []) = false ∧ vfRefuses 0 (cmd 0x30 []) = false ∧ cmdOp (cmd 0x07 []) ∉ opcodes
    ∧ headerBad (cmd 0x30 [(2, 1)]) = true ∧ vfRefuses 1 (cmd 0x30 []) = true ∧ toFetchVf.canPost 1 = true ∧ (toFetchVf.ring vf0).fetched = []
    ∧ (toFetchVf.ring vf0).running = [] ∧ bit (cmd 0x30 []) 8 = false ∧ (up.ring pf).cmdHead = (up.ring pf).cmdTail
    ∧ (powered 0x0b).canPost 0 = false ∧ ({ up.ring pf with coalUs := 1, unsignalled := 1 } : Ring).coalUs ≠ 0 := by decide +kernel
theorem test_commandFetch : ok (exec (.commandFetch pf (cmd 0x30 [])) toFetch)
    (fun t => (t.ring pf).cmdHead == 0 && (t.ring pf).fetched == [(1, cmd 0x30 [])]) = true := by decide +kernel
theorem test_commandFetch_vf : ok (exec (.commandFetch vf0 (cmd 0x30 [])) toFetchVf) (fun t => (t.ring vf0).entries.map (·.status) == [0x0103#16]) = true := by
  decide +kernel
theorem test_coalesceTimerExpiry : ok (exec (.coalesceTimerExpiry pf) (up.setRing pf { up.ring pf with coalUs := 1, unsignalled := 3 }))
    (fun t => (t.ring pf).unsignalled == 0 && t.outbox == [.msix 0 1]) = true := by decide +kernel

theorem witness_CompletionEntryWritten :
    SMap.wf Ring.blank up.hif.rings = true ∧ up.canPost pf.fn = true ∧ (up.ring pf).enable = true ∧ (up.ring pf).waiting = [] ∧ (up.ring pf).epoch = 1
    ∧ (up.ring pf).epoch ≠ 0 := by decide +kernel

/-- A module in Grounded. -/
def grounded : State := { base with pwr := { low := .grounded } }
theorem witness_LowLadderTurnsCommandsAway :
    pf.valid = true ∧ (given grounded (cmd 0x30 [])).front pf 0x30 = some (cmdRef pf 1 (cmd 0x30 []), cmd 0x30 [])
    ∧ ((given grounded (cmd 0x30 [])).started pf).lowLadder = true ∧ 0x30 ∉ ladderOpcodes ∧ up.front pf 0x30 = none := by decide +kernel
theorem test_lowLadder : ok (exec (.map pf) (given grounded (cmd 0x30 []))) (fun t => statuses t == [0x0711]) = true := by decide +kernel

theorem witness_RegisterWritesAct : up.hostReach 0 = true ∧ 0x80000 ≤ (0x80000 : W32).toNat := by decide +kernel
theorem test_registerWrite : ok (exec (.registerWrite 0 0x10 0xfffffffe) up) (fun t => t.pfReg 0x10 == 2) = true := by decide +kernel
theorem test_registerWrite_clears : ok (exec (.registerWrite 0 0x30008 2) { up with lnk := { event := 3 } }) (fun t => t.lnk.event == 1) = true := by
  decide +kernel

/-- `up` with port 17 in a state, selected. -/
def port17 (x : Port) : State := { up with su := { up.su with linksDriven := true }, lnk := { psel := 17, ports := [(17, x)] } }
/-- The same, port 13, which needs no owner's coordinates. -/
def port13 (x : Port) : State := { up with su := { up.su with linksDriven := true }, lnk := { psel := 13, ports := [(13, x)] } }
theorem witness_SelectedRegisterWritesAct :
    (({ up with hif := { up.hif with rings := [] } } : State).ring (up.selected 0)).enable = false ∧ (up.ring (up.selected 0)).enable = true
    ∧ up.hostReach 32 = true ∧ 4 ≤ (4 : W32).toNat % 16 ∧ SMap.wf 0 (base.part 0).perf = true
    ∧ (port17 { st := .held }).lnk.psel.toNat < 18 ∧ bit (1 : W32) 0 = true ∧ bit (1 : W32) 1 = false ∧ bit (2 : W32) 0 = false ∧ bit (2 : W32) 1 = true
    ∧ ((port17 { st := .held }).port 17).st = .held ∧ ((port17 { st := .up }).port 17).st ≠ .held ∧ ((port13 { st := .held }).port 13).ladderHold = false
    ∧ (port13 { st := .held }).pwr.test = none ∧ (port13 { st := .held }).su.linksDriven = true ∧ (port13 { st := .held }).lnk.psel.toNat < 14
    ∧ SMap.wf Port.blank (port17 { st := .up }).lnk.ports = true ∧ ((port17 { st := .up }).port 17).st = .up := by decide +kernel
theorem test_portHold : ok (exec (.portHold 1) (port17 { st := .held })) (fun t => (t.port 17).hold && (t.port 17).st == .held) = true := by decide +kernel
theorem test_portUnhold : ok (exec (.portUnhold 0) (port13 { st := .held, hold := true })) (fun t => !(t.port 13).hold && (t.port 13).st == .training) = true := by
  decide +kernel
theorem test_recal : ok (exec (.recal 2) (port17 { st := .up })) (fun t => (t.port 17).st == .training) = true := by decide +kernel
theorem test_mgtPClr : ok (exec (.mgtPClr 0x81) (base.setPart 0 { part0 with perf := [(0, 5), (1, 6), (7, 7)], ovf := 0xff }))
    (fun t => (t.part 0).perf == [(1, 6)] && (t.part 0).ovf == 0x7e) = true := by decide +kernel
theorem test_mgtPCntLoRead : ok (exec .mgtPCntLoRead (base.setPart 0 { part0 with perf := [(2, 0x500000001)], csel := 2 }))
    (fun t => (t.part 0).cntHi == 5) = true := by decide +kernel

/-! ### Host copies, loads and stops -/

/-- Partition 0 owns extents 0 and 1, in plain mode. -/
def spanned : State := (base.setExtent 0 0 (some { owner := 0 })).setExtent 0 1 (some { owner := 0 })
/-- The check of statuses after a host command of `spanned`. -/
def answers (op : Nat) (i : Instr) (s : State) (fs : List (Nat × Nat)) : List Nat :=
  match exec i (given s (cmd op fs)) with
  | .next t => statuses t
  | _ => []
/-- The command starts on its ring, as the statements ask. -/
def begins (op : Nat) (s : State) (fs : List (Nat × Nat)) : Bool := (given s (cmd op fs)).starts pf op (cmdRef pf 1 (cmd op fs)) (cmd op fs)

/-- Copies of 64 bytes between host address 0x5000 and span address 0x10. -/
def copyF : List (Nat × Nat) := [(0x10, 0x10), (0x18, 0x5000), (0x20, 64)]
def copying (x : HostOp) : State := { spanned with hif := { spanned.hif with hostOps := [x] } }
def inOp : HostOp := .copyIn (cmdRef pf 1 (cmd 8 copyF)) 0 0x10 0x5000 1
def outOp : HostOp := .copyOut (cmdRef pf 1 (cmd 9 copyF)) 0 0x10 0x5000 1
theorem witness_HostCopies :
    begins 8 spanned copyF = true ∧ begins 9 spanned copyF = true
    ∧ firstFail (((given spanned (cmd 8 copyF)).started pf).copyChecks (cmdRef pf 1 (cmd 8 copyF)) (cmd 8 copyF) true) = none
    ∧ firstFail (((given spanned (cmd 9 copyF)).started pf).copyChecks (cmdRef pf 1 (cmd 9 copyF)) (cmd 9 copyF) false) = none
    ∧ (copying inOp).hif.hostOps[0]? = some inOp ∧ (copying inOp).canPost 0 = true ∧ spanned.hasPart 0 = true
    ∧ spanned.bytesFault 0 0x10 1 true = none ∧ spanned.bytesFault 0 0x10 1 false = none ∧ spanned.bytesFault 0 0x400000 1 true = some 0x0313
    ∧ ({ copying inOp with parts := [] } : State).hasPart 0 = false ∧ (copying outOp).hif.hostOps[0]? = some outOp := by decide +kernel
theorem test_hostIn : ok (exec (.hostIn pf) (given spanned (cmd 8 copyF)))
    (fun t => t.hif.hostOps == [.copyIn (cmdRef pf 1 (cmd 8 copyF)) 0 0x10 0x5000 64] && statuses t == []) = true := by decide +kernel
theorem test_hostIn_unmapped : answers 8 (.hostIn pf) base copyF = [0x0313] := by decide +kernel
theorem test_hostOut : ok (exec (.hostOut pf) (given spanned (cmd 9 copyF)))
    (fun t => t.hif.hostOps == [.copyOut (cmdRef pf 1 (cmd 9 copyF)) 0 0x10 0x5000 64]) = true := by decide +kernel
theorem test_hostOut_length : answers 9 (.hostOut pf) spanned [(0x10, 0x10), (0x18, 0x5000)] = [0x0102] := by decide +kernel
theorem test_hostMemoryAccessComplete_in : ok (exec (.hostMemoryAccessComplete 0 ⟨some [7], []⟩) (copying inOp))
    (fun t => (t.tile 0 0).data.payload == [(16, 7)] && t.hif.hostOps == [] && statuses t == [0]) = true := by decide +kernel
theorem test_hostMemoryAccessComplete_out : ok (exec (.hostMemoryAccessComplete 0 ⟨some [], []⟩) (copying outOp))
    (fun t => t.outbox.contains (.hostWrite 0 0x5000 [] 1) && statuses t == [0]) = true := by decide +kernel

/-- A spool image of 544 bytes at span address 0: generation 1, two bundles, one routine for core 0 at bundle 0; `stop` 1 adds a stop mark:
bundle 1, pass 1, snapshot at 0x200000. -/
def image (stop : Nat) : Mem :=
  (((((((((Mem.writeNat [] 0 4 0x5053475a).writeNat 4 2 1).writeNat 6 1 1).writeNat 7 1 stop).writeNat 0x00c 2 2).writeNat 0x010 2 stop).writeNat
    0x014 4 544).writeNat 0x018 8 (stop * 0x200000)).writeNat 0x008 4 1).writeNat 0x028 4 stop |>.writeNat 0x040 1 1
def loaded (stop : Nat) : State :=
  (spanned.setTile 0 0 { data := { payload := image stop }, fresh := false }).setPart 0
    { part0 with phase := .reading, loads := [{ ref := cmdRef pf 1 (cmd 0x10 []), addr := 0, len := 544 }] }
def broadcasting : State :=
  ((loaded 0).setPart 0 { part0 with
    phase := .broadcasting, image := image 0, imageLen := 544, gen := 1, accepted := true
    loads := [{ ref := cmdRef pf 1 (cmd 0x10 []), addr := 0, len := 544 }] }).modCores (coresOf 1) fun _ c => { c with inactive := .filling, readyGen := 1, n := 8 }
theorem witness_LoadsBecomeSpools :
    begins 0x10 spanned [(0x20, 544)] = true ∧ ((loaded 0).part 0).phase = .reading ∧ ((loaded 0).part 0).loads ≠ []
    ∧ (loaded 0).bytesFault 0 0 544 false = none ∧ (loaded 0).spoolFault 0 (image 0) 544 = none ∧ (loaded 1).spoolFault 0 (image 1) 544 = some 0x0214
    ∧ (loaded 0).spoolFault 0 (image 0) 543 = some 0x0211 ∧ (broadcasting.part 0).phase = .broadcasting := by decide +kernel
theorem test_load : ok (exec (.load pf) (given spanned (cmd 0x10 [(0x20, 544)])))
    (fun t => (t.part 0).phase == .reading && (t.part 0).loads.map (·.len) == [544#32]) = true := by decide +kernel
theorem test_load_misaligned : answers 0x10 (.load pf) spanned [(0x10, 64), (0x20, 544)] = [0x0227] := by decide +kernel
theorem test_spoolReadComplete : ok (exec (.spoolReadComplete ⟨0, []⟩) (loaded 0))
    (fun t => (t.part 0).phase == .broadcasting && (t.part 0).gen == 1 && (t.core 7).inactive == .filling && (t.core 8).inactive == .empty) = true := by
  decide +kernel
theorem test_spoolReadComplete_refused : ok (exec (.spoolReadComplete ⟨0, []⟩) (loaded 1))
    (fun t => statuses t == [0x0214] && (t.part 0).phase == .idle && !(t.part 0).accepted) = true := by decide +kernel
theorem test_broadcastEnd : ok (exec (.broadcastEnd 0) broadcasting)
    (fun t => statuses t == [0] && (t.core 0).run == .running && (t.core 0).gen == some 1 && (t.core 0).sreg 2 == 8 && (t.core 1).run == .idle) = true := by
  decide +kernel

theorem witness_BankLayout : (image 0).readNat 0x00e 2 ≤ 56 ∧ (image 0).readNat 0x00c 2 ≤ 3840 ∧ spoolFixed (image 0) ≤ (image 0).readNat 0x014 4 := by
  decide +kernel
/-- A core with the image ready in bank 1, as rank 3. -/
def readyCore : Core := { inactive := .ready, bankB := bankOf (image 0) 3, readyGen := 1, rank := 3, n := 8 }
theorem witness_CoresTakeSpools :
    (∀ ch < 16, (readyCore.chan ch).depth = headerDepth readyCore.bankB ch) ∧ routineFor readyCore.bankB 0 = some 0 ∧ routineFor readyCore.bankB 255 = none
    ∧ ¬(∀ ch < 16, (({ readyCore with chans := [(5, { depth := 1, held := 1 })] } : Core).chan ch).depth = headerDepth readyCore.bankB ch) := by
  decide +kernel
theorem test_depths_change : (({ readyCore with chans := [(5, { depth := 1, held := 1 })] } : Core).takeSpool 0).2 = true := by decide +kernel

/-- Core 0 holds a stop-marked spool and has come to its stop; `all` others are idle. -/
def atStop : Core := { run := .running, pc := 1, gen := some 1, bankA := bankOf (image 1) 0, n := 8 }
def halting : State := spanned.setCore 0 atStop
def snapping : State := (spanned.setExtent 0 1 none).setCore 0 { atStop with run := .halted 1 0 }
theorem witness_CoresStop :
    begins 0x11 spanned [] = true ∧ begins 0x12 halting [] = true ∧ (halting.stopCore 0).isSome = true ∧ spanned.stopCore 0 = none
    ∧ halting.mayIssue 0 = true ∧ (halting.core 0).stopDue = true ∧ (halting.core 0).quiet = true ∧ (halting.core 0).ended = 0
    ∧ snapping.stopCore 0 = some 0 ∧ snapping.snapReady 0 = true ∧ (snapping.coresIn 0)[(snapping.part 0).snapNext]? = some 0
    ∧ (snapping.coresIn 0).length = 8 ∧ (snapping.setPart 0 { part0 with snapNext := 7 }).snapReady 0 = true
    ∧ (({ atStop with run := .waitBank } : Core)).stopDue = true := by decide +kernel
theorem test_abort : ok (exec (.abort pf) (given halting (cmd 0x11 []))) (fun t => (t.core 0).run == .idle && statuses t == [0x0216, 0]) = true := by decide +kernel
theorem test_abort_no_partition : answers 0x11 (.abort pf) base [(0x24, 1)] = [0x0223] := by decide +kernel
theorem test_stopNow : ok (exec (.stopNow pf) (given halting (cmd 0x12 []))) (fun t => (t.core 0).run == .halted 3 0 && statuses t == [0]) = true := by
  decide +kernel
theorem test_stopNow_no_stop : answers 0x12 (.stopNow pf) base [] = [0x0217] := by decide +kernel
theorem test_stopMarkHalt : after (exec (.stopMarkHalt 0) halting) (fun c => c.run == .halted 1 0) = true := by decide +kernel
theorem test_snapshotWrite : ok (exec (.snapshotWrite 0) (snapping.setPart 0 { part0 with snapNext := 6 })) (fun t => (t.part 0).snapNext == 7) = true := by
  decide +kernel

/-! ### Cores: the control and move slots -/

/-- A bundle's word from its fields, each as (lowest bit, value), as the slot tables place them. -/
def bun (fs : List (Nat × Nat)) : Nat := (fs.map fun f => f.2 * 2 ^ f.1).sum
/-- Core 0 of partition 0 running a spool of two bundles, the first as given; the second is all zeros. -/
def running (c : Core) (b : Nat) : State :=
  base.setCore 0 { c with run := .running, gen := some 1, n := 8, bankA := Mem.writeNat (Mem.writeNat [] 0x00c 2 2) 0x1000 16 b }


/-- The writes in flight on core 0, and the status its routine ended with. -/
def writesOf (c : Core) : List RegWrite := c.ops.flatMap (·.writes)

theorem test_nop : after (exec (.nop 0) (running {} 0)) (fun c => c.pc == 1 && c.ops == []) = true := by decide +kernel
theorem test_nop_past_the_end : after (exec (.nop 0) (running { pc := 2, ops := [{ bundle := 1 }] } 0))
    (fun c => c.ended == 0x0902 && c.endedAt == 2) = true := by decide +kernel

/-- `rep c1, 0...`: body length 1, mask register s2. -/
def repB : Nat := bun [(122, 1), (119, 1), (107, 1), (102, 2)]
theorem test_rep : after (exec (.rep 0) (running { c := [(1, 3)], s := [(2, 5)] } repB))
    (fun c => c.pc == 1 && c.loops == [{ p := 0, n := 1, mask := 5, live := 3 }]) = true := by decide +kernel
theorem test_rep_zero : after (exec (.rep 0) (running { s := [(2, 5)] } repB)) (fun c => c.pc == 2 && c.loops == []) = true := by decide +kernel
/-- `br s3, 2, 0`: taken below zero. -/
def brB : Nat := bun [(122, 2), (117, 3), (114, 2), (102, 0)]
theorem test_br : after (exec (.br 0) (running { s := [(3, 0xffffffffffffffff)] } brB)) (fun c => c.pc == 0) = true := by decide +kernel
theorem test_br_not_taken : after (exec (.br 0) (running {} brB)) (fun c => c.pc == 1) = true := by decide +kernel
theorem test_jmp : after (exec (.jmp 0) (running { loops := [{ p := 0, n := 0, mask := 0, live := 2 }] } (bun [(122, 3), (102, 1)])))
    (fun c => c.pc == 1 && c.loops == []) = true := by decide +kernel
theorem test_wait : after (exec (.wait 0) (running {} (bun [(122, 4), (116, 3)]))) (fun c => c.pc == 1) = true := by decide +kernel
theorem test_wait_holds : after (exec (.wait 0) (running { ops := [{ bundle := 0 }] } (bun [(122, 4), (116, 3)]))) (fun c => c.pc == 0) = true := by
  decide +kernel
theorem test_swapBundle : after (exec (.swapBundle 0) (running { inactive := .filling } (bun [(122, 5)]))) (fun c => c.run == .waitBank) = true := by
  decide +kernel
theorem test_swapBundle_empty : after (exec (.swapBundle 0) (running {} (bun [(122, 5)]))) (fun c => c.run == .idle) = true := by decide +kernel

theorem test_sset : after (exec (.sset 0) (running {} (bun [(90, 1), (85, 31), (64, 2 ^ 21 - 2)])))
    (fun c => writesOf c == [.s 31 0xfffffffffffffffe] && c.pc == 1) = true := by decide +kernel
theorem test_salu : after (exec (.salu 0) (running { s := [(2, 3), (4, 5)] } (bun [(90, 2), (85, 1), (80, 2), (75, 4), (70, 1)])))
    (fun c => writesOf c == [.s 1 0xfffffffffffffffe]) = true := by decide +kernel
theorem test_sali : after (exec (.sali 0) (running { s := [(2, 3)] } (bun [(90, 3), (85, 1), (80, 2), (76, 0), (64, 4095)])))
    (fun c => writesOf c == [.s 1 2]) = true := by decide +kernel
theorem test_sld : after (exec (.sld 0) (running { store := [(16, 0x34), (17, 0x12)] } (bun [(90, 4), (85, 1), (64, 2)])))
    (fun c => writesOf c == [.s 1 0x1234]) = true := by decide +kernel
theorem test_sst : after (exec (.sst 0) (running { s := [(1, 0x1234)], a := [(2, { value := 8 })], store := [(18, 7), (32, 9)] }
    (bun [(90, 5), (85, 1), (80, 2), (64, 1)]))) (fun c => c.store == [(16, 0x34), (17, 0x12), (32, 9)]) = true := by decide +kernel
theorem test_vld : after (exec (.vld 0) (running { store := [(64, 0x34), (1087, 0x12)] } (bun [(90, 6), (85, 15), (64, 1)])))
    (fun c => writesOf c == [.v 15 (BitVec.ofNat 8192 (0x34 + 0x12 * 256 ^ 1023))]) = true := by decide +kernel
theorem test_vst : after (exec (.vst 0) (running { v := [(15, BitVec.ofNat 8192 (0x34 + 0x12 * 256 ^ 1023))] } (bun [(90, 7), (85, 15), (64, 1)])))
    (fun c => c.store == [(64, 0x34), (1087, 0x12)]) = true := by decide +kernel
theorem test_pld : after (exec (.pld 0) (running {} (bun [(90, 8), (85, 3), (76, 447)]))) (fun c => writesOf c == [.s 3 0]) = true := by decide +kernel
theorem test_seta : after (exec (.seta 0) (running { s := [(1, 10), (2, 4), (3, 7)] } (bun [(90, 9), (85, 31), (80, 1), (75, 2), (70, 3)])))
    (fun c => writesOf c == [.a 31 { value := 10, stride := 4, bound := 7 }]) = true := by decide +kernel
theorem test_geta : after (exec (.geta 0) (running { a := [(5, { value := 1, stride := 2, bound := 3 })] } (bun [(90, 10), (85, 6), (80, 5), (78, 2)])))
    (fun c => writesOf c == [.s 6 3]) = true := by decide +kernel
theorem test_setc : after (exec (.setc 0) (running { s := [(9, 77)] } (bun [(90, 11), (87, 7), (82, 9)]))) (fun c => writesOf c == [.c 7 77]) = true := by
  decide +kernel
theorem test_getc : after (exec (.getc 0) (running { c := [(7, 77)] } (bun [(90, 12), (85, 9), (82, 7)]))) (fun c => writesOf c == [.s 9 77]) = true := by
  decide +kernel
theorem test_rdx : after (exec (.rdx 0) (running { flags := 0x41 } (bun [(90, 13), (85, 1), (79, 4)]))) (fun c => writesOf c == [.s 1 0x41]) = true := by
  decide +kernel
theorem test_clrf : after (exec (.clrf 0) (running { flags := 0x7f } (bun [(90, 14)]))) (fun c => c.flags == 0 && c.pc == 1) = true := by decide +kernel
theorem test_tdef : after (exec (.tdef 0) (running { a := [(1, { value := 64 })], s := [(2, 8192)] } (bun [(90, 16), (86, 14), (81, 1), (76, 2), (72, 4), (67, 16)])))
    (fun c => writesOf c == [.t 14 { addr := 8256, st := 1, fmt := 4, side := 1024 }]) = true := by decide +kernel
theorem test_tdef_misaligned : after (exec (.tdef 0) (running { s := [(2, 8)], ops := [{ bundle := 0 }] } (bun [(90, 16), (76, 2)])))
    (fun c => c.ended == 0x090a && writesOf c == []) = true := by decide +kernel
theorem test_tspn : after (exec (.tspn 0) (running { s := [(2, 0x4000)] } (bun [(90, 17), (86, 3), (81, 2), (77, 2), (72, 1)])))
    (fun c => writesOf c == [.t 3 { addr := 0x4000, st := 2, fmt := 2, side := 64 }]) = true := by decide +kernel
/-- Two local handles, t1 at 0 and t2 at 16384. -/
def twoTiles : Core := { t := [(1, { addr := 0, st := 1, fmt := 4 }), (2, { addr := 16384, st := 1 })], store := [(0, 5), (8191, 6)] }
theorem test_tcopy : after (exec (.tcopy 0) (running twoTiles (bun [(90, 18), (86, 2), (82, 1)])))
    (fun c => c.store == [(0, 5), (8191, 6), (16384, 5), (24575, 6)] && writesOf c == [.t 2 { addr := 16384, st := 1, fmt := 4 }]) = true := by decide +kernel
theorem test_tcopy_invalid : after (exec (.tcopy 0) (running { ops := [{ bundle := 0 }] } (bun [(90, 18), (86, 2), (82, 1)]))) (fun c => c.ended == 0x0909) = true := by
  decide +kernel
theorem test_tinv : after (exec (.tinv 0) (running twoTiles (bun [(90, 19), (86, 2)]))) (fun c => writesOf c == [.t 2 { addr := 16384, st := 0 }]) = true := by
  decide +kernel

/-- `send s1, s2, s3, t0, 0, 5` to channel 2 of core 1, whose channels are two deep. -/
def sendB : Nat := bun [(90, 20), (85, 1), (80, 2), (75, 3), (66, 5)]
def sending (credit : Option (Nat × Nat)) : State :=
  (running { s := [(1, 0x201), (2, 7), (3, 8)], credit := credit } sendB).setCore 1 { chans := [(2, { depth := 2 })], n := 8, rank := 1 }
theorem test_send_asks : after (exec (.send 0) (sending none)) (fun c => c.request == some (1, 2) && c.pc == 0) = true := by decide +kernel
theorem test_send : ok (exec (.send 0) (sending (some (1, 2)))) (fun t => (t.core 0).pc == 1 && (t.core 0).credit == none
    && t.mesh == [{ src := 0, dst := 1, chan := 2, word0 := 7, word1 := 8, hint := 5, srcByte := 0, data := none }]) = true := by decide +kernel
/-- `recv 2, s4, s5, s6, t0`. -/
def recvB : Nat := bun [(90, 21), (86, 2), (81, 4), (76, 5), (71, 6)]
/-- A core whose channel 2, one deep, holds a message of words 7 and 8 with hint 5 from core 3. -/
def holding : Core :=
  let c : Core := { chans := [(2, { depth := 1, held := 1, granted := 1 })] }
  { c with store := Mem.writeNat [] (c.bufAddr 2 0) 16 (3 + 5 * 256 + 7 * 2 ^ 32 + 8 * 2 ^ 64) }
theorem test_recv : after (exec (.recv 0) (running holding recvB))
    (fun c => writesOf c == [.s 4 7, .s 5 8, .s 6 0x503] && (c.chan 2).held == 0 && (c.chan 2).granted == 0 && c.pc == 1) = true := by decide +kernel
theorem test_recv_waits : after (exec (.recv 0) (running { chans := [(2, { depth := 1 })] } recvB)) (fun c => c.pc == 0) = true := by decide +kernel
theorem test_creditGrant : ok (exec (.creditGrant 0 1) ((sending none).setCore 0 { ((sending none).core 0) with request := some (1, 2) }))
    (fun t => (t.core 0).credit == some (1, 2) && ((t.core 1).chan 2).granted == 1) = true := by decide +kernel
/-- A message on the mesh from core 0 to channel 2 of core 1. -/
def onMesh : State := { (sending none) with mesh := [{ src := 0, dst := 1, chan := 2, word0 := 7, word1 := 8, hint := 5, srcByte := 0, data := none }] }
theorem test_messageArrive : ok (exec (.messageArrive 0 1 2) onMesh)
    (fun t => t.mesh == [] && ((t.core 1).chan 2).held == 1 && (t.core 1).store.readNat ((t.core 1).bufAddr 2 0 + 4) 4 == 7) = true := by decide +kernel
theorem test_operationComplete : after (exec (.operationComplete 0 ⟨0, []⟩) (running { ops := [{ bundle := 0, writes := [.s 1 9], busy := [.s 1], flags := 2 }] } 0))
    (fun c => c.ops == [] && c.sreg 1 == 9 && c.flags == 2) = true := by decide +kernel
theorem test_operationComplete_status : after (exec (.operationComplete 0 ⟨0, []⟩) (running { ops := [{ bundle := 7, status := 0x0905 }, { bundle := 8 }] } 0))
    (fun c => c.ended == 0x0905 && c.endedAt == 7) = true := by decide +kernel

/-! ### Cores: where the statements about bundles hold -/

/-- The bundle of a word that core 0 issues, where only one slot of it holds an operation: 0 control, 1 move, 2 vector, 3 array. -/
def only (slot : Nat) (c : Core) (w : Nat) : Option Bundle :=
  (decodeBundle w).filter fun b => (running c w).issues 0 b && (slot == 0 || b.ctl == .nop) && (slot == 1 || b.mov == .nop)
    && (slot == 2 || b.vec.op == .nop) && (slot == 3 || b.arr.op == .nop)

theorem witness_BundlesIssueWhole : SMap.wf Core.blank (running {} (bun [(90, 1)])).cores = true ∧ (only 1 {} (bun [(90, 1)])).isSome = true
    ∧ (only 0 {} 0).isSome = true := by decide +kernel
theorem witness_ControlFlow :
    [bun [], repB, brB, bun [(122, 3), (102, 1)], bun [(122, 4), (116, 3)], bun [(122, 5)]].map (fun w => (only 0 {} w).map (·.ctl))
      = [some .nop, some (.rep 1 1 2), some (.br 3 2 0), some (.jmp 1), some (.wait 0 3), some .swap]
    ∧ ((running { c := [(1, 3)] } repB).core 0).creg 1 ≠ 0 ∧ (running {} (bun [(122, 5)])).partOf 0 = some 0
    ∧ condHolds 2 0xffffffffffffffff = true ∧ condHolds 2 0 = false := by decide +kernel
theorem witness_MoveSlotWritesRegisters :
    [bun [(90, 1), (85, 31)], bun [(90, 2), (85, 1), (70, 13)], bun [(90, 3), (85, 1)], bun [(90, 8), (85, 3), (76, 447)], bun [(90, 9), (85, 31)],
      bun [(90, 10), (85, 6), (78, 2)], bun [(90, 11), (87, 7)], bun [(90, 12), (85, 9), (82, 7)], bun [(90, 13), (85, 1), (79, 4)], bun [(90, 14)],
      bun [(90, 16), (86, 14), (67, 16)], bun [(90, 17), (86, 15), (72, 1)], bun [(90, 19), (86, 2)]].map (fun w => (only 1 {} w).map (·.mov))
      = [some (.sset 31 0), some (.salu 1 0 0 13), some (.sali 1 0 0 0), some (.pld 3 447), some (.seta 31 0 0 0), some (.geta 6 0 2),
         some (.setc 7 0), some (.getc 9 7), some (.rdx 1 4), some .clrf, some (.tdef 14 0 0 0 16), some (.tspn 15 0 0 1), some (.tinv 2)] := by
  decide +kernel
theorem witness_CoreStoreAccess :
    [bun [(90, 4), (85, 1), (64, 2)], bun [(90, 5), (85, 1), (64, 1)], bun [(90, 6), (85, 15), (64, 1)], bun [(90, 7), (85, 15), (64, 1)]].map
      (fun w => (only 1 {} w).map (·.mov)) = [some (.sld 1 0 0 2), some (.sst 1 0 0 1), some (.vld 15 0 0 1), some (.vst 15 0 0 1)]
    ∧ (only 1 { poison := [0] } (bun [(90, 5), (85, 1), (64, 1)])).isSome = true ∧ ({ poison := [0] } : Core).writePoison 8 8 = true
    ∧ (only 1 { poison := [1] } (bun [(90, 6), (85, 15), (64, 1)])).isSome = true ∧ ({ poison := [1] } : Core).readPoison 64 1024 = true := by
  decide +kernel
theorem witness_TilesAndMessagesMove :
    (only 1 twoTiles (bun [(90, 18), (86, 2), (82, 1)])).isSome = true
    ∧ (only 1 { t := [(1, { st := 2 }), (2, { st := 1 })] } (bun [(90, 18), (86, 2), (82, 1)])).isSome = true
    ∧ (only 1 { t := [(1, { st := 1 }), (2, { st := 2 })] } (bun [(90, 18), (86, 2), (82, 1)])).isSome = true
    ∧ (only 1 {} sendB).isSome = true ∧ (sending none).sendFault 0 ((sending none).core 0) 1 0 false = none
    ∧ (only 1 holding recvB).isSome = true ∧ (sending (some (1, 2))).sendFault 0 ((sending (some (1, 2))).core 0) 1 0 false = none
    ∧ holding.readPoison (holding.bufAddr 2 0) 16 = false ∧ holding.store.readNat (holding.bufAddr 2 0 + 2) 2 = 0
    ∧ twoTiles.readPoison 0 8192 = false ∧ twoTiles.writePoison 16384 8192 = false := by decide +kernel
/-- A core whose next bundle is as given, in a state that issues it with work still under way. -/
def faulting (c : Core) (w : Nat) : State := running { c with ops := [{ bundle := 1 }] } w
/-- The status with which core 0 ends instead of issuing a bundle. -/
def faultOf (s : State) (w : Nat) : Option Nat := (decodeBundle w).bind fun b => if (s.core 0).bundleReady b then s.issueFault 0 (s.core 0) b else none
def deep : Core := { loops := List.replicate 4 { p := 0, n := 9, mask := 0, live := 2 }, c := [(1, 1)] }
theorem witness_RoutinesEndAtIssue :
    (faulting { pc := 2 } 0).mayIssue 0 = true ∧ ((faulting { pc := 2 } 0).core 0).bundles = 2 ∧ ((faulting { pc := 2 } 0).core 0).stopDue = false
    ∧ ((faulting { pc := 2 } 0).core 0).quiet = false ∧ decodeBundle (6 * 2 ^ 122) = none ∧ (faulting {} (6 * 2 ^ 122)).mayIssue 0 = true
    ∧ faultOf (faulting { s := [(1, 2 ^ 22)] } (bun [(90, 4), (75, 1)])) (bun [(90, 4), (75, 1)]) = some 0x090a
    ∧ faultOf (faulting deep repB) repB = some 0x0908 ∧ faultOf (faulting {} (bun [(20, 3)])) (bun [(20, 3)]) = some 0x0909
    ∧ (sending none).sendFault 0 { ((sending none).core 0) with s := [(1, 0x2ff)] } 1 0 false = some 0x0903
    ∧ decodeBundle (2 ^ 122) = none ∧ (faulting deep (2 ^ 122)).mayIssue 0 = true ∧ ((faulting deep (2 ^ 122)).core 0).loops.length = 4 := by decide +kernel
/-- An inner loop of one bundle within an outer one, both at their end. -/
def nest (live : W64) : Core := { pc := 5, loops := [{ p := 1, n := 4, mask := 0, live := 1 }, { p := 4, n := 1, mask := 1, live := live }] }
theorem witness_LoopsRepeat : (nest 1).loops.getLast? = some { p := 4, n := 1, mask := 1, live := 1 } ∧ (4 + 1 = (nest 1).pc)
    ∧ ({} : Core).loops = [] ∧ ((nest 1).ops.any fun o => o.writes.any (RegWrite.isA 0)) = false ∧ ({ bound := 5 } : AddrReg).bound ≠ 0
    ∧ ({ nest 1 with pc := 3 } : Core).pc ≠ 5 := by decide +kernel
theorem test_loop_leaves_both : (nest 1).endBody 5 4 = { (nest 1) with pc := 6, loops := [] } := by decide +kernel
theorem test_loop_repeats : (({ nest 2 with a := [(0, { value := 3, stride := 0xfffffffffffffffc, bound := 10 })] } : Core).endBody 5 4)
    = { pc := 5, loops := [{ p := 1, n := 4, mask := 0, live := 1 }, { p := 4, n := 1, mask := 1, live := 1 }]
        a := [(0, { value := 9, stride := 0xfffffffffffffffc, bound := 10 })] } := by decide +kernel
theorem witness_OperationsAndMessagesComplete :
    ((running { ops := [{ bundle := 0 }, { bundle := 7, status := 0x0905 }] } 0).core 0).ops[0]? = some { bundle := 0 }
    ∧ (((sending none).setCore 0 { ((sending none).core 0) with request := some (1, 2) }).core 0).request = some (1, 2)
    ∧ (((sending none).core 1).chan 2).waiters.contains 0 = false
    ∧ (onMesh.mesh.findIdx? fun m => decide (m.src = 0) && decide (m.dst = 1) && decide (m.chan = 2)) = some 0
    ∧ (onMesh.mesh[0]?).any (fun m => decide (m.len < 65536)) = true := by decide +kernel

/-! ### Cores: the vector and array slots -/

/-- A register with its low binary32 lanes as given, and one with the same binary32 in every lane. -/
def vr (l : List Nat) : BitVec 8192 := BitVec.ofNat 8192 (l.foldr (fun x a => x + a * 2 ^ 32) 0)
def fill (x : Nat) : BitVec 8192 := BitVec.ofNat 8192 (x * ((2 ^ 8192 - 1) / (2 ^ 32 - 1)))
/-- A vector operation on v3, v6 and v5 into v4 with more fields: what it writes and its flags. -/
def vop (op : Nat) (more : List (Nat × Nat)) : Nat := bun ([(58, op), (53, 4), (49, 3)] ++ more)
def operands (a b x : BitVec 8192) : Core := { v := [(3, a), (5, x), (6, b)] }
def vout (i : Instr) (c : Core) (w : Nat) : Option (List RegWrite × Flags) :=
  match exec i (running c w) with
  | .next t => ((t.core 0).ops[0]?).map fun o => (o.writes, o.flags)
  | _ => none

theorem test_vadd : vout (.vadd 0) (operands (vr [0x3f800000, 0x40000000]) (vr [0x40000000, 0xbf800000]) 0) (vop 1 [(45, 6)])
    = some ([.v 4 (vr [0x40400000, 0x3f800000])], 0) := by decide +kernel
theorem test_vadd_wide : vout (.vadd 0) (operands (vr [0, 0x3ff00000]) (vr [0, 0x3ff00000]) 0) (vop 1 [(57, 1), (45, 6)])
    = some ([.v 4 (vr [0, 0x40000000])], 0) := by decide +kernel
theorem test_vsub : vout (.vsub 0) (operands (vr [0x3f800000]) (vr [0x40000000]) 0) (vop 2 [(45, 6)]) = some ([.v 4 (vr [0xbf800000])], 0) := by
  decide +kernel
theorem test_vmul : vout (.vmul 0) (operands (vr [0x40400000]) (vr [0xc0000000]) 0) (vop 3 [(45, 6)]) = some ([.v 4 (vr [0xc0c00000])], 0) := by
  decide +kernel
theorem test_vfma : vout (.vfma 0) (operands (vr [0x40400000]) (vr [0x40000000]) (vr [0x3f800000])) (vop 4 [(45, 6), (41, 5)])
    = some ([.v 4 (vr [0x40e00000])], 0) := by decide +kernel
theorem test_vdiv : vout (.vdiv 0) (operands (fill 0x3f800000) (fill 0x40000000) 0) (vop 5 [(45, 6)]) = some ([.v 4 (fill 0x3f000000)], 0) := by
  decide +kernel
theorem test_vdiv_zero : vout (.vdiv 0) (operands (fill 0x3f800000) (fill 0x80000000) 0) (vop 5 [(45, 6)])
    = some ([.v 4 (fill 0xff800000)], Flags.divZero) := by decide +kernel
theorem test_vsqrt : vout (.vsqrt 0) (operands (vr [0x40800000]) 0 0) (vop 6 []) = some ([.v 4 (vr [0x40000000])], 0) := by decide +kernel
theorem test_vmin : vout (.vmin 0) (operands (vr [0, 0x3f800000]) (vr [0x80000000, 0x40000000]) 0) (vop 7 [(45, 6)])
    = some ([.v 4 (vr [0x80000000, 0x3f800000])], 0) := by decide +kernel
theorem test_vmax : vout (.vmax 0) (operands (vr [0, 0x3f800000]) (vr [0x80000000, 0x40000000]) 0) (vop 8 [(45, 6)])
    = some ([.v 4 (vr [0, 0x40000000])], 0) := by decide +kernel
theorem test_vcmp : vout (.vcmp 0) (operands (vr [1, 0x3f800000]) 0 0) (vop 0xa [(45, 6), (24, 0)])
    = some ([.v 4 (fill 0xffffffff - vr [0xffffffff, 0xffffffff])], 0) := by decide +kernel
theorem test_vsel : vout (.vsel 0) (operands (vr [1, 2]) (vr [3, 4]) (vr [0, 0x80000000])) (vop 0xb [(45, 6), (41, 5)])
    = some ([.v 4 (vr [3, 2])], 0) := by decide +kernel
theorem test_vbcs : vout (.vbcs 0) { s := [(7, 0x1234567890abcdef)] } (bun [(58, 0xc), (53, 4), (33, 7)])
    = some ([.v 4 (fill 0x90abcdef)], 0) := by decide +kernel
theorem test_vred : vout (.vred 0) (operands (fill 0x3f800000) 0 0) (vop 0xd [(33, 7)])
    = some ([.v 4 (vr [0x43800000]), .s 7 0x43800000], 0) := by decide +kernel
theorem test_vcvt : vout (.vcvt 0) (operands (vr [0x3f800000, 0x40000000]) 0 0) (vop 0xe [(24, 2 * 64)])
    = some ([.v 4 (vr [0x40003f00])], 0) := by decide +kernel
theorem test_vfun_exact : vout (.vfun 0) (operands 0 0 0) (vop 0x10 [(24, 0)]) = some ([.v 4 (fill 0x3f800000)], 0) := by decide +kernel
theorem test_vrand : after (exec (.vrand 0) (running {} (bun [(58, 0x18), (53, 4)]))) (fun c => c.lanes.length == 256 && (c.lane 255).draws == 1 && c.ops.length == 1) = true := by decide +kernel
/-- lr 1, beta1' 0, beta2' 0, eps 1, lambda 0, rho 1, c1 1, c2 1: m = g, v = g², w = w - g / (|g| + 1). -/
def hyperRegs : SMap W64 := [(8, 0x3f800000), (9, 0x3f80000000000000), (10, 0x3f80000000000000), (11, 0x3f8000003f800000)]
theorem test_vupd : vout (.vupd 0) { v := [(3, vr [0x40400000]), (4, vr [0x3f800000])], s := hyperRegs } (vop 0x20 [(45, 6), (41, 5), (33, 8)])
    = some ([.v 4 (vr [0x3e800000]), .v 6 (vr [0x40400000]), .v 5 (vr [0x41100000])], 0) := by decide +kernel

theorem witness_VectorOpsIssue :
    [vop 1 [(45, 6)], vop 2 [(45, 6)], vop 3 [(45, 6)], vop 4 [(45, 6), (41, 5)], vop 5 [(45, 6)], vop 6 [], vop 7 [(45, 6)], vop 8 [(45, 6)],
      vop 0xa [(45, 6)], vop 0xb [(45, 6), (41, 5)], bun [(58, 0xc), (53, 4)], vop 0xd [(33, 7)], vop 0xe [(24, 2 * 64)], vop 0x10 [],
      bun [(58, 0x18), (53, 4)], vop 0x20 [(45, 6), (41, 5), (33, 8)]].map (fun w => (only 2 {} w).map (·.vec.op))
      = vectorRows.map fun e => some e.2 := by decide +kernel
theorem witness_VectorLanes : cvtOk (2 * 64) = true ∧ cvtOk (3 * 64 + 7) = true ∧ cvtOk (3 * 8) = true ∧ updOp 0 = 0
    ∧ Fmt.f32.decode 0x7fc00001 = .nan false true 1 ∧ (Fmt.f32.decode 0x3f800000).isNan = false ∧ (Fmt.f32.decode 0x80000000).isZero = true
    ∧ (Fmt.f32.decode 0xbf800000).neg = true ∧ (Fmt.f64.decode 0).isZero = true := by decide +kernel
theorem test_vrandReseed : after (exec (.vrandReseed 0) (core0 base { lanes := [{ st := 7, draws := 5 }] }))
    (fun c => c.lanes.length == 256 && (c.lane 0).draws == 0) = true := by decide +kernel
theorem test_vrandReseed_failed : same (exec (.vrandReseed 0) (core0 base { lanes := [{ st := 7, draws := 5 }], entropyFail := true }))
    (core0 base { lanes := [{ st := 7, draws := 5 }], entropyFail := true }) = true := by decide +kernel
theorem test_coreEntropyFail : ok (exec (.coreEntropyFail 9) base) (fun t => (t.core 9).entropyFail && statuses t == [0x0910]) = true := by decide +kernel
theorem test_coreEntropyRecover : after (exec (.coreEntropyRecover 0) (core0 base { entropyFail := true })) (fun c => !c.entropyFail) = true := by decide +kernel

/-! #### Arrays -/

/-- Z16 tiles: a stationary with 1.0 at (0, 0) and 2.0 at (1, 0); a streaming one with 2.0 and 1.5 at the start of vector 0. -/
def statTile : TileData := { fmt := 4, payload := Mem.writeNat (Mem.writeNat [] 0 2 0x3f00) 128 2 0x4000 }
def strTile : TileData := { fmt := 4, payload := Mem.writeNat [] 0 4 0x3f804000 }
def stat1 : Stationary := { fmt := 0, depth := 0, rs := false, tiles := [statTile] }
def stream1 : StreamOp :=
  { bundle := 3, fmt := 0, kind := 0, shape := 0, first := true, last := true, rq := false, tiles := [strTile], stat := stat1, bridlesBefore := 1 }
/-- Core 0 with array A as given. -/
def withA (x : ArrayState) : State := core0 base { arrA := x, run := .running, gen := some 1 }
def arrA (r : Res) (p : ArrayState → Bool) : Bool := after r fun c => p c.arrA
/-- Handles t2 and t3 of local Z16 tiles. -/
def z16Handles : Core := { t := [(2, { st := 1, fmt := 4 }), (3, { addr := 8192, st := 1, fmt := 4 })] }
def bridleB : Nat := bun [(20, 1), (15, 2)]
def streamB : Nat := bun [(20, 2), (15, 3), (8, 3)]
def drainB : Nat := bun [(20, 3), (15, 2), (12, 2)]
theorem witness_ArraySlotQueues : (only 3 z16Handles bridleB).map (·.arr.op) = some .bridle
    ∧ (only 3 { z16Handles with arrA := { latest := some stat1 } } streamB).map (·.arr.op) = some .stream
    ∧ (only 3 { z16Handles with arrA := { tiles := 1 } } drainB).map (·.arr.op) = some .drain
    ∧ (only 3 { z16Handles with arrA := { tiles := 1 } } drainB).any (·.arr.last == false) = true := by decide +kernel
theorem test_bridle : arrA (exec (.bridle 0) (running z16Handles bridleB)) (fun x => x.issued == 1 && x.bridles.length == 1 && x.latest.isSome) = true := by
  decide +kernel
theorem test_stream : arrA (exec (.stream 0) (running { z16Handles with arrA := { latest := some stat1, issued := 1 } } streamB))
    (fun x => x.tiles == 1 && x.streams.map (fun st => (st.first, st.last, st.bridlesBefore)) == [(true, true, 1)]) = true := by decide +kernel
theorem test_drain : arrA (exec (.drain 0) (running { z16Handles with arrA := { tiles := 1 } } drainB))
    (fun x => x.tiles == 0 && x.drains == [{ bundle := 0, fmt := 2, t := 2, addr0 := 0, addr1 := 8192 }]) = true := by decide +kernel
theorem test_drain_no_tile : arrA (exec (.drain 0) (running z16Handles drainB)) (fun x => x.drains.map (·.bad) == [0x090e#16]) = true := by decide +kernel

def begunA : ArrayState := { bridles := [{ bundle := 2, stat := stat1 }], issued := 1 }
def streamingA : ArrayState := { begunA with bridles := [{ bundle := 2, stat := stat1, started := true }], begun := 1, streams := [stream1] }
def landingA : ArrayState := { issued := 1, begun := 1, landing := [stream1], tailFull := true }
def drainingA : ArrayState := { tailFull := true, tail := [(0, 0x3f800000)], drains := [{ bundle := 4, fmt := 2, t := 2, addr0 := 64, addr1 := 8256 }] }
theorem witness_ArraysWorkInOrder : begunA.nextStat = none ∧ (begunA.bridles.map (·.started)) = [false] ∧ (streamingA.bridles.map (·.started)) = [true]
    ∧ stream1.started = false ∧ stream1.bridlesBefore ≤ streamingA.begun ∧ streamingA.taken < stream1.bridlesBefore
    ∧ stream1.last = true ∧ landingA.tailFull = true ∧ landingA.drains = [] ∧ ({ landingA with tailFull := false } : ArrayState).landing = [stream1]
    ∧ drainingA.tailFull = true ∧ drainingA.drains ≠ [] ∧ (64 + 8192 ≤ 8256) := by decide +kernel
theorem test_bridleStart : arrA (exec (.bridleStart 0 0) (withA begunA)) (fun x => x.begun == 1 && x.bridles.all (·.started)) = true := by decide +kernel
theorem test_bridleComplete : arrA (exec (.bridleComplete 0 0) (withA streamingA)) (fun x => x.bridles == [] && x.nextStat == some stat1) = true := by
  decide +kernel
theorem test_streamStart : arrA (exec (.streamStart 0 0) (withA streamingA)) (fun x => x.liveStat == some stat1 && x.taken == 1) = true := by decide +kernel
theorem test_streamComplete : arrA (exec (.streamComplete 0 0) (withA { streamingA with streams := [{ stream1 with started := true }] }))
    (fun x => x.streams == [] && x.landing.length == 1) = true := by decide +kernel
theorem test_productsLanded_tail_full : after (exec (.productsLanded 0 0) (withA landingA)) (fun c => c.arrA.landing == [] && c.run == .idle) = true := by
  decide +kernel
/-- 2.0 · 1.0 + 1.5 · 2.0 = 5.0 at row 0, column 0; row 0, column 1 adds nothing. -/
theorem test_products : stream1.term 0 = some 0x40a00000 ∧ stream1.term 1 = none := by decide +kernel
theorem test_drainComplete : after (exec (.drainComplete 0 0) (withA drainingA)) (fun c => c.store.byte 64 == 0x38 && c.arrA.drains == []
    && (c.treg 2).fmt == 2) = true := by decide +kernel
theorem test_drain_z16 : drainBytes 1 0x3f800000 = [0x00, 0x3f] := by decide +kernel

/-! ### The span -/

/-- The accepted fields of the span commands on `spanned`: extents 0 and 1 are mapped, 2 is not. -/
def mapF : List (Nat × Nat) := [(0x10, 0x400000), (0x18, 1), (0x1d, 1), (0x1e, 3)]
def extF : List (Nat × Nat) := [(0x10, 0x200000), (0x18, 1)]
def tileF : List (Nat × Nat) := [(0x10, 0x4000), (0x18, 1)]
def poisoned : State := spanned.setTile 0 2 { fresh := false, poisoned := true }
theorem witness_SpanCommands : begins 0x30 spanned mapF = true ∧ begins 0x31 spanned extF = true ∧ begins 0x32 spanned (extF ++ [(0x1d, 4)]) = true
    ∧ begins 0x33 spanned (tileF ++ [(0x1f, 1)]) = true ∧ begins 0x34 spanned tileF = true ∧ begins 0x35 spanned extF = true := by decide +kernel
theorem test_map : ok (exec (.map pf) (given spanned (cmd 0x30 mapF)))
    (fun t => statuses t == [0] && t.extent 0 2 == some { owner := 0, mode := 1, trim := 3 } && t.extent 0 1 == some { owner := 0 }) = true := by
  decide +kernel
theorem test_map_mapped : answers 0x30 (.map pf) spanned [(0x10, 0x200000), (0x18, 2)] = [0x0310] := by decide +kernel
theorem test_unmap : ok (exec (.unmap pf) (given poisoned (cmd 0x31 [(0x18, 1)])))
    (fun t => statuses t == [] && t.extent 0 0 == none && t.tile 0 2 == {} && t.spn.jobs.map (·.kind) == [.unmap]) = true := by decide +kernel
theorem test_unmap_range : answers 0x31 (.unmap pf) spanned [(0x10, 0x1000), (0x18, 1)] = [0x0316] := by decide +kernel
theorem test_mode : ok (exec (.mode ⟨pf, []⟩) (given spanned (cmd 0x32 (extF ++ [(0x1d, 4)])))) (fun t => statuses t == [0] && (t.extent 0 1).any (·.isSealed)) = true := by
  decide +kernel
theorem test_mode_poison : answers 0x32 (.mode ⟨pf, []⟩) poisoned [(0x18, 1), (0x1d, 4)] = [0x0320, 0x0318] := by decide +kernel
theorem test_hint : ok (exec (.hint ⟨pf, []⟩) (given spanned (cmd 0x33 (tileF ++ [(0x1f, 1)])))) (fun t => statuses t == [0] && (t.tile 0 2).hint == some 1) = true := by
  decide +kernel
theorem test_hint_no_place : answers 0x33 (.hint ⟨pf, []⟩) spanned (tileF ++ [(0x1f, 3)]) = [0x0315] := by decide +kernel
theorem test_scrub : ok (exec (.scrub pf) (given poisoned (cmd 0x34 tileF))) (fun t => t.tile 0 2 == {} && t.spn.jobs.length == 1) = true := by decide +kernel
theorem test_scrub_unmapped : answers 0x34 (.scrub pf) base tileF = [0x0313] := by decide +kernel
theorem test_rehome : ok (exec (.rehome pf) (given (spanned.setTile 0 2 { fresh := false }) (cmd 0x35 [(0x18, 1)])))
    (fun t => (t.tile 0 2).moving == some false && statuses t == []) = true := by decide +kernel
theorem test_rehome_poison : ok (exec (.rehome pf) (given poisoned (cmd 0x35 [(0x18, 1)]))) (fun t => statuses t == [0x0320, 0x0318] && (t.part 0).poisonRead) = true := by
  decide +kernel
theorem test_rehome_empty : answers 0x35 (.rehome pf) spanned extF = [0] := by decide +kernel
theorem witness_MappingsAndScrubs : SMap.wf none spanned.spn.extents = true ∧ SMap.wf Tile.blank poisoned.spn.tiles = true
    ∧ (poisoned.tile 0 2).nearCore = none ∧ (∀ e ∈ [0, 2147483647], e < 2 ^ 31) := by decide +kernel

/-- Core 0 with a `tcopy` in flight to or from slot 2. -/
def accessing (s : State) (o : SpanOp) : State := s.setCore 0 { run := .running, gen := some 1, ops := [{ bundle := 3, span := o, ready := false }] }
def slot2w : SpanOp := .write 0x4000 { payload := [(0, 7)] } false
/-- One and two symbol errors in the first and second codewords of a tile, which the code corrects (R317). -/
def fewErrors : CodeErrs := [(0, [(5, 1)]), (1, [(0, 3), (67, 9)])]
def slot2r : SpanOp := .read 0x4000 64 0
def withTile (t : Tile) : State := spanned.setTile 0 2 t
theorem witness_SpanServes :
    ((accessing spanned slot2w).core 0).spanDue 0 = some { bundle := 3, span := slot2w, ready := false } ∧ (accessing spanned slot2w).partOf 0 = some 0
    ∧ (accessing spanned slot2w).writeStatus 0 0x4000 = (0, some (⟨0, { owner := 0 }, false⟩, .plain)) ∧ base.addrRef 0 0x4000 = none
    ∧ ((base.setExtent 1 0 (some { owner := 1 })).setExtent 0 0 (some { owner := 1, ro := true })).addrRef 0 0x4000 = some ⟨1, { owner := 1 }, true⟩
    ∧ (poisoned.tile 0 2).poisoned = true ∧ poisoned.isPort 0 2 = false ∧ spanned.nearPoison (spanned.tile 0 2) = false
    ∧ ((accessing spanned slot2r).core 0).writePoison 64 8192 = false
    ∧ ((withTile { fresh := false, moving := some true }).tile 0 2).moving = some true
    ∧ (withTile { fresh := false, hint := some 1 }).hintOf 0 2 ((withTile { fresh := false, hint := some 1 }).tile 0 2) = 1
    ∧ (65536 ≤ ({ part0 with reads := 65536 } : Part).reads) ∧ spanned.spn.ready = true ∧ spanned.spn.imbal = false ∧ spanned.su.rails = true
    ∧ 11 ∉ spanned.spn.throttled := by decide +kernel
theorem test_spanWriteAccept_unmapped : after (exec (.spanWriteAccept 0 0) (accessing base slot2w)) (fun c => c.ops.map (fun o => (o.ready, o.status)) == [(true, 0x090b#16)])
    = true := by decide +kernel
theorem test_spanReadComplete : after (exec (.spanReadComplete 0 0 []) (accessing (withTile { fresh := false, data := { payload := [(0, 7)] } }) slot2r))
    (fun c => c.store == [(64, 7)] && c.ops.map (·.ready) == [true]) = true := by decide +kernel
theorem test_spanReadComplete_poisoned : ok (exec (.spanReadComplete 0 0 []) (accessing poisoned slot2r))
    (fun t => (t.core 0).ops.map (·.status) == [0x090c#16] && (t.part 0).poisonRead) = true := by decide +kernel
theorem test_migrationComplete : ok (exec (.migrationComplete 0 2 []) (withTile { fresh := false, moving := some true }))
    (fun t => (t.tile 0 2).tier2 && (t.tile 0 2).moving == none) = true := by decide +kernel
theorem test_letSinkTimeout : ok (exec (.letSinkTimeout 0 2) (withTile { fresh := false, hint := some 1 })) (fun t => (t.tile 0 2).moving == some true) = true := by
  decide +kernel
theorem test_useCountHalving : ok (exec (.useCountHalving 0) ((withTile { uses := 7 }).setPart 0 { part0 with reads := 65540 }))
    (fun t => (t.tile 0 2).uses == 3 && (t.part 0).reads == 4) = true := by decide +kernel
theorem test_patrol : ok (exec (.patrol .passStart) spanned) (fun t => t.spn.patrol) = true := by decide +kernel
theorem test_decodeTile : decodeTile false 512 fewErrors = { corrected := 2 } ∧ decodeTile true 512 [(9, [(0, 1)])] = {} := by decide +kernel
theorem test_imbalanceRaise : ok (exec (.imbalanceRaise 11 true) spanned) (fun t => t.spn.imbal && t.spn.imbStack == 11 && statuses t == [0x0321]) = true := by
  decide +kernel
theorem test_imbalanceClear : ok (exec .imbalanceClear { spanned with spn := { spanned.spn with imbal := true, imbStack := 3 } })
    (fun t => !t.spn.imbal && t.spn.imbStack == 0) = true := by decide +kernel
theorem test_stackThrottle : ∃ st, exec (.stackThrottle 4) spanned = .next
    (({ spanned with spn := { spanned.spn with throttled := [4] } } : State).spnEvent 3 { status := st, words := [4] }) := ⟨_, rfl⟩
theorem test_stackThrottleEnd : ok (exec (.stackThrottleEnd 4) { spanned with spn := { spanned.spn with throttled := [4, 5] } })
    (fun t => t.spn.throttled == [5]) = true := by decide +kernel
/-- A scrub waited for. -/
def scrubbing (k : JobKind) : State :=
  { spanned with spn := { spanned.spn with jobs := [{ kind := k, ref := some (cmdRef pf 1 (cmd 0x34 tileF)), part := 0 }] } }
theorem test_scrubComplete : ok (exec (.scrubComplete 0) (scrubbing .scrub)) (fun t => statuses t == [0] && t.spn.jobs == []) = true := by decide +kernel
theorem test_scrubComplete_moves : same (exec (.scrubComplete 0) (scrubbing .hint)) (scrubbing .hint) = true := by decide +kernel
/-- A whole-slot write takes effect, and another slot stays. -/
theorem test_spanWriteAccept : ok (exec (.spanWriteAccept 0 0) (accessing spanned slot2w))
    (fun t => (t.tile 0 2).data == { payload := [(0, 7)] } && !(t.tile 0 2).fresh && (t.tile 0 3).fresh) = true := by decide +kernel

/-! ### Sequences, gondolas, reels and the batcher -/

/-- Slot 10 holds a page table of one page, at extent 1, which is latent. -/
def seqState : State := (spanned.setExtent 0 1 (some { owner := 0, mode := 2 })).setTile 0 10
  { data := { payload := Mem.writeNat [] 0 8 0x200000 }, fresh := false }
def openF : List (Nat × Nat) := [(0x10, 0x14000), (0x18, 77), (0x1d, 1), (0x1e, 3), (0x20, 128), (0x22, 1), (0x24, 1), (0x26, 0xffff), (0x2c, 256)]
def openSeq : SeqSlot := { ident := 77, st := .opened, latent := 1, width := 128, layers := 1, pages := 1, gondola := 0xffff, table := 0x14000, limit := 256 }
def withSeq (x : SeqSlot) : State := seqState.setSeq 3 x
def closeF : List (Nat × Nat) := [(0x18, 77), (0x1e, 3)]
theorem witness_SequencesLive : begins 0x38 seqState openF = true ∧ begins 0x39 (withSeq openSeq) closeF = true
    ∧ begins 0x38 (withSeq openSeq) openF = true ∧ SMap.wf Core.blank (withSeq openSeq).cores = true ∧ ((withSeq openSeq).seq 3).st = .opened
    ∧ SMap.wf SeqSlot.blank ((withSeq openSeq).core 0).slots = true ∧ (seqState.seq 3).st ≠ .opened
    ∧ ((withSeq { openSeq with st := .scrubbing }).seq 3).st = .scrubbing := by decide +kernel
theorem test_seqOpen : ok (exec (.seqOpen ⟨pf, []⟩) (given seqState (cmd 0x38 openF))) (fun t => statuses t == [0] && t.seq 3 == openSeq) = true := by decide +kernel
theorem test_seqOpen_page : answers 0x38 (.seqOpen ⟨pf, []⟩) (seqState.setExtent 0 1 (some { owner := 0 })) openF = [0x0915] := by decide +kernel
theorem test_seqClose : ok (exec (.seqClose pf) (given (withSeq openSeq) (cmd 0x39 closeF)))
    (fun t => (t.seq 3).st == .scrubbing && (t.seq 3).closed && statuses t == []) = true := by decide +kernel
theorem test_seqClose_other : answers 0x39 (.seqClose pf) (withSeq openSeq) [(0x18, 78), (0x1e, 3)] = [0x0916] := by decide +kernel
theorem test_sequenceScrubComplete : ok (exec (.sequenceScrubComplete 3) (withSeq { openSeq with st := .scrubbing, endStatus := 0x0912 }))
    (fun t => (t.seq 3).st == .free && statuses t == [0x0912]) = true := by decide +kernel

/-- A manifest of one entry in slot 2 that names Z16 tiles in slots 3 and 4, under binding set 5. -/
def manifest1 : Mem :=
  ((((((((((Mem.writeNat [] 0 4 0x4d47475a).writeNat 4 2 1).writeNat 6 2 1).writeNat 0x10 1 5).writeNat 0x84 2 4).writeNat 0x88 4 1).writeNat
    0x8c 4 1).writeNat 0x90 8 0x6000).writeNat 0x98 8 0x8000).writeNat 0xa8 4 1).writeNat 0xac 4 1
def gonState : State :=
  let s := ((spanned.setTile 0 2 { data := { payload := manifest1 }, fresh := false }).setTile 0 3 { data := { fmt := 4 }, fresh := false }).setTile 0 4
    { data := { fmt := 4 }, fresh := false }
  { s with sec := { s.sec with bindings := [{ ident := 5, w := 0, members := 1, kcv := 0 }] } }
def moorF : List (Nat × Nat) := [(0x10, 0x4000), (0x20, 16383), (0x22, 0xffff), (0x30, 1)]
def onlyF : List (Nat × Nat) := [(0x20, 16383)]
def d1 : Gondola := { st := .moored, version := 1, manifest := 0x4000, reel := 0xffff }
def withGon (d : Gondola) : State := gonState.setGondola 16383 d
def swapF : List (Nat × Nat) := [(0x10, 0x4000), (0x20, 16383), (0x30, 2)]
def swapping : Gondola :=
  { d1 with swapTo := some { manifest := 0x4000, version := 2, bindSet := 5, base := 0, digest := 9, ref := cmdRef pf 1 (cmd 0x41 swapF) } }
theorem witness_GondolasLive : begins 0x40 gonState moorF = true ∧ begins 0x41 (withGon d1) swapF = true ∧ begins 0x42 (withGon d1) onlyF = true
    ∧ begins 0x43 (withGon d1) onlyF = true ∧ begins 0x44 (withGon d1) [(0x10, 1)] = true ∧ gonOnly (cmd 0x42 onlyF) = true
    ∧ gonOnly (cmd 0x42 (onlyF ++ [(0x10, 1)])) = false ∧ (gonState.gondola 16383).st = .free ∧ d1.termMet = true
    ∧ ({ d1 with termKind := 1, termCount := 2 } : Gondola).termMet = false ∧ (withGon d1).placed 0 0x4000 = true
    ∧ ({ d1 with refs := 1 } : Gondola).refs + d1.retRefs ≠ 0 ∧ SMap.wf Gondola.blank (withGon d1).gon.table = true := by decide +kernel
theorem test_moor : ok (exec (.moor ⟨pf, []⟩) (given gonState (cmd 0x40 moorF))) (fun t => (t.gondola 16383).st == .mooring && statuses t == []) = true := by
  decide +kernel
theorem test_moor_format : answers 0x40 (.moor ⟨pf, []⟩) (gonState.setTile 0 4 { fresh := false }) moorF = [0x0511] := by decide +kernel
theorem test_moorComplete : ok (exec (.moorComplete 16383) (withGon { d1 with st := .mooring })) (fun t => (t.gondola 16383).st == .moored) = true := by
  decide +kernel
theorem test_swap : ok (exec (.swap ⟨pf, []⟩) (given (withGon d1) (cmd 0x41 swapF))) (fun t => (t.gondola 16383).swapTo.isSome && statuses t == []) = true := by
  decide +kernel
theorem test_swap_version : answers 0x41 (.swap ⟨pf, []⟩) (withGon { d1 with version := 2 }) swapF = [0x0515] := by decide +kernel
theorem test_swapComplete : ok (exec (.swapComplete 16383) (withGon swapping))
    (fun t => (t.gondola 16383).version == 2 && (t.gondola 16383).hasRetiring && (t.gondola 16383).retVersion == 1 && (t.gondola 16383).swapTo == none)
    = true := by decide +kernel
theorem test_evict : ok (exec (.evict pf) (given (withGon d1) (cmd 0x42 onlyF))) (fun t => (t.gondola 16383).st == .releasing && statuses t == []) = true := by
  decide +kernel
theorem test_evict_cut : ok (exec (.evict pf) (given (withGon { d1 with refs := 1 }) (cmd 0x42 onlyF)))
    (fun t => (t.gondola 16383).st == .cut && statuses t == [0x0519]) = true := by decide +kernel
theorem test_revoke : ok (exec (.revoke pf) (given (withGon { d1 with refs := 1 }) (cmd 0x43 onlyF))) (fun t => (t.gondola 16383).st == .withdrawing) = true := by
  decide +kernel
theorem test_revoke_free : answers 0x43 (.revoke pf) gonState onlyF = [0x0517] := by decide +kernel
theorem test_baseSet : ok (exec (.baseSet pf) (given (withGon d1) (cmd 0x44 [(0x10, 1)])))
    (fun t => (t.gondola 16383).st == .stranded && t.gon.base == 1 && (t.ring pf).entries.map (·.detail) == [1#384]) = true := by decide +kernel
theorem test_retiringRelease : ok (exec (.retiringRelease 16383) (withGon { d1 with hasRetiring := true, retManifest := 0x4000, retVersion := 7 }))
    (fun t => !(t.gondola 16383).hasRetiring && (t.tile 0 3).fresh && (t.tile 0 2).fresh && statuses t == [0x0535]) = true := by decide +kernel
theorem test_gondolaReleaseComplete : ok (exec (.gondolaReleaseComplete 16383) (withGon { d1 with st := .releasing }))
    (fun t => t.gondola 16383 == {} && (t.tile 0 4).fresh && t.gon.event == 2) = true := by decide +kernel

def reelF : List (Nat × Nat) := [(0x10, 0x100000), (0x18, 2), (0x1c, 1), (0x22, 5)]
def reel5 : Reel := { isOpen := true, base := 0x100000, slots := 2, hours := 1 }
def withReel : State := spanned.setReel 5 reel5
/-- A record written to the reel's append port, in slot 129. -/
def appending : State := accessing withReel (.write 0x102000 { payload := [(20, 9)] } false)
/-- Partition 0 with a batcher whose step list is slot 0 and whose step-done slot is slot 1, and its cores' channel 15 one deep. -/
def batcher0 : Batcher := { on := true, timeUs := 1, window := 1, blocked := false }
def batching (b : Batcher) (x : SeqSlot) : State :=
  (((withSeq x).setPart 0 { part0 with batcher := b }).modCores (coresOf 1) fun _ c => { c with chans := [(15, { depth := 1 })] })
def feedF : List (Nat × Nat) := [(0x2a, 3), (0x2c, 77), (0x34, 256)]
def fedSeq : SeqSlot := { openSeq with fed := some 256 }
def stepping : Batcher := { batcher0 with stepRunning := true, stepNo := 4, entries := [{ slot := 3, ident := 77, gondola := 0xffff, retiring := false, tokens := 256 }] }
/-- Core 0 writes the step-done tile of a step number: 200 tokens stored for the one entry. -/
def ending (no : Nat) : State :=
  (batching stepping { openSeq with inStep := true }).modCore 0 fun c => { c with
    ops := [{ bundle := 3, span := .write 0x2000 { payload := Mem.writeNat (Mem.writeNat [] 0 4 no) 64 2 200 } false, ready := false }] }
theorem witness_ReelsAndStepsRun : begins 0x45 spanned reelF = true ∧ begins 0x46 withReel [(0x22, 5)] = true
    ∧ begins 0x47 (batching batcher0 openSeq) feedF = true ∧ begins 0x48 spanned [(0x10, 0x200000), (0x1c, 1000000), (0x34, 1536), (0x36, 1)] = true
    ∧ begins 0x48 spanned [] = true ∧ ((appending.writeDue 0 0).map fun x => x.2.2.2.1) = some (.reelPort 5)
    ∧ ((appending.reel 5).full 0) = false ∧ ({ reel5 with times := [0, 0] } : Reel).full 3599999 = true
    ∧ ({ reel5 with times := [0, 0] } : Reel).full 3600000 = false
    ∧ (batching batcher0 fedSeq).readySeqs 0 = [3] ∧ (batching batcher0 fedSeq).stepMay 0 = true ∧ (batching batcher0 openSeq).stepMay 0 = false
    ∧ ((batching batcher0 fedSeq).coresIn 0).all (fun k => decide (1 ≤ (((batching batcher0 fedSeq).core k).chan 15).depth)) = true
    ∧ (((ending 4).writeDue 0 0).map fun x => x.2.2.2.1) = some .stepDone := by decide +kernel
theorem test_reelOpen : ok (exec (.reelOpen pf) (given spanned (cmd 0x45 reelF)))
    (fun t => t.reel 5 == reel5 && (t.tile 0 128).data.payload.readNat 16 4 == 2 && t.spn.jobs.length == 1 && statuses t == []) = true := by decide +kernel
theorem test_reelOpen_slots : answers 0x45 (.reelOpen pf) spanned [(0x10, 0x100000), (0x22, 5)] = [0x0521] := by decide +kernel
theorem test_reelClose : ok (exec (.reelClose pf) (given withReel (cmd 0x46 [(0x22, 5)]))) (fun t => t.reel 5 == {} && t.spn.jobs.length == 1) = true := by
  decide +kernel
theorem test_reelClose_named : answers 0x46 (.reelClose pf) (withReel.setGondola 3 { st := .moored, reel := 5 }) [(0x22, 5)] = [0x0522] := by decide +kernel
theorem test_reelAppend : exec (.reelAppend 0 0) appending = .next ((appending.append 5 { payload := [(20, 9)] }).accepted 0 0
    { bundle := 3, span := .write 0x102000 { payload := [(20, 9)] } false, ready := false } 0x102000 { payload := [(20, 9)] }) := rfl
theorem test_feed : ok (exec (.feed pf) (given (batching batcher0 openSeq) (cmd 0x47 feedF))) (fun t => statuses t == [0] && (t.seq 3).fed == some 256) = true := by
  decide +kernel
theorem test_feed_twice : answers 0x47 (.feed pf) (batching batcher0 fedSeq) feedF = [0x0531] := by decide +kernel
theorem test_batchCfg : ok (exec (.batchCfg pf) (given spanned (cmd 0x48 [(0x10, 0x200000), (0x1c, 1000000), (0x34, 1536), (0x36, 1)])))
    (fun t => statuses t == [0] && (t.part 0).batcher.on && (t.part 0).batcher.window == 1536 && (t.part 0).batcher.grouped) = true := by decide +kernel
theorem test_batchCfg_stops : ok (exec (.batchCfg pf) (given (batching batcher0 openSeq) (cmd 0x48 []))) (fun t => !(t.part 0).batcher.on) = true := by decide +kernel
theorem test_windowTimeExpiry : ok (exec (.windowTimeExpiry 0) (batching batcher0 fedSeq)) (fun t => (t.part 0).batcher.timeUp.isSome) = true := by decide +kernel
theorem test_stepStart : ok (exec (.stepStart 0) (batching batcher0 fedSeq))
    (fun t => (t.part 0).batcher.stepRunning && (t.part 0).batcher.stepNo == 1 && (t.part 0).batcher.toSend.length == 8 && (t.seq 3).inStep
      && (t.tile 0 0).data.payload.readNat 0 6 == 3 + 0xffff * 2 ^ 16 + 255 * 2 ^ 40) = true := by decide +kernel
theorem test_stepStart_depth : ok (exec (.stepStart 0) ((batching batcher0 fedSeq).setCore 7 {})) (fun t => statuses t == [0x0533]
    && !(t.part 0).batcher.stepRunning) = true := by decide +kernel
theorem test_stepDoneWrite : ok (exec (.stepDoneWrite 0 0) (ending 4)) (fun t => !(t.part 0).batcher.stepRunning && (t.seq 3).n == 200 && !(t.seq 3).inStep
    && (t.ring pf).entries.map (·.kind) == [4#8]) = true := by decide +kernel
theorem test_stepDoneWrite_other : ok (exec (.stepDoneWrite 0 0) (ending 5)) (fun t => (t.part 0).batcher.stepRunning && statuses t == [0x0534]) = true := by
  decide +kernel

/-! ### Links -/

/-- An image whose only section is a site configuration for rack X 2, rack Y 3. -/
def siteImage : Mem := (((Mem.writeNat [] 6 2 1).writeNat 0x100 2 0x10).writeNat 0x104 4 0x1000).writeNat 0x108 4 4 |>.writeNat 0x1000 2 0x302
/-- Links driven, at rack (2, 3), board 0, site 0, with one port as given. -/
def linkBase : State := { base with su := { base.su with linksDriven := true, owner := true, image := siteImage } }
def linked (p : Nat) (x : Port) : State := linkBase.setPort p x
/-- The frames that have left, newest first: their port, class, flags, numbers and payload length. -/
def frames (t : State) : List (Nat × Nat × Nat × Bool × Nat × Nat) := t.outbox.filterMap fun o => match o with
  | .frame p h w _ => let f := frameOf h w; some (p, f.ftype, f.cls, f.retry, f.seq.toNat, f.payload.length)
  | _ => none
def portIs (p : Nat) (r : Res) (f : Port → Bool) : Bool := ok r fun t => f (t.port p)
def live0 : Port := { st := .up, rxLast := 4 }
def auth0 : Port := { st := .authenticating }
/-- One piece that is a whole chain of three bytes. -/
def lanes8 : List LaneIn := (List.range 8).map fun l => { trained := true, peer := l, inverted := decide (l = 2) }
def piece : List Byte := [0, 0, 3, 0, 7, 8, 9]
/-- The slot-1 chain of the module with serial 7: an owner CA and a link certificate. -/
def peerChain : List Byte := bytesBE 0x3082014c3081d4a003020102020101300a06082a8648ce3d0403033010310e300c060355040513056f776e6572301e170d3730303130313030303030305a170d3439313233313233353935395a3010310e300c060355040513056f776e6572307a301406072a8648ce3d020106092b240303020801010b036200047d3d2e0913ec0325143581feaca36d225a69e9d0b94413f8003cc1066150caf0db5885f91ba45f5cf1e6c7952c8bf702642c741c664a5074a6e393119bdc053231f78386d6d8fb3634dc56d75b9f1a11f7c957350d2147e84af99042ecdecdb2300a06082a8648ce3d040303036700306402300d3ec4dfce2647725100dabea7b5f59f465848a4b4fbb6080ac96ddf237f84f4fbc1247651c2770d2cebab9fd2412dfb02304329ec95ca7620ed9212f3ea608b71c04063e1016a77eaf87bf8378d9f4bb1443ac3e96e5addf8d6ce478c2c5502c0c6308201573081dfa003020102020101300a06082a8648ce3d0403033010310e300c060355040513056f776e6572301e170d3730303130313030303030305a170d3439313233313233353935395a301b311930170603550405131030303030303030303030303030303037307a301406072a8648ce3d020106092b240303020801010b03620004869d5d28e8ccd7171813d50f1839ee72a7c5c5bec7127b45dcfba09b53586ad0f85ce1dfb301a6704978fd7756b0c6e00a5d09a129b684d7eb47e0953d0d00c5202f4f01fda496dae5c50107ff14515fb94d86688e0b3c78f2c742c64032c5be300a06082a8648ce3d040303036700306402306773700fe1c84330e5214b93138eb6621125a14b24fe40a6b98fbb28ac04a042063b62eaf733f77ca86d0f16dd326e03023058a3b5248cba3cf32635605aea92009fc0d27046f5d5eec867cf9b126295d50e3c49aaed636f1297e1a3829374be208f 683
/-- SHA-384 of the owner CA's key. -/
def trustRoot : Nat := 0xf9bef73949afbdb8ad77af5be641503e6780504353e08db1d3c13f067cee25db6d3a6926767661d4dfdbd76cd70d3b93
/-- Its proof to this module, whose own chain and share are empty. -/
def peerProof : List Byte := bytesBE 0x6460f955efdcbf3bf7393081ddf04a64747781bc8956c1e5ff47be522f7f758244ae054e91e8aa160c76dc7302bcf18110cfce627b4f3a368db8a7f0e9126f2418e03acef8e01df3184696dff9232f815f9aaa4b233f113638cf7998e8cd4a45 96
/-- A module whose link trust root is that key's digest, and the peer on port 0 as it is known before its proof. -/
def proving : State := { su := { owner := true, image := (siteImage.writeNat 0x108 4 64).writeNat 0x1010 48 trustRoot } }
def proved : Port :=
  { st := .authenticating, auth := 2, peerChain, peerShare := wordBytes (mkPos 2 3 0 1) ++ (List.range 32).map (BitVec.ofNat 8), claimed := mkPos 2 3 0 1 }
/-- The chain is signed down to the leaf, whose key verifies the proof (R544, R547). -/
theorem witness_proof : proving.proofOk proved peerProof = true := by decide +kernel
theorem witness_no_proof : proving.proofOk { proved with peerChain := [] } peerProof = false := by decide +kernel
theorem witness_PortsTrainAndProve :
    (linked 17 {}).su.linksDriven = true ∧ ((linked 17 {}).port 17).st = .training ∧ (lanesIn lanes8).toNat = 255 ∧ (lanesIn (lanes8.take 4)).toNat % 16 = 15
    ∧ lanesIn [] = 0 ∧ lanesReversed lanes8.reverse = true ∧ lanesIn lanes8.reverse = 255 ∧ (lanesIn (lanes8.map fun l => { l with trained := false })).toNat = 0 ∧ (linked 0 {}).wiringOk 0 (mkPos 2 3 0 1) = true ∧ (linked 0 {}).wiringOk 0 (mkPos 2 3 0 2) = false
    ∧ (linked 14 {}).wiringOk 14 (mkPos 3 3 0 0) = true ∧ (linked 0 { st := .lost }).port 0 ≠ {} ∧ ((linked 0 auth0).port 0).auth = 0
    ∧ (4 ≤ piece.length ∧ piece.length ≤ 604 ∧ natLE (piece.take 2) = ([] : List Byte).length ∧ natLE ((piece.drop 2).take 2) = 3)
    ∧ (linked 0 auth0).takeIdentity 0 2 [] = none ∧ ((List.replicate 36 (0 : Byte)).length = if 14 ≤ 0 then 133 else 36)
    ∧ ((List.replicate 133 (0 : Byte)).length = if 14 ≤ 14 then 133 else 36) ∧ live0.live = true
    ∧ ({ live0 with keyed := true, tx := { count := 2 ^ 40 } } : Port).tx.next = none ∧ linkBase.sec.drbgOk = true := by decide +kernel
theorem test_portPeerless : portIs 17 (exec (.portPeerless 17) (linked 17 {})) (fun x => x.st == .peerless) = true := by decide +kernel
theorem test_signalDetect : portIs 17 (exec (.signalDetect 17) (linked 17 { st := .lost })) (fun x => x.st == .training && x.wasAway) = true := by decide +kernel
theorem test_portTrained : portIs 0 (exec (.portTrained 0 lanes8.reverse (mkPos 2 3 0 1)) (linked 0 {})) (fun x => x.st == .authenticating && x.lanes == 0xff && x.reversed && x.inverted == 4) = true := by
  decide +kernel
theorem test_portTrained_wiring : portIs 0 (exec (.portTrained 0 lanes8 (mkPos 2 3 0 2)) (linked 0 {})) (fun x => x.st == .held && x.status == 0x0401) = true := by
  decide +kernel
theorem test_identityMessage : portIs 0 (exec (.identityMessage 0 1 piece) (linked 0 auth0)) (fun x => x.peerChain == [7, 8, 9] && x.auth == 1) = true := by
  decide +kernel
theorem test_identityMessage_order : portIs 0 (exec (.identityMessage 0 2 []) (linked 0 auth0)) (fun x => x.st == .held && x.status == 0x0403) = true := by
  decide +kernel
theorem test_authTimeout : portIs 0 (exec (.authTimeout 0) (linked 0 auth0)) (fun x => x.st == .held && x.status == 0x0403) = true := by decide +kernel
theorem test_linkWatchdogExpiry : ok (exec (.linkWatchdogExpiry 0) (linked 0 live0)) (fun t => (t.port 0).st == .lost && statuses t == [0x0410]) = true := by
  decide +kernel
theorem test_keyRenewal_early : same (exec (.keyRenewal 14) (linked 14 { live0 with keyed := true })) (linked 14 { live0 with keyed := true }) = true := by
  decide +kernel
theorem test_rekeyMessage : portIs 14 (exec (.rekeyMessage 14 (publicKey 1) 900) (linked 14 { live0 with keyed := true, ownEph := 1 }))
    (fun x => (x.rx.next.map (·.1)) == some 900) = true := by decide +kernel
theorem test_rekeyMessage_no_point : same (exec (.rekeyMessage 14 [1, 2] 900) (linked 14 { live0 with keyed := true, ownEph := 1 }))
    (linked 14 { live0 with keyed := true, ownEph := 1 }) = true := by decide +kernel

/-- The next frame of the reduction class, one that skips a number, and an idle frame. -/
def frame5 : Frame := { ftype := 1, cls := 1, firstF := true, lastF := true, seq := 5, ack := 0xffffffff, payload := [1, 2] }
def idle9 : Frame := { ftype := 0, cls := 0, seq := 9, ack := 0xffffffff }
def kept : Frame := { ftype := 2, cls := 0, seq := 0, payload := [1] }
theorem witness_FramesAndRoutes :
    live0.hears = true ∧ auth0.hears = true ∧ frame5.seq = live0.rxLast + 1 ∧ newer 9 (live0.rxLast + 1) = true ∧ newer 4 live0.rxLast = false
    ∧ ({ live0 with unacked := [kept] } : Port).unacked ≠ [] ∧ (linked 3 { live0 with resends := 16 }).su.linksDriven = true
    ∧ posOk linkBase.me = true ∧ linkBase.me = mkPos 2 3 0 0 ∧ posOk (mkPos 15 15 7 7) = true
    ∧ (((List.range 18).foldl (fun s p => s.setPort p live0) linkBase).live 17) = true := by decide +kernel
/-- A frame as ports 0 to 13 carry it (R397). -/
def carried (f : Frame) : FrameRx := { head := f.head, payload := f.body, check := crcCheck f.head f.body }
/-- A carried frame passes its check on a port of the rack without keys. -/
theorem frameReceive_carried (s : State) (p : Nat) (f g : Frame) (hp : p < 14) (hn : s.portOn p = true) (hh : (s.port p).hears = true)
    (hk : (s.port p).keyed = false) (hf : frameOf f.head f.body = g) :
    exec (.frameReceive p (carried f)) s = .next ((s.countCodeword p {}).takeFrame p g) := by
  have hc (used : List Nat) : fecDecode (codewordErrors used []) = {} := rfl
  have ho : portOk p = true := by simp [portOk]; omega
  simp [exec, execFrameReceive, onUnit, hp, ho, hn, hh, carried, hc, spoiledFrame, Port.unprotect, hk, hf]
theorem test_frameReceive : portIs 3 (exec (.frameReceive 3 (carried frame5)) (linked 3 live0))
    (fun x => x.rxLast == 5 && x.units == [(1, 1, [1, 2])] && x.rx.count == 1) = true := by
  rw [frameReceive_carried _ 3 frame5 frame5 (by decide +kernel) (by decide +kernel) (by decide +kernel) (by decide +kernel) (by decide +kernel)]
  decide +kernel
theorem test_frameReceive_gap : ok (exec (.frameReceive 3 (carried { frame5 with seq := 6 })) (linked 3 live0))
    (fun t => (t.port 3).rxLast == 4 && frames t == [(3, 0, 0, true, 0, 0)]) = true := by
  rw [frameReceive_carried _ 3 _ { frame5 with seq := 6 } (by decide +kernel) (by decide +kernel) (by decide +kernel) (by decide +kernel) (by decide +kernel)]
  decide +kernel
theorem test_retryTimeout : ok (exec (.retryTimeout 3) (linked 3 { live0 with unacked := [kept] }))
    (fun t => (t.port 3).resends == 1 && (t.port 3).retries == 1 && frames t == [(3, 2, 0, false, 0, 1)]) = true := by decide +kernel
theorem test_retryTimeout_lost : portIs 3 (exec (.retryTimeout 3) (linked 3 { live0 with unacked := [kept], resends := 16 })) (fun x => x.st == .lost) = true := by
  decide +kernel
theorem test_idleFrameTimer : ok (exec (.idleFrameTimer 3) (linked 3 { live0 with txNext := 7 })) (fun t => frames t == [(3, 0, 0, false, 7, 0)]
    && (t.port 3).txNext == 7) = true := by decide +kernel
theorem test_creditMessage : portIs 3 (exec (.creditMessage 3 1 200) (linked 3 { live0 with creditRed := 100, creditTrf := 5 }))
    (fun x => x.creditRed == 256 && x.creditTrf == 5) = true := by decide +kernel
/-- Partition 0 with a re-shard that has sent one tile to the destination slot 6. -/
def outTile : WinchOut := { pos := mkPos 2 3 0 1, dst := 0xc000, tile := {} }
def reshard0 : Reshard := { ref := cmdRef pf 1 (cmd 0x5d []), epoch := 2, spoolGen := 1, plan := [], incoming := 0, staging := 0, stagingSlots := 0, geo := {}, joining := false
                            leaving := false, sent := [outTile] }
def ctx0 : Ctx := { geo := {}, version := 3, linkStep := 9 }
theorem test_refusalMessage : ok (exec (.refusalMessage 0 0x0265 0 6 ⟨(mkPos 2 3 0 1), (mkPos 2 3 0 0)⟩) ((linked 0 live0).setPart 0 { part0 with ctx := some { ctx0 with reshard := some reshard0 } }))
    (fun t => ((t.part 0).ctx.bind (·.reshard)).map (·.refused) == some [outTile]) = true := by decide +kernel
/-- Dimension order: rack X the shorter way, then rack Y, board and site; a detour where a board port is down. -/
theorem test_routes : let s := (List.range 18).foldl (fun s p => s.setPort p live0) linkBase
    (s.nextPort (mkPos 11 3 0 1), s.nextPort (mkPos 2 1 0 1), s.nextPort (mkPos 2 3 5 1), s.nextPort (mkPos 2 3 0 3), s.nextPort (mkPos 2 3 0 0),
      (s.setPort 2 {}).nextPort (mkPos 2 3 0 3)) = (some 15, some 17, some 11, some 2, none, some 0) := by decide +kernel

/-! ### Reduction -/

def me : W32 := mkPos 2 3 0 0
def peer1 : W32 := mkPos 2 3 0 1
def onBoard1 : W32 := mkPos 2 3 1 0
/-- Every port up, partition 0 with extents 0 and 1, its post port in slot 2. -/
def net : State :=
  (((List.range 18).foldl (fun s p => s.setPort p live0) linkBase).setExtent 0 0 (some { owner := 0 })).setExtent 0 1 (some { owner := 0 })
    |>.setPart 0 { part0 with postPort := some 0x4000 }
/-- A commit-token bucket of this module alone, and one of board 0 and board 1 whose owner is on board 1. -/
def bk : BktDef := { part := 0, mode := 4, epoch := 1, first := 0, chunks := 1, lastElems := 1, owner := me, x0 := 2, nx := 1, y0 := 3, ny := 1, boards := 1, sites := 1
                     landChan := 5, landRank := 0, landCount := 1 }
def bk2 : BktDef := { bk with owner := onBoard1, boards := 3 }
def defF : List (Nat × Nat) := [(0x10, 4095), (0x13, 4), (0x14, 1), (0x1c, 1), (0x1e, 1), (0x20, 0x302), (0x24, 0x01030102), (0x28, 1), (0x29, 1), (0x2a, 5), (0x2e, 1)]
def withBk (l : List BktDef) : State := net.setBucket 4095 l
def withRed (l : List BktDef) (r : Reduction) : State := { withBk l with lnk := { (withBk l).lnk with reductions := [r] } }
def sum1 : ChunkIn := { key := 0, origin := me, enc := 4, count := 1, data := Mem.writeNat [] 0 8 0xff }
def red1 : Reduction := { bucket := 4095, step := 9, chunk := 0, stage := 1, loc := me, sum := some sum1 }
def red5 : Reduction := { red1 with stage := 5, sent := true }
def substF : List (Nat × Nat) := [(0x10, 4095), (0x18, 9), (0x20, 0x302), (0x24, 0x302)]
/-- A contribution to the token bucket: its descriptor of 32 bytes in the side data. -/
def post (kind : Nat) : TileData := { payload := Mem.writeNat [] 0 8 0xff0f, side := (((Mem.writeNat [] 0 1 kind).writeNat 2 2 4095).writeNat 4 4 9).writeNat 0xa 2 1, sideLen := 32 }
/-- A transfer to the site of `peer1`. -/
def postAway : TileData := { side := ((Mem.writeNat [] 0 1 2).writeNat 0xc 4 peer1.toNat), sideLen := 32 }
def posting (s : State) (kind : Nat) : State := accessing s (.write 0x4000 (post kind) false)
def unit4 (stage : Nat) : ChunkUnit :=
  { bucket := 4095, encoding := 4, stage, epoch := 1, step := 9, chunk := 0, count := 1, origin := me, backup := false, flags := 0, selDigest := 0, payload := Mem.writeNat [] 0 8 0xff, dst := me }
/-- A transfer for core 0, channel 5, of partition 0. -/
def transfer0 : TransferUnit :=
  { gather := false, origin := peer1, tag := 0, dst := me, part := 0, core := 0, chan := 5, bucket := 0, word0 := 1, word1 := 2, tile := { payload := [(0, 3)] } }
def held0 : State := (net.setCore 0 { chans := [(5, { depth := 1 })], n := 8 })
def delivering : State := (withRed [bk] red5).setCore 0 { chans := [(5, { depth := 1 })], n := 8 }
theorem witness_ReductionRuns :
    begins 0x50 net defF = true ∧ begins 0x51 (withBk [bk]) [(0x10, 4095)] = true ∧ begins 0x52 (withBk [bk]) substF = true ∧ begins 0x53 net [(0x30, 0x6000)] = true
    ∧ begins 0x54 net [(0x10, 4095), (0x18, 9)] = true ∧ (withBk [bk, { bk with epoch := 2, first := 5 }]).unfinished 4095 (fun _ => true) = false
    ∧ (((posting (withBk [bk]) 0).writeDue 0 0).map fun x => x.2.2.2.1) = some .postPort ∧ (posting (withBk [bk]) 0).winching 0 = false
    ∧ (match (withBk [bk]).postUnit 0 (post 0) with | .took _ => true | _ => false) = true
    ∧ (match net.postUnit 0 (post 0) with | .invalid => true | _ => false) = true
    ∧ (match ((List.range 18).foldl (fun s p => s.setPort p {}) net).postUnit 0 postAway with | .wait => true | _ => false) = true
    ∧ (net.defFor 4095 9).isNone = true ∧ (withBk [bk]).defFor 4095 9 = some bk ∧ (withBk [bk]).resultRole bk 4095 9 0 = some me
    ∧ bk.placeOf 0 me = some ⟨1, me, 0⟩ ∧ (withBk [bk]).acting 0 4095 9 me = me ∧ (bk.keys ((withBk [bk]).awaits bk) 1 me).contains 0 = true
    ∧ ((withRed [bk2] red1).sumWaiting 4095 9 0 1).isSome = true ∧ bk2.nextPlace 1 me = some ⟨2, onBoard1, 0⟩
    ∧ ((withRed [bk] { red5 with sent := false }).sumWaiting 4095 9 0 5).isSome = true ∧ (delivering.deliveryWaiting bk 4095 9 0).isSome = true
    ∧ delivering.takesDeliveries 0 = true ∧ delivering.rankCore 0 0 = some 0 ∧ (delivering.linkDeliver 0 5 9 0 {}).isSome = true
    ∧ held0.transferGoal transfer0 = (me, 0) ∧ held0.landing transfer0 = .core 0 0 ∧ held0.landing { transfer0 with core := 8 } = .drop 0
    ∧ (held0.transferGoal { transfer0 with dst := peer1 }).1 = peer1 := by decide +kernel
theorem test_bktDef : ok (exec (.bktDef pf) (given net (cmd 0x50 defF))) (fun t => statuses t == [0] && t.bucket 4095 == [bk]) = true := by decide +kernel
theorem test_bktDef_twice : answers 0x50 (.bktDef pf) (withBk [bk]) defF = [0x0432] := by decide +kernel
theorem test_bktDel : ok (exec (.bktDel pf) (given (withRed [bk] { red1 with done := true }) (cmd 0x51 [(0x10, 4095)])))
    (fun t => statuses t == [0] && t.bucket 4095 == [] && t.lnk.reductions == []) = true := by decide +kernel
theorem test_bktDel_busy : answers 0x51 (.bktDel pf) (withRed [bk] red1) [(0x10, 4095)] = [0x0433] := by decide +kernel
theorem test_bktSubst : ok (exec (.bktSubst pf) (given (withBk [bk]) (cmd 0x52 substF)))
    (fun t => statuses t == [0] && (t.part 0).substs == [{ bucket := 4095, served := me, serving := me, step := 9 }]) = true := by decide +kernel
theorem test_bktSubst_position : answers 0x52 (.bktSubst pf) (withBk [bk]) [(0x10, 4095), (0x20, 0x1000302), (0x24, 0x302)] = [0x0436] := by decide +kernel
theorem test_postCfg : ok (exec (.postCfg pf) (given net (cmd 0x53 [(0x14, 77), (0x30, 0x6000)])))
    (fun t => statuses t == [0] && (t.part 0).postPort == some 0x6000 && (t.part 0).jobTag == 77) = true := by decide +kernel
theorem test_postCfg_unowned : answers 0x53 (.postCfg pf) net [(0x30, 0x600000)] = [0x0430] := by decide +kernel
def recorded : State := { net with lnk := { net.lnk with digests := [{ bucket := 4095, step := 9, port := 3, takenN := 2 }] } }
theorem test_digestRead : ok (exec (.digestRead pf) (given recorded (cmd 0x54 [(0x10, 4095), (0x18, 9), (0x30, 0x6000)])))
    (fun t => statuses t == [0] && (t.tile 0 3).data.payload.readNat 0 8 == 4095 + 2 ^ 16 + 9 * 2 ^ 32 && (t.tile 0 3).data.payload.readNat 64 12 == 3 + 2 * 2 ^ 64) = true := by
  decide +kernel
theorem test_digestRead_none : answers 0x54 (.digestRead pf) net [(0x10, 4095), (0x18, 9)] = [0x0434] := by decide +kernel
theorem test_bucketDefRetire : ok (exec (.bucketDefRetire 4095) (withBk [bk, { bk with epoch := 2, first := 5 }])) (fun t => (t.bucket 4095).map (·.epoch) == [2#32]) = true := by
  decide +kernel
theorem test_postWrite : ok (exec (.postWrite 0 0) (posting (withBk [bk]) 0))
    (fun t => (t.core 0).ops.map (·.ready) == [true] && ((t.reduction 4095 9 0 5 me).bind (·.sum)).any (fun c => c.data.readNat 0 8 == 0xff0f)) = true := by decide +kernel
theorem test_postWrite_invalid : ok (exec (.postWrite 0 0) (posting (withBk [bk]) 7)) (fun t => statuses t == [0x0435] && t.lnk.reductions == []) = true := by
  decide +kernel
theorem test_chunkReceive : ok (exec (.chunkReceive 3 (unit4 5)) (withBk [bk])) (fun t => (t.reduction 4095 9 0 5 me).isSome && statuses t == []) = true := by
  decide +kernel
theorem test_chunkReceive_epoch : ok (exec (.chunkReceive 3 { unit4 0 with epoch := 2 }) (withBk [bk])) (fun t => statuses t == [0x0420] && t.lnk.reductions == []) = true := by
  decide +kernel
theorem test_sumSend : ok (exec (.sumSend 4095 9 0 1) (withRed [bk2] red1)) (fun t => (t.reduction 4095 9 0 1 me).any (fun r => r.sent && r.done)
    && (t.port 7).creditRed == 255 && (t.port 7).unacked.length == 1) = true := by decide +kernel
theorem test_chunkDeliver : ok (exec (.chunkDeliver 4095 9 0) delivering) (fun t => (t.reduction 4095 9 0 5 me).any (fun r => r.delivered == 1 && r.done)
    && t.mesh.map (fun m => (m.src, m.dst, m.chan, m.word0)) == [(288, 0, 5, 9#32)]) = true := by decide +kernel
theorem test_transferDeliver : ok (exec (.transferDeliver transfer0) held0) (fun t => t.mesh.map (fun m => (m.dst, m.chan, m.word1)) == [(0, 5, 2#64)]) = true := by
  decide +kernel
theorem test_transferDeliver_tag : ok (exec (.transferDeliver { transfer0 with tag := 1 }) held0) (fun t => t.mesh == [] && statuses t == [0x0436]) = true := by decide +kernel

/-! ### Training and re-sharding -/

def geo1 : Geometry := { base := 0x200000, blocks := 1, landSlots := 1, landed := 1 }
def ctx1 : Ctx := { geo := geo1, version := 3, linkStep := 5, tokenBucket := 1, clip := 0x3f800000, ceil := 0x7f800000 }
def withCtx (x : Ctx) : State := net.setPart 0 { part0 with ctx := some x }
def ctxIs (r : Res) (p : Ctx → Bool) : Bool := ok r fun t => ((t.part 0).ctx).any p
def trainF : List (Nat × Nat) :=
  [(0x10, 0x200000), (0x18, 1), (0x1e, 1), (0x28, 3), (0x2c, 5), (0x32, 1), (0x34, 1), (0x38, 0x3f800000), (0x3c, 0x7f800000)]
def store1 : TandemStore := { base := 0x200000, geo := { geo1 with landSlots := 0, landed := 0 }, mirrored := peer1 }
def withStore : State := net.setPart 0 { part0 with stores := [store1] }
def restoreF : List (Nat × Nat) := [(0x24, 0x1000302), (0x28, 3)]
def restoring : Ctx := { ctx1 with restoring := [(cmdRef pf 1 (cmd 0x5c restoreF), 3, peer1)] }
/-- Core 0 writes the step port: link step 5, and the update-done mark. -/
def marking (x : Ctx) (step : Nat) : State := accessing (withCtx x) (.write 0x200000 { payload := Mem.writeNat [] 0 8 (step + 2 ^ 32) } false)
theorem witness_TrainingSteps :
    begins 0x58 net trainF = true ∧ begins 0x5a (withCtx { ctx1 with st := .interrupted }) [] = true ∧ begins 0x5b (withCtx ctx1) [(0x28, 3), (0x2c, 9)] = true
    ∧ begins 0x59 net [(0x10, 0x200000), (0x18, 1), (0x1d, 2), (0x24, 0x1000302)] = true ∧ begins 0x5c (withCtx ctx1) restoreF = true
    ∧ (withCtx { ctx1 with st := .interrupted }).ctxIn 0 [.interrupted] = some { ctx1 with st := .interrupted }
    ∧ ctx1.holds 3 = true ∧ ctx1.holds 4 = false ∧ ({ ctx1 with st := .voting } : Ctx).holds 4 = true
    ∧ ((withCtx restoring).part 0).ctx = some restoring ∧ (restoring.geo.bankSlots 1).length = 3
    ∧ (((marking { ctx1 with st := .updating } 5).writeDue 0 0).map fun x => x.2.2.2.1) = some .stepPort
    ∧ (Mem.writeNat [] 0 8 (5 + 2 ^ 32)).read 32 0 = ctx1.linkStep ∧ (Mem.writeNat [] 0 8 (5 + 2 ^ 32)).byte 4 = 1
    ∧ withStore.shut 0 = false ∧ ((withStore.part 0).stores.find? fun t => decide (t.mirrored = peer1)) = some store1 ∧ 2 < store1.bankSize
    ∧ ((withStore.part 0).stores.find? fun t => decide (t.mirrored = onBoard1)) = none ∧ (ctx1.gate 0).1 = 2
    ∧ ({ ctx1 with st := .copying, tandem := some peer1, tandemK := true } : Ctx).tandem = some peer1 := by decide +kernel
theorem test_trainCfg : ok (exec (.trainCfg pf) (given net (cmd 0x58 trainF))) (fun t => statuses t == [0] && (t.part 0).ctx == some ctx1
    && (t.tile 0 257).data.payload.readNat 0 10 == 3 + 5 * 2 ^ 32 + 2 ^ 72) = true := by decide +kernel
theorem test_trainCfg_state : answers 0x58 (.trainCfg pf) (withCtx { ctx1 with st := .voting }) trainF = [0x0242] := by decide +kernel
theorem test_stepRedo : ctxIs (exec (.stepRedo pf) (given (withCtx { ctx1 with st := .interrupted }) (cmd 0x5a []))) (fun x => x.st == .updating) = true := by
  decide +kernel
theorem test_stepRedo_state : answers 0x5a (.stepRedo pf) (withCtx ctx1) [] = [0x0242] := by decide +kernel
theorem test_stepRevert : ctxIs (exec (.stepRevert pf) (given (withCtx { ctx1 with st := .voting, tandemK1 := true }) (cmd 0x5b [(0x28, 4), (0x2c, 9)])))
    (fun x => x.st == .reducing && x.version == 4 && x.linkStep == 9 && x.tandemK) = true := by decide +kernel
theorem test_stepRevert_version : answers 0x5b (.stepRevert pf) (withCtx ctx1) [(0x28, 4), (0x2c, 9)] = [0x0243] := by decide +kernel
theorem test_tandemCfg : ok (exec (.tandemCfg pf) (given net (cmd 0x59 [(0x10, 0x200000), (0x18, 1), (0x1d, 2), (0x24, 0x1000302)])))
    (fun t => statuses t == [0] && (t.part 0).stores == [store1]) = true := by decide +kernel
theorem test_tandemCfg_no_context : answers 0x59 (.tandemCfg pf) net [(0x18, 1), (0x24, 0x1000302)] = [0x0242] := by decide +kernel
theorem test_tandemRestore : ok (exec (.tandemRestore pf) (given (withCtx ctx1) (cmd 0x5c restoreF)))
    (fun t => ((t.part 0).ctx.any fun x => !x.restoring.isEmpty) && (t.port 0).unacked.length == 1 && statuses t == []) = true := by decide +kernel
theorem test_tandemRestoreComplete_none : ok (exec (.tandemRestoreComplete 0 none) (withCtx restoring))
    (fun t => statuses t == [0x0244] && ((t.part 0).ctx.any fun x => x.restoring.isEmpty)) = true := by decide +kernel
theorem test_tandemRestoreComplete : ok (exec (.tandemRestoreComplete 0 (some [{ payload := [(0, 1)] }, {}, {}])) (withCtx { restoring with st := .faulted }))
    (fun t => statuses t == [0] && ((t.part 0).ctx.any fun x => x.st == .reducing) && (t.tile 0 261).data.payload == [(0, 1)]) = true := by decide +kernel
theorem test_updateDoneMark : ctxIs (exec (.updateDoneMark 0 0) (marking { ctx1 with st := .updating } 5)) (fun x => x.st == .copying) = true := by decide +kernel
theorem test_updateDoneMark_step : ok (exec (.updateDoneMark 0 0) (marking { ctx1 with st := .updating } 6)) (fun t => statuses t == [0x0255]) = true := by
  decide +kernel
theorem test_tandemCopyReceive : ok (exec (.tandemCopyReceive 0 peer1 0 3 2 { payload := [(0, 1)] }) withStore)
    (fun t => (t.tile 0 262).data.payload == [(0, 1)] && (t.part 0).stores.map (fun x => (x.ver1, x.got1)) == [(3#32, [2])]) = true := by decide +kernel
theorem test_tandemCopyReceive_unknown : ok (exec (.tandemCopyReceive 0 onBoard1 0 3 2 {}) withStore) (fun t => statuses t == [0x0253]) = true := by decide +kernel
/-- A transfer-class unit of one frame, for this module or on its way. -/
def arrives (l : List Byte) : FrameRx := carried { frame5 with cls := 2, payload := l }
theorem test_frameReceive_on_its_way : ok (exec (.frameReceive 3 (arrives (tandemBytes kindAck 0 0 (mkPos 2 3 0 4) peer1 3 0 {}))) net)
    (fun t => (t.port 3).units == [] && frames t == [(3, 2, 0, false, 0, 4), (0, 1, 2, false, 0, 28)]) = true := by
  rw [arrives, frameReceive_carried _ 3 _ _ (by decide +kernel) (by decide +kernel) (by decide +kernel) (by decide +kernel) rfl]
  decide +kernel
theorem test_frameReceive_request : ok (exec (.frameReceive 0 (arrives (tandemBytes kindRequest 0 0 peer1 me 3 0 {})))
    (net.setPart 0 { part0 with stores := [{ store1 with ver1 := 3, got1 := [0, 1, 2] }] }))
    (fun t => (t.port 0).units == [] && (t.port 0).unacked.length == 43) = true := by
  rw [arrives, frameReceive_carried _ 0 _ _ (by decide +kernel) (by decide +kernel) (by decide +kernel) (by decide +kernel) rfl]
  decide +kernel
theorem test_tandemAcknowledge : ctxIs (exec (.tandemAcknowledge 0 peer1 4) (withCtx { ctx1 with st := .copying, tandem := some peer1, tandemK := true }))
    (fun x => x.st == .voting && x.tandemK1) = true := by decide +kernel
theorem test_gate_clips : ctx1.gate 0x4010000000000000 = (1, 0x3f000000, 0x4000000000000000) := by decide +kernel

/-- A re-shard record in slot 2 with a plan of one tile in slot 3. -/
def record1 : Mem := (((((((Mem.writeNat [] 0 6 0x1_5352475a).writeNat 8 8 (2 + 2 ^ 32)).writeNat 0x10 8 0x6000).writeNat 0x18 4 1).writeNat 0x2c 4 1).writeNat 0x34 4 1).writeNat
  0x38 2 1).writeNat 0x40 8 0x200000
def plan1 : PlanEntry := { src := 0x10000, dst := 0x12000, count := 1, pos := peer1 }
def planned : State := ((withCtx ctx1).setTile 0 2 { data := { payload := record1 }, fresh := false }).setTile 0 3
  { data := { payload := ((Mem.writeNat [] 0 8 0x10000).writeNat 8 8 0x12000).writeNat 16 8 (1 + 0x1000302 * 2 ^ 32) }, fresh := false }
def shard (l : List PlanEntry) : Reshard := { ref := cmdRef pf 1 (cmd 0x5d []), epoch := 2, spoolGen := 1, plan := l, incoming := 1, staging := 0x20000, stagingSlots := 1
                                              geo := geo1, joining := false, leaving := false }
def winchOf (r : Reshard) : State := withCtx { ctx1 with st := .winching, reshard := some r }
def reshIs (r : Res) (p : Reshard → Bool) : Bool := ctxIs r fun x => x.reshard.any p
def tile1 : WinchTile := { port := 0, part := 0, pos := peer1, tag := 0, epoch := 2, version := 3, linkStep := 5, dst := 0x12000, tile := { payload := [(0, 9)] } }
def finished : State :=
  (winchOf { shard [] with incoming := 0, partDone := true }).setPart 0 { part0 with
    boundaryGen := some 1, ctx := some { ctx1 with st := .winching, reshard := some { shard [] with incoming := 0, partDone := true } } }
theorem witness_WinchMovesTiles :
    begins 0x5d planned [(0x10, 0x4000)] = true ∧ begins 0x5e net [(0x1d, 1), (0x24, 0x1000302)] = true ∧ ((winchOf (shard [plan1])).winch 0).isSome = true
    ∧ planTile [plan1] 0 = some (8, 9, peer1) ∧ planTile [plan1] 1 = none ∧ (winchOf (shard [plan1])).me = me
    ∧ ((winchOf (shard [plan1])).sendWinch 0 ctx1 (shard [plan1]) { pos := peer1, dst := 0x12000, tile := {} }).isSome = true
    ∧ ((winchOf (shard [])).placeTile 0 (shard []) 9 {}).isSome = true ∧ ((winchOf (shard [])).freeUnit 0 2 (winchBytes (winchOf (shard [])).me tile1)).winchHere tile1 = true
    ∧ net.winchHere { tile1 with tag := 1 } = false ∧ (net.winch 0).isNone = true ∧ joinDiffers ctx1 (shard []) tile1 = false
    ∧ (finished.part 0).reached 1 = true ∧ (((finished.winchPart 0).winch 0).any fun e => e.2.partDone) = true ∧ finished.shut 0 = false := by decide +kernel
theorem test_reshard : reshIs (exec (.reshard ⟨pf, []⟩) (given planned (cmd 0x5d [(0x10, 0x4000)])))
    (fun r => r.epoch == 2 && r.spoolGen == 1 && r.plan == [plan1] && r.geo == geo1) = true := by decide +kernel
theorem test_reshard_record : answers 0x5d (.reshard ⟨pf, []⟩) planned [(0x10, 0x8000)] = [0x0260] := by decide +kernel
theorem test_reserveSet : ok (exec (.reserveSet pf) (given net (cmd 0x5e [(0x1d, 1), (0x24, 0x1000302)]))) (fun t => statuses t == [0] && (t.part 0).reserves == [peer1]) = true := by
  decide +kernel
theorem test_reserveSet_absent : answers 0x5e (.reserveSet pf) net [(0x24, 0x1000302)] = [0x0267] := by decide +kernel
theorem test_winchSend : ok (exec (.winchSend 0) (winchOf (shard [plan1]))) (fun t => ((t.part 0).ctx.bind (·.reshard)).any (fun r => r.left == 1 && r.sent.length == 1)
    && (t.port 0).unacked.length == 14) = true := by decide +kernel
/-- A tile for a slot of this module whose own tile has left is stored there: here a fresh one, of zeros. -/
theorem test_winchSend_local : ok (exec (.winchSend 0) ((winchOf (shard [{ plan1 with pos := me }])).setTile 0 9 { data := { payload := [(0, 4)] }, fresh := false }))
    (fun t => (t.readTile 0 9).payload == []) = true := by decide +kernel
theorem test_winchTileArrive : ok (exec (.winchTileArrive tile1) (winchOf { shard [] with incoming := 2 }))
    (fun t => (t.tile 0 9).data.payload == [(0, 9)] && ((t.part 0).ctx.bind (·.reshard)).any (fun r => r.taken == 1)) = true := by decide +kernel
theorem test_winchTileArrive_staged : ok (exec (.winchTileArrive { tile1 with dst := 0x10000 }) (winchOf (shard [plan1])))
    (fun t => (t.tile 0 16).data.payload == [(0, 9)] && ((t.part 0).ctx.bind (·.reshard)).any (fun r => r.staged == [(0x10000#64, 16)])) = true := by decide +kernel
theorem test_winchResend : reshIs (exec (.winchResend 0) (winchOf { shard [] with refused := [outTile] })) (fun r => r.refused == []) = true := by decide +kernel
theorem test_reshardComplete : ok (exec (.reshardComplete 0) finished) (fun t => statuses t == [0] && ((t.part 0).ctx.any fun x => x.st == .reducing && x.reshard.isNone)) = true := by
  decide +kernel

/-! ### Partitions and the ripcord -/

/-- `base` with partition 0 in a state. -/
def part0In (st : PartState) : State := base.setPart 0 { part0 with st }
/-- A second partition, number 1, on kite 1, with a quarter of each share. -/
def createF : List (Nat × Nat) := [(0x24, 1), (0x25, 16), (0x26, 16), (0x27, 16), (0x28, 2)]
def resizeF : List (Nat × Nat) := [(0x25, 8), (0x26, 8), (0x27, 8), (0x28, 3)]
def saveF : List (Nat × Nat) := [(0x10, 0x1000), (0x20, 1)]
def imageF : List (Nat × Nat) := [(0x10, 0x1000), (0x20, 1), (0x24, 1), (0x25, 16), (0x26, 16), (0x27, 16), (0x28, 2)]
/-- One segment of 64 MiB. -/
def seg64 : List (W64 × W64) := [(0x10000, 0x4000000)]
def freezing : State := base.setPart 0 { part0 with st := .freezing, freezeRef := some (cmdRef pf 1 (cmd 0x20 [])) }
def saving : State := base.setPart 0 { part0 with st := .saving, busyRef := some (cmdRef pf 1 (cmd 0x21 [])) }
/-- Partition 1 being restored on kite 1, and an image of no bytes. -/
def beingRestored : State := base.setPart 1 { st := .restoring, busyRef := some (cmdRef pf 1 (cmd 0x23 [])), restoring := some (2, 16, 16, 16) }
def noImage : Image := { bytes := [], control := default, cores := [] }
/-- The link down: the PF cannot post. -/
def dark (s : State) : State := { s with hif := { s.hif with linkUp := false } }
theorem witness_PartitionsLive :
    begins 0x18 base createF = true ∧ begins 0x19 base resizeF = true ∧ begins 0x1a base [] = true ∧ begins 0x20 base [] = true
    ∧ begins 0x22 (part0In .frozen) [] = true ∧ begins 0x21 (part0In .frozen) saveF = true ∧ begins 0x23 base imageF = true
    ∧ (freezing.part 0).st = .freezing ∧ freezing.stopped 0 = true ∧ freezing.snapping 0 = false ∧ (saving.part 0).st = .saving
    ∧ (beingRestored.part 1).st = .restoring ∧ (beingRestored.part 1).restoring = some (2, 16, 16, 16)
    ∧ (beingRestored.part 1).busyRef = some (cmdRef pf 1 (cmd 0x23 [])) ∧ (saving.part 0).busyRef = some (cmdRef pf 1 (cmd 0x21 []))
    ∧ saving.canPost 0 = true ∧ beingRestored.canPost 0 = true ∧ (dark saving).canPost 0 = false ∧ (dark beingRestored).canPost 0 = false
    ∧ ((dark saving).part 0).st = .saving ∧ ((dark beingRestored).part 1).st = .restoring ∧ imgFormOk noImage.bytes = false := by decide +kernel
theorem test_partCreate : ok (exec (.partCreate pf) (given base (cmd 0x18 createF)))
    (fun t => statuses t == [0] && (t.part 1).st == .running && (t.part 1).kites == 2 && (t.core 15).rank == 7) = true := by decide +kernel
theorem test_partCreate_kites : answers 0x18 (.partCreate pf) base [(0x24, 1), (0x25, 16), (0x28, 3)] = [0x0221] := by decide +kernel
theorem test_partResize : ok (exec (.partResize pf) (given base (cmd 0x19 resizeF)))
    (fun t => statuses t == [] && (t.part 0).hbm == 8 && (t.part 0).kites == 1 && (t.part 0).resize.map (·.kites) == some 3#32) = true := by decide +kernel
theorem test_partResize_frozen : answers 0x19 (.partResize pf) (part0In .frozen) resizeF = [0x0225] := by decide +kernel
theorem test_partDelete : ok (exec (.partDelete pf) (given base (cmd 0x1a [])))
    (fun t => statuses t == [] && (t.part 0).st == .deleting && t.spn.jobs.map (·.kind) == [.partDelete]) = true := by decide +kernel
theorem test_partDelete_mapped : answers 0x1a (.partDelete pf) (((base.setPart 1 part0).setExtent 0 5 (some { owner := 0 })).setExtent 1 5 (some { owner := 0, ro := true })) []
    = [0x0226] := by decide +kernel
theorem test_freeze : ok (exec (.freeze pf) (given base (cmd 0x20 []))) (fun t => statuses t == [] && (t.part 0).st == .freezing) = true := by decide +kernel
theorem test_freeze_job : answers 0x20 (.freeze pf) (base.setPart 0 { part0 with ctx := some { ctx1 with st := .updating } }) [] = [0x0231] := by decide +kernel
theorem test_freezeComplete : ok (exec (.freezeComplete 0) freezing) (fun t => statuses t == [0] && (t.part 0).st == .frozen) = true := by decide +kernel
theorem test_thaw : ok (exec (.thaw pf) (given (part0In .frozen) (cmd 0x22 []))) (fun t => statuses t == [0] && (t.part 0).st == .running) = true := by
  decide +kernel
theorem test_save : ok (exec (.save pf seg64) (given (part0In .frozen) (cmd 0x21 saveF))) (fun t => statuses t == [] && (t.part 0).st == .saving) = true := by
  decide +kernel
theorem test_save_short : answers 0x21 (.save pf [(0x10000, 0x1000)]) (part0In .frozen) saveF = [0x0232] := by decide +kernel
theorem test_saveComplete_failed : ok (exec (.saveComplete 0 ⟨false, []⟩) saving) (fun t => statuses t == [0x0104] && (t.part 0).st == .frozen) = true := by
  decide +kernel
theorem test_saveComplete_waits : same (exec (.saveComplete 0 ⟨true, []⟩) (dark saving)) (dark saving) = true := by decide +kernel
theorem test_restore : ok (exec (.restore pf) (given base (cmd 0x23 imageF))) (fun t => statuses t == [] && (t.part 1).st == .restoring) = true := by
  decide +kernel
theorem test_restore_exists : answers 0x23 (.restore pf) base [(0x10, 0x1000), (0x20, 1), (0x25, 16), (0x28, 2)] = [0x0230] := by decide +kernel
theorem test_restoreComplete_form : ok (exec (.restoreComplete 1 (some noImage)) beingRestored) (fun t => statuses t == [0x0237] && (t.part 1).st == .none) = true := by
  decide +kernel
theorem test_restoreComplete_unread : ok (exec (.restoreComplete 1 none) beingRestored) (fun t => statuses t == [0x0104]) = true := by decide +kernel


/-! ### Security -/

/-- Binding set 1, and `spanned` with it in the table and tenant envelope 5 of partition 0 derived from it. -/
def bind1 : Binding := { ident := 1, w := 7, members := 1, kcv := 2 }
def bound : State := { spanned with sec := { spanned.sec with bindings := [bind1] } }
def enveloped : State := bound.setEnv 0 5 (some { key := 9, bindSet := some 1 })
def withOp (s : State) (x : HostOp) : State := { s with hif := { s.hif with hostOps := [x] } }
def refOf (op : Nat) : CmdRef := cmdRef pf 1 (cmd op [])
/-- A binding record of one member, whose serial number is given: its form alone is right. -/
def record (serial : Nat) : List Byte :=
  ((((((Mem.writeNat [] 0 4 0x5242475a).writeNat 4 2 1).writeNat 8 4 1).writeNat 0x10 16 1).writeNat 0x20 1 4).writeNat 256 8 serial).toList 0 320
/-- An import: a segment list of one entry, which names no bytes or 4,096; the stream is zeros. -/
def importing (tiles : Nat) : State := withOp enveloped (.importTiles (refOf 0x65) 0 5 0x7000 1 tiles)
def noBytes : List Byte := List.replicate 16 0
def badSeg : List Byte := 1#8 :: List.replicate 15 0
/-- The entry of a poisoned tile of slot 0, which no owner imports (R555). -/
def poisonedEntry : SpanEntry := { addr := 0, units := 0, fmt := 0, sideLen := 0, word := 0x40, crc := 0, stored := [] }
/-- A binding record for serial 0 and the identity private key 3: set 1, W the bytes 1 to 32. -/
def goodRecord : List Byte := bytesBE 0x5a4742520100000001000000000000000100000000000000000000000000000004318ccbf708397f07aba57e45a1b99b3da92b638fab9b5123cb8050cb12ff55d02ca04884153f3ca5be9a6fa4d102fdcc06c64153906e5540a6f5562626e4cf07a0a7709206e67fcd6519b9cb144a5af68a892df80129727a5f0c4d7c799bdd7a000000000000000000000000000000cbb304d9b12d4bd242f470abfb06d692199e85844a5694fcf173f78050a8d28276b8cd7a3717612ef940126d6815882d8e17764d8ec18c67c3fd0d98cd0bb57e00000000000000000000000000000000000000000000000000000000000000000000000000000000000000000000000000000000000000000000000000000000451323843d8fc6a46d14dfb087e3ab9dbf80f805d736f781ce612599cec3b90b42b1027014493fac0000000000000000 320
/-- The module that the record names, and W. -/
def member : State := { base with sec := { base.sec with identity := some 3 } }
def recordW : List Byte := (List.range 32).map fun i => BitVec.ofNat 8 (i + 1)
theorem witness_KeysAndRecords :
    begins 0x60 base [(0x18, 320)] = true ∧ begins 0x61 bound [(0x20, 1)] = true ∧ begins 0x62 base [(0x1e, 5)] = true
    ∧ begins 0x63 bound [(0x1e, 5), (0x20, 1)] = true ∧ begins 0x64 enveloped [(0x1e, 5)] = true ∧ begins 0x65 enveloped [(0x18, 1), (0x1e, 5)] = true
    ∧ begins 0x66 base [(0x1d, 1)] = true ∧ begins 0x67 bound [(0x20, 1)] = true ∧ begins 0x68 base [(0x1d, 1)] = true
    ∧ (withOp base (.bind (refOf 0x60) 0x7000 320)).canPost 0 = true ∧ (record 7).length = 320
    ∧ recordOk (record 7) = true ∧ recordOk (List.replicate 320 0) = false ∧ (base.fuses.serial = 0) ∧ base.recordKey (record 7) = none ∧ base.recordKey (record 0) = some none
    ∧ member.binding 1 = none ∧ goodRecord.length = 320 ∧ recordOk goodRecord = true ∧ bound.binding 1 = some bind1 ∧ base.binding 1 = none ∧ base.sec.bindings.length < 256
    ∧ enveloped.env 0 5 = some { key := 9, bindSet := some 1 } ∧ 16 * 1 ≤ noBytes.length ∧ noBytes.length = segTotal noBytes 1 ∧ badSeg.length = segTotal badSeg 1
    ∧ ((segList noBytes 1).all fun e => e.1 % 4096 == 0 && e.2 % 4096 == 0) = true ∧ ((segList badSeg 1).all fun e => e.1 % 4096 == 0 && e.2 % 4096 == 0) = false
    ∧ spanEntries 0 (noBytes.drop 16) = some [] ∧ spanEntries 1 (noBytes.drop 16) = none ∧ ([] : List SpanEntry).all (enveloped.importOk 0 5) = true
    ∧ spanEntries 1 poisonedEntry.bytes = some [poisonedEntry] ∧ [poisonedEntry].all (enveloped.importOk 0 5) = false := by decide +kernel
/-- The member's key unwraps from the record, whose MAC and key check value hold under it (R549, R550). -/
theorem witness_record_key : member.recordKey goodRecord = some (some recordW) := by decide +kernel
theorem witness_record_mac : recordMacOk goodRecord recordW = true ∧ recordMacOk (record 0) recordW = false := by decide +kernel
theorem test_bind : ok (exec (.bind pf) (given base (cmd 0x60 [(0x18, 320), (0x10, 0x7000)])))
    (fun t => t.hif.hostOps.length == 1 && statuses t == []) = true := by decide +kernel
theorem test_bind_length : answers 0x60 (.bind pf) base [(0x18, 321)] = [0x0610] := by decide +kernel
theorem test_bind_not_a_member : ok (exec (.hostMemoryAccessComplete 0 ⟨some (record 7), []⟩) (withOp base (.bind (refOf 0x60) 0x7000 320)))
    (fun t => statuses t == [0x0616]) = true := by decide +kernel
theorem test_unbind : ok (exec (.unbind pf) (given bound (cmd 0x61 [(0x20, 1)]))) (fun t => statuses t == [0] && t.sec.bindings == []) = true := by
  decide +kernel
theorem test_unbind_used : answers 0x61 (.unbind pf) enveloped [(0x20, 1)] = [0x0618] := by decide +kernel
theorem test_envCreate : ok (exec (.envCreate pf) (given base (cmd 0x62 [(0x1e, 5)]))) (fun t => statuses t == [0] && (t.env 0 5).isSome) = true := by
  decide +kernel
theorem test_envCreate_twice : answers 0x62 (.envCreate pf) enveloped [(0x1e, 5)] = [0x0611] := by decide +kernel
theorem test_envBind_unknown : answers 0x63 (.envBind pf) base [(0x1e, 5), (0x20, 1)] = [0x0612] := by decide +kernel
theorem test_envBind : ok (exec (.envBind pf) (given bound (cmd 0x63 [(0x1e, 5), (0x20, 1)])))
    (fun t => statuses t == [0] && (t.env 0 5).map (·.bindSet) == some (some 1)) = true := by decide +kernel
theorem test_envDestroy : ok (exec (.envDestroy pf) (given enveloped (cmd 0x64 [(0x1e, 5)]))) (fun t => statuses t == [0] && t.env 0 5 == none) = true := by
  decide +kernel
theorem test_importTiles : ok (exec (.importTiles pf) (given enveloped (cmd 0x65 [(0x18, 1), (0x1e, 5)])))
    (fun t => t.hif.hostOps.length == 1 && statuses t == []) = true := by decide +kernel
theorem test_import_short : ok (exec (.hostMemoryAccessComplete 0 ⟨some noBytes, []⟩) (importing 1)) (fun t => statuses t == [0x061e]) = true := by decide +kernel
theorem test_import_none : ok (exec (.hostMemoryAccessComplete 0 ⟨some noBytes, []⟩) (importing 0)) (fun t => statuses t == [0]) = true := by decide +kernel
theorem test_lock : ok (exec (.lock pf) (given base (cmd 0x66 [(0x1d, 1), (0x38, 2), (0x10, 0x4000)])))
    (fun t => statuses t == [0] && (t.part 0).locked && (t.part 0).share == 2 && (t.part 0).readSlot == 0x4000) = true := by decide +kernel
theorem test_lock_shared : answers 0x66 (.lock pf) (((base.setPart 1 part0).setExtent 0 5 (some { owner := 0 })).setExtent 1 5 (some { owner := 0, ro := true }))
    [(0x1d, 1)] = [0x061b] := by decide +kernel
theorem test_imageBind : ok (exec (.imageBind pf) (given bound (cmd 0x67 [(0x20, 1)]))) (fun t => statuses t == [0] && (t.part 0).imageSet == some 1) = true := by
  decide +kernel
theorem test_attest_short : ok (exec (.attest pf) (given base (cmd 0x68 []))) (fun t => (t.ring pf).entries.map (fun e => e.detail.setWidth 64) == [656]
    && statuses t == [0x061d]) = true := by decide +kernel

/-- A responder with one session, an owner's or not; the running image has security version 3. -/
def sessioned (owner : Bool) : State :=
  { base with
    hif := { base.hif with flit := true }
    sec := { base.sec with sessions := [{ owner, path := .smbus }, { path := .doe }], chain1 := [1] }
    fuses := { base.fuses with ownerLock := owner }
    su := { base.su with image := Mem.writeNat [] 16 4 3, imageLen := 8192 } }
/-- A function whose stream is Secure and carries a copy of a partition that requires IDE. -/
def secureCopy : State :=
  ((base.setPart 0 { part0 with ideReq := true }).setFunc 1 { busMaster := true, ideKey := some 1, ideSecure := true })
def withReadings : State := (spanned.setPart 0 { part0 with readSlot := 0x2000, readNo := 4, since := [(0, 9), (1, 1)] })
theorem witness_RequestsOfOwnersAndPeers :
    base.su.awake = true ∧ base.sec.ready = true ∧ (sessioned false).fuses.ownerLock = false ∧ (sessioned false).sec.sessions ≠ [] ∧ base.sec.sessions = []
    ∧ (sessioned true).ownerSession = true ∧ (sessioned true).fuses.floor < 3 ∧ 3 ≤ securityVersion (sessioned true).su.image ∧ base.ownerSession = false
    ∧ (sessioned false).sessionBy .smbus = true ∧ (sessioned false).sessionBy .doe = true ∧ (sessioned false).hif.flit = true ∧ base.hif.flit = false
    ∧ base.sessionBy .smbus = false ∧ chainSigned [1] = false ∧ (sessioned true).fuses.ownerLock = true ∧ (sessioned true).fuses.floor < 3 ∧ 64 < 65
    ∧ (sessioned true).sec.chain1 ≠ [] ∧ base.sec.drbgOk = true ∧ (base.measurement 4).isSome = true ∧ base.hif.linkUp = true ∧ base.su.perstN = true
    ∧ fnOk 32 = true ∧ (base.func 1).ideKey = none ∧ (secureCopy.func 1).ideKey ≠ none ∧ (secureCopy.func 1).ideSecure = true
    ∧ (withReadings.addrRef 0 (withReadings.part 0).readSlot).isSome = true ∧ (withReadings.part 0).readSlot ≠ 0
    ∧ ((withReadings.addrRef 0 (withReadings.part 0).readSlot).map (·.ro)) = some false := by decide +kernel
theorem test_ownerProvision : ok (exec (.ownerProvision true 77) (sessioned false)) (fun t => t.fuses.ownerLock && t.fuses.owner == 77) = true := by
  decide +kernel
theorem test_ownerProvision_host : ok (exec (.ownerProvision false 77) (sessioned false)) (fun t => !t.fuses.ownerLock && t.sec.authFail == 1) = true := by
  decide +kernel
theorem test_floorAdvance : ok (exec (.floorAdvance 3) (sessioned true)) (fun t => t.fuses.floor == 3 && t.fuses.floorBits == 7) = true := by decide +kernel
theorem test_floorAdvance_above : ok (exec (.floorAdvance 4) (sessioned true)) (fun t => t.fuses.floor == 0 && t.sec.authFail == 1) = true := by decide +kernel
theorem test_setCertificate : ok (exec (.setCertificate 1 [5]) ((sessioned true).setPort 3 { st := .held, status := 0x0403 }))
    (fun t => t.sec.chain1 == [5] && (t.port 3).st == .training) = true := by decide +kernel
theorem test_spdmRequest_end : ok (exec (.spdmRequest (.endSession 0)) (sessioned true)) (fun t => t.sec.sessions == [{ path := .doe }]) = true := by decide +kernel
theorem test_spdmRequest_chain : ok (exec (.spdmRequest (.keyExchange .doe [] [1])) base) (fun t => t.sec.sessions == [] && t.sec.authFail == 1) = true := by
  decide +kernel
theorem test_spdmRequest_badAuth : ok (exec (.spdmRequest .badAuth) base) (fun t => t.sec.authFail == 1) = true := by decide +kernel
theorem test_secEntropyFail : ok (exec .secEntropyFail base) (fun t => !t.sec.drbgOk && t.sec.event == 1) = true := by decide +kernel
theorem test_secEntropyRecover : ok (exec .secEntropyRecover { base with sec := { base.sec with drbgOk := false } }) (fun t => t.sec.drbgOk) = true := by
  decide +kernel
theorem test_query : ok (exec (.query 1) (sessioned true)) (fun t => t.outbox == [.ideKm 1 0 true]) = true := by decide +kernel
theorem test_keyProg : ok (exec (.keyProg ⟨1, 7⟩) (sessioned true)) (fun t => (t.func 1).ideKey == some 7) = true := by decide +kernel
theorem test_kSetGo : ok (exec (.kSetGo 1) ((sessioned true).setFunc 1 { ideKey := some 1 })) (fun t => (t.func 1).ideSecure) = true := by decide +kernel
theorem test_kSetGo_without_key : ok (exec (.kSetGo 1) (sessioned true)) (fun t => !(t.func 1).ideSecure && t.outbox == [.ideKm 1 4 false]) = true := by
  decide +kernel
theorem test_kSetStop : ok (exec (.kSetStop 1) ((sessioned true).setFunc 1 { ideKey := some 1, ideSecure := true }))
    (fun t => !(t.func 1).ideSecure && (t.func 1).ideKey == none) = true := by decide +kernel
theorem test_ideLeaveSecure : ok (exec (.ideLeaveSecure 1) secureCopy) (fun t => !(t.func 1).ideSecure && (t.func 1).ideKey == some 1) = true := by decide +kernel
theorem test_readingsWrite : ok (exec (.readingsWrite 0 { arrayPossible := 9, vectorPossible := 2, watts := 1250 }) withReadings)
    (fun t => (t.part 0).readNo == 5 && ((t.tile 0 1).data.payload.filter fun e => decide (e.1 < 6)) == [(0, 5), (4, 63), (5, 32)]
      && (t.tile 0 1).data.payload.byte 11 == 32) = true := by decide +kernel


/-! ### Power -/

/-- No partition, the ladder moving to a rung, or a test in progress. -/
def moving (r : Rung) : State := { up with pwr := { move := some { ref := some (refOf 0x70), target := r, save := false } } }
def testing (kind unit : Nat) : State :=
  { up with pwr := { test := some { ref := some (refOf 0x71), kind, unit, full := true, atDrain := false } } }
/-- Core 9, in no partition, with its supply and ceiling as given. -/
def core9 (c : Core) : State := up.setCore 9 c
/-- A core whose routine waits. -/
def waitingCore : Core := { run := .running, n := 8 }
/-- Core 9 after a command. -/
def after9 (r : Res) (p : Core → Bool) : Bool := ok r fun t => p (t.core 9)
def hot9 : Core := { hot := true, supply := 30 }
theorem witness_LadderAndTests :
    begins 0x70 up [(0x10, 2)] = true ∧ (moving .grounded).pwr.move = some { ref := some (refOf 0x70), target := .grounded, save := false }
    ∧ up.su.rails = true ∧ SMap.wf Core.blank up.cores = true ∧ SMap.wf Port.blank up.lnk.ports = true ∧ up.pwr.low.depth < 2 ∧ 2 ≤ Rung.grounded.depth
    ∧ ({ moving .aloft with pwr := { (moving .aloft).pwr with low := .folded } } : State).pwr.low.depth = 3 ∧ Rung.packed ≠ .grounded
    ∧ begins 0x71 up [(0x10, 0), (0x11, 1), (0x12, 1)] = true ∧ (testing 0 1).pwr.test.isSome = true
    ∧ (testing 0 1).testDue ⟨some (refOf 0x71), 0, 1, true, false⟩ = true
    ∧ [TestUnit.array 9 1].all TestUnit.valid = true ∧ [TestUnit.array 9 1].all (SelfTest.covers ⟨none, 0, 1, true, false⟩) = true
    ∧ [TestUnit.router 9].any TestUnit.halting = true ∧ (([] : List TestUnit) = [] ↔ (5 : W64) = 5) ∧ ((up.core 9).supply.toNat < up.ceilingOf 9)
    ∧ (up.core 9).off = false ∧ up.floorOf 9 < (up.core 9).supply.toNat ∧ 95 ≤ (95 : Byte).toNat ∧ ((core9 hot9).core 9).hot = true
    ∧ (up.core 9).hot = false ∧ 93 ≤ (93 : Byte).toNat ∧ (92 : Byte).toNat < 93 ∧ ((core9 { ceilingCut := 2 }).core 9).ceilingCut ≠ 0
    ∧ 105 ≤ (105 : Byte).toNat ∧ ((core9 { supply := 0 }).core 9).supply.toNat ≤ (core9 { supply := 0 }).floorOf 9
    ∧ ((core9 { held := true }).core 9).held = true ∧ (99 : Byte).toNat < 100 ∧ ((core0 base waitingCore).core 0).aloft = true
    ∧ ((core0 base waitingCore).core 0).arrA.quiet = true ∧ ((core0 base waitingCore).core 0).flagsSettled = true := by decide +kernel
theorem test_ladder : ok (exec (.ladder pf) (given up (cmd 0x70 [(0x10, 2)])))
    (fun t => statuses t == [] && t.pwr.move.map (·.target) == some .grounded) = true := by decide +kernel
theorem test_ladder_slack : answers 0x70 (.ladder pf) up [(0x10, 1)] = [0x0716] := by decide +kernel
/-- `moving` with every port held already, so that no port becomes Held. -/
def movingHeld (r : Rung) : State :=
  { moving r with lnk := { (moving r).lnk with ports := (List.range 18).map fun p => (p, { st := .held }) } }
theorem test_ladderComplete : ok (exec .ladderComplete (movingHeld .grounded))
    (fun t => statuses t == [0] && t.pwr.low == .grounded && (t.core 9).off && (t.port 17).st == .held && (t.port 17).status == 0x0710) = true := by
  decide +kernel
theorem test_groundPort : ∃ st, up.groundPort 17 = (up.modPort 17 Port.ladderDown).lnkEvent 1 { status := st, words := [17] } :=
  ⟨unlistedCode 3, if_neg (by decide)⟩
theorem test_ladderComplete_packed : ok (exec .ladderComplete { moving .packed with pwr := { (moving .packed).pwr with low := .folded } })
    (fun t => t.su.packed && !t.su.rails && t.su.switchClosed && t.su.stage == 0x01) = true := by decide +kernel
theorem test_selftest : ok (exec (.selftest pf) (given up (cmd 0x71 [(0x11, 1), (0x12, 1)])))
    (fun t => statuses t == [] && t.pwr.test.map (·.unit) == some 1) = true := by decide +kernel
theorem test_selftest_in_use : answers 0x71 (.selftest pf) base [] = [0x0712] := by decide +kernel
theorem test_selftestComplete : ok (exec (.selftestComplete 5 5 []) (testing 0 1)) (fun t => statuses t == [0] && t.pwr.test == none && t.pwr.stSig == 5) = true := by
  decide +kernel
theorem test_selftestComplete_array : ok (exec (.selftestComplete 5 6 [.array 9 1]) (testing 0 1))
    (fun t => statuses t == [0x0702] && bit t.su.testedOff 19) = true := by decide +kernel
theorem test_supplyStep : after9 (exec (.supplyStep 9 true) up) (fun c => c.supply == 21) = true := by decide +kernel
theorem test_supplyStep_floor : same (exec (.supplyStep 9 false) (core9 { supply := 0 })) (core9 { supply := 0 }) = true := by decide +kernel
theorem test_coreHot : ∃ st, exec (.coreHot 9 95) up = .next (((up.heat 9 95).modCore 9 fun c => { c with hot := true }).pwrEvent 1 { status := st, words := [9] }) :=
  ⟨_, rfl⟩
theorem test_ceilingStep : after9 (exec (.ceilingStep 9 93) (core9 hot9)) (fun c => c.ceilingCut == 1 && c.supply == 29) = true := by decide +kernel
theorem test_ceilingStep_cool : after9 (exec (.ceilingStep 9 92) (core9 { hot9 with ceilingCut := 3 })) (fun c => c.ceilingCut == 2 && !c.hot) = true := by
  decide +kernel
theorem test_coreHold : ok (exec (.coreHold 9 105) (core9 { supply := 0 })) (fun t => (t.core 9).held && t.pwr.holds == 1 && t.pwr.event == 1) = true := by
  decide +kernel
theorem test_coreHoldRelease : after9 (exec (.coreHoldRelease 9 99) (core9 { held := true })) (fun c => !c.held) = true := by decide +kernel
theorem test_coreHoldRelease_hot : same (exec (.coreHoldRelease 9 100) (core9 { held := true })) (core9 { held := true }) = true := by decide +kernel
theorem test_engineGate : after (exec (.engineGate 0 1) (core0 base waitingCore)) (fun c => c.gatedB && !c.gatedA) = true := by decide +kernel
theorem test_hbmCalibration : same (exec (.hbmCalibration 11) up) up = true := by decide +kernel

/-! ### Management -/

/-- An update in progress, to slot 1, and an entry the receiver has not acknowledged. -/
def updating (transferred : Bool) (verified : Option Nat) : State :=
  { up with mgt := { update := some { slot := true, transferred, verified } }, su := { up.su with flashBusy := true } }
def logged : State := up.log { status := 0x0713, words := [9] } 0
def notifying (n : Nat) : State := { logged with mgt := { logged.mgt with receiver := some 9, unacked := [(logged.mgt.logNext - 1, n)] } }
def number0 : W32 := logged.mgt.logNext - 1
def packedUp : State := { powered 0x01 with su := { (powered 0x01).su with packed := true, rails := false, converters := false } }
theorem witness_ManagementAnswers :
    up.su.awake = true ∧ up.hif.linkUp = true ∧ up.su.packed = false ∧ packedUp.su.awake = true ∧ packedUp.su.packed = true ∧ up.su.modResetN = true
    ∧ (packedUp.noRails && bodyByte 4 0 != 0) = true ∧ (up.noRails && bodyByte 2 0 != 0) = false
    ∧ firstFail (up.ladderChecks (rungOf (bodyByte 1 0)) (bodyByte 1 3) 0x0811 true) = some 0x0811
    ∧ firstFail (up.ladderChecks (rungOf (bodyByte 2 0)) (bodyByte 2 3) 0x0811 true) = none ∧ rungOf (bodyByte 2 0) = some .grounded
    ∧ rungOf (bodyByte 0 0) = some up.pwr.low ∧ packedUp.noRails = true ∧ up.noRails = false
    ∧ firstFail (up.testChecks 0 1 0 0 0x0811 true) = none ∧ firstFail (base.testChecks 0 0 0 0 0x0811 true) = some 0x0712
    ∧ (9 : Byte).toNat > 8 ∧ 1 ≤ (8 : Byte).toNat ∧ logged.logAhead logged.mgt.logNext = true ∧ logged.logAhead number0 = false
    ∧ logged.logGone number0 = false ∧ logged.logGone (number0 - 1) = true ∧ logged.logAhead (number0 - 1) = false ∧ SMap.wf Port.blank up.lnk.ports = true
    ∧ (0x70008 : W32).toNat % 4 = 0 ∧ (0x70008 : W32).toNat / 0x10000 = 7 ∧ (up.sensorValue 51).isSome = true ∧ up.mgt.update = none ∧ up.su.stage = 0x0b
    ∧ (powered 0x05).su.stage ≠ 0x0b ∧ (updating false none).mgt.update ≠ none
    ∧ ((notifying 1).mgt.unacked.find? fun u => u.1 == number0) = some (number0, 1) ∧ ((notifying 1).logEntry number0).isSome = true
    ∧ (notifying 1).mgt.receiver ≠ none ∧ (updating false none).su.flashBusy = true ∧ 0xfff000 + 4096 ≤ 0x1000000
    ∧ (updating true none).updateFault true ≠ 0 ∧ (0 : Byte) ≠ 9 ∧ 0x1000000 < 0xffffff + [(1 : Byte), 2].length ∧ up.su.flashBusy = false
    ∧ (up.mgt.unacked.find? fun u => u.1 == number0) = none ∧ (notifying 4).mgt.unacked.find? (fun u => u.1 == number0) = some (number0, 4)
    ∧ (updating true (some 0)).mgt.update.any (fun u => u.verified.isSome) = true ∧ up.mgt.receiver = none := by decide +kernel
/-- The vendor-defined answers that have left: what follows the message type and Marrandun's identifier. -/
def said (t : State) : List (List Byte) := t.outbox.map fun o => match o with
  | .vendor l => l.flatten.drop 3
  | _ => []
/-- The answer with a code, a status and no result. -/
def coded (code st : Nat) : List Byte := bytesLE code 1 ++ bytesLE st 2
theorem test_mctpControl : ok (exec (.mctpControl .vdm (.control 1) 9) up) (fun t => t.mgt.eidVdm == 9 && t.outbox == [.mctp [[0, 1, 9]]]) = true := by
  decide +kernel
theorem test_mctpControl_unknown : ok (exec (.mctpControl (.smbus 0x60) (.vendor 9) 0) up) (fun t => said t == [coded 9 0x0811]) = true := by
  decide +kernel
theorem test_getStartup : ok (exec .getStartup up) (fun t => said t == [coded 1 0 ++ wordBytes up.startupWord]) = true := by decide +kernel
theorem test_wake : ok (exec .wake packedUp) (fun t => !t.su.packed && t.su.converters && t.su.stage == 0x02) = true := by decide +kernel
theorem test_reset : ok (exec .reset base) (fun t => t.su.stage == 0x01 && t.parts == [] && !t.su.rails && said t == [coded 3 0]) = true := by decide +kernel
theorem test_mgmtLadder : ok (exec (.mgmtLadder 2) up) (fun t => t.pwr.move == some { ref := none, target := .grounded, save := false }) = true := by decide +kernel
theorem test_mgmtLadder_rails : ok (exec (.mgmtLadder 4) packedUp) (fun t => said t == [coded 4 0x0812]) = true := by decide +kernel
theorem test_mgmtSelftest : ok (exec (.mgmtSelftest 0x0100) up) (fun t => t.pwr.test.map (·.unit) == some 1) = true := by decide +kernel
theorem test_logRead : ok (exec (.logRead number0 8) logged) (fun t => (said t).map (fun l => (l.length, l.take 7)) == [(67, coded 6 0 ++ [0, 0, 0, 0])]) = true := by decide +kernel
theorem test_logRead_count : ok (exec (.logRead 0 9) up) (fun t => said t == [coded 6 0x0811]) = true := by decide +kernel
theorem test_counterClear : ok (exec .counterClear { up with sec := { up.sec with authFail := 4 }, pwr := { holds := 5 } })
    (fun t => t.sec.authFail == 0 && t.pwr.holds == 0 && t.mgt.log.map (·.status) == [0x0818#16]) = true := by decide +kernel
theorem test_regRead : ok (exec (.regRead 0x2000c) up) (fun t => said t == [coded 8 0 ++ [0x1f, 0, 0, 0]]) = true := by decide +kernel
theorem test_regRead_misaligned : ok (exec (.regRead 2) up) (fun t => said t == [coded 8 0x0811]) = true := by decide +kernel
theorem test_getSensorReading : ok (exec (.getSensorReading 51) up) (fun t => t.outbox == [.sensor 51 11 .normal]) = true := by decide +kernel
theorem test_getSensorReading_none : ok (exec (.getSensorReading 18) up) (fun t => t.outbox == [.pldm 0x11 0x80]) = true := by decide +kernel
theorem test_setEventReceiver : ok (exec (.setEventReceiver 9) up) (fun t => t.mgt.receiver == some 9) = true := by decide +kernel
theorem test_eventResend : ok (exec (.eventResend number0) (notifying 1)) (fun t => t.mgt.unacked == [(number0, 2)]) = true := by decide +kernel
theorem test_eventResend_last : ok (exec (.eventResend number0) (notifying 4)) (fun t => t.mgt.unacked == []) = true := by decide +kernel
theorem test_eventAcknowledge : ok (exec (.eventAcknowledge number0) (notifying 1)) (fun t => t.mgt.unacked == []) = true := by decide +kernel
theorem test_requestUpdate : ok (exec .requestUpdate up) (fun t => t.mgt.update.map (·.slot) == some true && t.su.flashBusy) = true := by decide +kernel
theorem test_firmwareData : ok (exec (.firmwareData 4 [1, 2]) (updating false none)) (fun t => t.flash == [(0x1000004, 1), (0x1000005, 2)]) = true := by
  decide +kernel
theorem test_transferComplete : ok (exec .transferComplete (updating false none)) (fun t => t.mgt.update.map (·.transferred) == some true) = true := by
  decide +kernel
theorem test_verifyComplete : ok (exec .verifyComplete (updating true none)) (fun t => t.mgt.update == none && t.mgt.log.map (·.status) == [0x0814#16]) = true := by
  decide +kernel
theorem test_activateFirmware : ok (exec .activateFirmware (updating true (some 0))) (fun t => t.mgt.update == none && !t.su.flashBusy) = true := by
  decide +kernel

/-! ### The whole machine -/

theorem witness_StepRunsFrontCommand : ({ up with pending := [.wake] } : State).pending = .wake :: [] ∧ up.pending = [] := by decide +kernel
theorem witness_CommandsStopOnlyOnMissingUnits : Instr.wf (.nop 255) = true ∧ Instr.wf (.nop 256) = false := by decide
theorem witness_StepTakesOnlyTheFront : step { up with pending := [.hbmCalibration 0, .wake] } = .next { up with pending := [.wake] } := rfl
theorem witness_WellFormedQueuesRunToTheEnd : ∀ i ∈ ({ up with pending := [.hbmCalibration 0, .wake] } : State).pending, i.wf = true := by decide +kernel
theorem witness_TablesStayCanonical : base.canonical = true ∧ (linkBase).canonical = true := by decide +kernel
theorem witness_PowerOrderKept : up.su.ordered = true ∧ packedUp.su.ordered = true ∧ State.reset.su.ordered = true := by decide +kernel
theorem witness_FusesOnlyGrow : step { up with pending := [.hbmCalibration 0] } = .next up := rfl

/-! ### States where further clauses of the statements hold -/

theorem witness_testable_arrays : [TestUnit.array 255 1].all (powered 7).testable = true ∧ [TestUnit.tether 31].all (powered 7).testable = true
    ∧ bit (powered 7).arraysOff 511 = false ∧ [TestUnit.array 9 1].all up.testable = true := by decide +kernel
theorem witness_reach : up.configReach 32 = true ∧ up.configReach 0 = true ∧ (powered 9).configReach 0 = false ∧ up.hostReach 32 = true
    ∧ (powered 9).hostReach 0 = false ∧ (0x10 : W32).toNat ∉ ringRegs ∧ (3 : W32).toNat % 16 < 4 := by decide +kernel
theorem witness_unassigned : (0x79ffc : W32).toNat ∉ writableRegs.map (·.1) ∧ (0x79ffc : W32).toNat ∉ eventRegs ∧ (0x79ffc : W32).toNat ∉ ringRegs
    ∧ (0x79ffc : W32).toNat ∉ selectedRegs ∧ 0x79ffc ∉ readOnlyRegs ∧ 0x79ffc % 4 = 0 := by decide +kernel
theorem witness_secure_stream : (secureCopy.func 1).ideKey = some 1 ∧ (secureCopy.func 1).ideSecure = true ∧ (up.func 0).ideKey = none
    ∧ (up.func 1).ideSecure = false := by decide +kernel

/-- `sendB` beside a `vsel`, which needs no rounding and finds no status, and beside a `drain` of a handle that is not valid. -/
def sendBoth : Nat := sendB + bun [(58, 0xb), (53, 4), (49, 3), (45, 6), (41, 5)]
def sendBad : Nat := sendB + bun [(20, 3)]
def sendsOf (w : Nat) (c : Core) : State := (running { c with s := [(1, 0x201), (2, 7), (3, 8)] } w).setCore 1 { chans := [(2, { depth := 2 })], n := 8, rank := 1 }
def issuesIt (s : State) (w : Nat) : Bool := (decodeBundle w).any fun b => s.issues 0 b
theorem witness_mixed_send : issuesIt (sendsOf sendBoth { credit := some (1, 2) }) sendBoth = true ∧ issuesIt (sendsOf sendBoth {}) sendBoth = true
    ∧ issuesIt (sendsOf sendBoth { request := some (1, 2) }) sendBoth = true
    ∧ ((decodeBundle sendBoth).map fun b => (b.mov, b.vec.op == .sel)) = some (.send 1 2 3 0 false 5, true)
    ∧ (sendsOf sendBoth {}).sendFault 0 ((sendsOf sendBoth {}).core 0) 1 0 false = none
    ∧ issuesIt (running {} (bun [(122, 5)])) (bun [(122, 5)]) = true := by decide +kernel
theorem test_send_beside : ok (exec (.vsel 0) (sendsOf sendBoth { credit := some (1, 2) })) (fun t => (t.core 0).pc == 1 && t.mesh.length == 1) = true := by
  decide +kernel
theorem test_send_beside_asks : ok (exec (.vsel 0) (sendsOf sendBoth {})) (fun t => (t.core 0).pc == 0 && (t.core 0).request == some (1, 2)) = true := by
  decide +kernel
/-- The loop count of a bundle is the only thing that makes it invalid, or a control operation without a meaning does, or a move operation. -/
def repOnlyOf (w : Nat) : Bool := decide (w / 2 ^ 122 % 64 = 1) && (decodeBundle (w - w / 2 ^ 107 % 2 ^ 12 * 2 ^ 107 + 2 ^ 107)).isSome
def repAndMove : Nat := 2 ^ 122 + bun [(90, 63)]
theorem witness_rep_alone_invalid : decodeBundle (2 ^ 122) = none ∧ repOnlyOf (2 ^ 122) = true ∧ decodeBundle repAndMove = none ∧ repOnlyOf repAndMove = false
    ∧ (faulting {} (2 ^ 122)).mayIssue 0 = true ∧ ((faulting {} (2 ^ 122)).core 0).loops.length ≠ 4 ∧ (faulting deep repAndMove).mayIssue 0 = true := by
  decide +kernel
theorem test_rep_and_move : after (exec (.rep 0) (faulting deep repAndMove)) (fun c => c.ended == 0x0907) = true := by decide +kernel
theorem witness_send_then_fault : (sendsOf sendBad { credit := some (1, 2), ops := [{ bundle := 1 }] }).sendFault 0
      ((sendsOf sendBad { credit := some (1, 2), ops := [{ bundle := 1 }] }).core 0) 1 0 false = none
    ∧ faultOf (sendsOf sendBad { credit := some (1, 2), ops := [{ bundle := 1 }] }) sendBad = some 0x0909 := by decide +kernel

/-- A message whose core has left the partition it was sent in. -/
def staleMesh : State := { onMesh with mesh := onMesh.mesh.map fun m => { m with stale := true } }
theorem witness_stale_message : (staleMesh.mesh[0]?).any (·.stale) = true ∧ (onMesh.mesh[0]?).any (fun m => !m.stale) = true
    ∧ (staleMesh.mesh.findIdx? fun m => decide (m.src = 0) && decide (m.dst = 1) && decide (m.chan = 2)) = some 0 := by decide +kernel
theorem test_messageArrive_stale : ok (exec (.messageArrive 0 1 2) staleMesh) (fun t => t.mesh == [] && ((t.core 1).chan 2).held == 0) = true := by decide +kernel
theorem witness_lane_states : ({ st := 7, draws := 5 } : LaneGen).st ≠ 0 ∧ ({ st := 7, draws := 5 } : LaneGen).draws < 2 ^ 20
    ∧ 2 ^ 20 ≤ ({ st := 7, draws := 1048576 } : LaneGen).draws := by decide +kernel
theorem witness_update_functions : updOp 1 = 1 ∧ updOp (2 + 4 * 3 + 16 * 31) = 2 ∧ updPart (2 + 4 * 3 + 16 * 31) = 3 ∧ updSlot (2 + 4 * 3 + 16 * 31) = 31
    ∧ (only 2 { v := [], s := hyperRegs } (vop 0x20 [(45, 6), (33, 8), (24, 1)])).map (fun b => updOp b.vec.fn) = some 1
    ∧ (only 2 {} (vop 0x20 [(45, 6), (41, 5), (24, 2)])).map (fun b => updOp b.vec.fn) = some 2 := by decide +kernel

/-- Slot 2 with a near copy on core 0, and a hint that waits for its migration. -/
def nearTile : State := withTile { fresh := false, nearCore := some (0, 0), moving := some true, nextHint := some (1, 0) }
theorem witness_near_copies : (nearTile.nearAddr (nearTile.tile 0 2)).isSome = true ∧ (nearTile.tile 0 2).nextHint = some (1, 0)
    ∧ (spanned.tile 0 2).nextHint = none ∧ SMap.wf Core.blank nearTile.cores = true ∧ SMap.wf Tile.blank nearTile.spn.tiles = true := by decide +kernel
theorem test_scrub_near : ok (exec (.scrub pf) (given { nearTile with cores := [(0, { store := [] })] } (cmd 0x34 tileF)))
    (fun t => (t.readTile 0 2).payload == []) = true := by decide +kernel

/-- Sequences of gondola 16383 that end: of its current and of its retiring version. -/
def refState (d : Gondola) (x : SeqSlot) : State := (withGon d).setSeq 3 { x with gondola := 16383 }
theorem witness_references : ((refState { d1 with refs := 1, st := .cut } { openSeq with version := 1 }).seq 3).gondola = 16383
    ∧ ((refState { d1 with refs := 1, st := .cut } { openSeq with version := 1 }).gondola 16383).refs - 1 = 0
    ∧ ((refState { d1 with refs := 1, st := .cut } { openSeq with version := 1 }).gondola 16383).st = .cut
    ∧ ((refState { d1 with hasRetiring := true, retVersion := 7, retRefs := 2 } { openSeq with version := 7 }).gondola 16383).retVersion = 7
    ∧ SMap.wf Gondola.blank (refState d1 openSeq).gon.table = true ∧ ((withSeq openSeq).seq 3).gondola = 0xffff := by decide +kernel
theorem test_reference_returns : ok (exec (.seqClose pf) (given (refState { d1 with refs := 1, st := .cut } openSeq) (cmd 0x39 closeF)))
    (fun t => (t.gondola 16383).st == .releasing && (t.gondola 16383).refs == 0) = true := by decide +kernel

/-- What ends a proof: the wiring that disagrees, and the keys of a port between racks, where the peer's ephemeral share is a point or not. -/
def keyedPeer : Port := { proved with ownEph := 1, peerEph := publicKey 1 }
theorem proofOk_keyed : proving.proofOk keyedPeer peerProof = proving.proofOk proved peerProof := by
  simp only [State.proofOk, keyedPeer, proved]; rfl
theorem witness_wiring : proving.wiringOk 0 proved.claimed = true ∧ proving.wiringOk 1 proved.claimed = false ∧ proving.linkKeys proved = none := by
  decide +kernel
theorem witness_link_keys : (proving.linkKeys keyedPeer).isSome = true := by decide +kernel

/-- One error on lane 2 of eight, and one on a lane that is not in use. Whether more than 32 errors leave a codeword lost is free. -/
theorem witness_codewords : codewordErrors (lanesUsed 0xff) [⟨2, 3, 9⟩] = [(26, 9)] ∧ codewordErrors (lanesUsed 0x0f) [⟨5, 3, 9⟩] = []
    ∧ (lanesUsed 0xf0) = [4, 5, 6, 7] ∧ (fecDecode [(26, 9)]).lost = false ∧ 32 < (List.replicate 33 (0, (1 : Sym))).length ∧ ([] : List (Nat × Sym)) = [] := by
  decide +kernel
theorem witness_refusals : peer1 ≠ linkBase.me ∧ (net.nextPort peer1 (some 3)).isSome = true ∧ (net.port 3).hears = true := by decide +kernel

/-- The token bucket with a floor at step 10, and its partition Frozen. -/
def floored : State := { withBk [bk] with lnk := { (withBk [bk]).lnk with floors := [(4095, some 10)] } }
def frozenBk : State := (withBk [bk]).setPart 0 { (net.part 0) with st := .frozen }
theorem witness_results : floored.belowFloor 4095 9 = true ∧ (withBk [bk]).belowFloor 4095 9 = false ∧ frozenBk.shut 0 = true
    ∧ (withBk [bk]).shut 0 = false ∧ bk.nextPlace 4 me = none ∧ 3 ≤ bk.mode ∧ ((withRed [bk] { red1 with stage := 4 }).sumWaiting 4095 9 0 4).isSome = true
    ∧ (frozenBk.resultRole bk 4095 9 0) = some me := by decide +kernel
theorem test_chunkReceive_floor : ok (exec (.chunkReceive 3 (unit4 5)) floored) (fun t => t.lnk.reductions == []) = true := by decide +kernel
theorem test_chunkReceive_frozen : same (exec (.chunkReceive 3 (unit4 5)) frozenBk) frozenBk = true := by decide +kernel
theorem witness_restores : (withCtx restoring).shut 0 = false ∧ frozenBk.shut 0 = true ∧ ({ ctx1 with st := .copying, awaitK := true, tandem := some peer1 } : Ctx).awaitK = true
    ∧ (restoring.oldRegion.bankSlots (3 % 2)).length = 3 := by decide +kernel

/-- What a winch finds in slot 8: zeros, or poison; and slot 9 as a destination in this module. -/
def winchFrom (t : Tile) : State := (winchOf (shard [plan1])).setTile 0 8 t
theorem witness_winch_reads : ((winchFrom {}).fetchTile 0 8).2 = some {} ∧ ((winchFrom {}).winch 0).isSome = true
    ∧ (((winchFrom {}).fetchTile 0 8).1.sendWinch 0 ctx1 (shard [plan1]) { pos := peer1, dst := 0x12000, tile := {} }).isSome = true
    ∧ ((winchOf { shard [] with refused := [{ outTile with pos := me, dst := 0x12000 }] }).placeTile 0 (shard []) 9 {}).isSome = true
    ∧ ((winchOf { shard [] with staging := 0x20000, stagingSlots := 0 }).placeTile 0 { shard [plan1] with stagingSlots := 0 } 8 {}).isNone = true := by
  decide +kernel
theorem test_winch_poisoned : ((winchFrom { poisoned := true }).fetchTile 0 8).2 = none := by decide +kernel

/-- Kite 1 tested at drain. -/
def drainTest : State := { base with pwr := { test := some { ref := none, kind := 0, unit := 1, full := true, atDrain := true } } }
theorem witness_drain_test : drainTest.drainTested 3 = true ∧ drainTest.drainTested 1 = false := by decide +kernel
theorem test_partResize_tested : answers 0x19 (.partResize pf) drainTest resizeF = [0x0221] := by decide +kernel

theorem witness_sessions : ecdh (freshPrivate base.free) [] = none ∧ ([] : List Byte) = [] ∧ chainSigned peerChain = true
    ∧ 4 ≤ ({ base with sec := { base.sec with sessions := [{}, {}, {}, {}] } } : State).sec.sessions.length := by decide +kernel
theorem test_getVersion : ok (exec (.spdmRequest .getVersion) base) (fun t => t.outbox == [.spdm 0x84 true [0x12, 0x13]]) = true := by decide +kernel

theorem witness_mctp_paths : (MctpPath.smbus 0x60) = .smbus up.smbusAddress ∧ (0x61 : BitVec 7) ≠ 0x60 + up.su.site.zeroExtend 7 ∧ up.hif.linkUp = true
    ∧ (powered 9).hif.linkUp = false ∧ (powered 9).su.awake = true ∧ ladderBodyOk 2 = true ∧ ladderBodyOk 0x100 = false
    ∧ testFieldsOk 0 1 0 0 = true ∧ testFieldsOk 9 1 0 0 = false ∧ packedUp.noRails = true ∧ 8 < 9 ∧ (18 ≤ 18 ∧ 18 ≤ 31) ∧ sensorLevel 2 540 = .lowerWarning
    ∧ (updating true none).mgt.update = some { slot := true, transferred := true, verified := none } ∧ (updating true none).su.flashBusy = true
    ∧ ({ updating true none with su := { (updating true none).su with flashBusy := false } } : State).su.flashBusy = false
    ∧ (updating false none).mgt.update.any (fun u => !u.transferred) = true := by decide +kernel
theorem test_mctpControl_address : same (exec (.mctpControl (.smbus 0x61) (.control 1) 9) up) up = true := by decide +kernel
theorem test_verify_waits : same (exec .verifyComplete { updating true none with su := { (updating true none).su with flashBusy := false } })
    { updating true none with su := { (updating true none).su with flashBusy := false } } = true := by decide +kernel

end Sys2Proof.Tests
end

section
/-! PROOFS. The end of a repeat (R164, R171 to R173, R176): one equation for each way `Core.endBody` can go, what an auto-increment without a pending
`seta` writes, and the register's step with and without a bound. -/

namespace Sys2Proof.Machine

/-! ### The bundle just issued and the innermost loop -/

section
variable {c : Core} {l : LoopLevel} {p : Nat}

theorem Core.endBody_of_no_loop (n : Nat) (hloops : c.loops = []) : c.endBody p (n + 1) = { c with pc := p + 1 } := by
  simp only [Core.endBody, hloops, List.getLast?_nil]

theorem Core.endBody_inside_body (n : Nat) (hlast : c.loops.getLast? = some l) (hend : l.p + l.n ≠ p) :
    c.endBody p (n + 1) = { c with pc := p + 1 } := by
  simp only [Core.endBody, hlast, if_pos hend]

theorem Core.endBody_leaves_level (n : Nat) (hlast : c.loops.getLast? = some l) (hend : l.p + l.n = p) (hlive : l.live = 1) :
    c.endBody p (n + 1) = { c with loops := c.loops.dropLast }.endBody p n := by
  simp only [Core.endBody, hlast, hend, ne_eq, not_true_eq_false, if_false, if_pos hlive]

theorem Core.endBody_repeats_body (n : Nat) (hlast : c.loops.getLast? = some l) (hend : l.p + l.n = p) (hlive : l.live ≠ 1) :
    c.endBody p (n + 1) = (maskRegs l.mask).foldl Core.autoInc
      { c with loops := c.loops.dropLast ++ [{ l with live := l.live - 1 }], pc := l.p + 1 } := by
  simp only [Core.endBody, hlast, hend, ne_eq, not_true_eq_false, if_false, if_neg hlive]

end

/-! ### The step of an address register -/

theorem Core.autoInc_of_none_pending (c : Core) (i : Nat) (hnone : (c.ops.any fun o => o.writes.any (RegWrite.isA i)) = false) :
    c.autoInc i = { c with a := SMap.set AddrReg.blank c.a i (c.areg i).increment } := by
  simp only [Core.autoInc, hnone, Bool.false_eq_true, if_false, Core.write]

theorem AddrReg.increment_of_bound_zero {r : AddrReg} (hbound : r.bound = 0) : r.increment = { r with value := r.value + r.stride } :=
  if_pos hbound

theorem AddrReg.increment_of_bound_ne_zero {r : AddrReg} (hbound : r.bound ≠ 0) :
    r.increment = { r with value := BitVec.ofNat 64 (((r.value.toNat : Int) + r.stride.toInt) % (r.bound.toNat : Int)).toNat } :=
  if_neg hbound

/-- A residue modulo a word other than 0 fits in a word, so writing it as one loses nothing. -/
theorem toNat_ofNat_emod_word (x : Int) {b : W64} (hb : b ≠ 0) :
    (BitVec.ofNat 64 (x % (b.toNat : Int)).toNat).toNat = (x % (b.toNat : Int)).toNat := by
  have hnat : b.toNat ≠ 0 := fun h => hb (BitVec.eq_of_toNat_eq h)
  have hresidue : x % (b.toNat : Int) < b.toNat := Int.emod_lt_of_pos x (by omega)
  rw [BitVec.toNat_ofNat, Nat.mod_eq_of_lt (by omega)]

theorem AddrReg.toNat_increment_value {r : AddrReg} (hbound : r.bound ≠ 0) :
    r.increment.value.toNat = (((r.value.toNat : Int) + r.stride.toInt) % (r.bound.toNat : Int)).toNat := by
  rw [increment_of_bound_ne_zero hbound]
  exact toNat_ofNat_emod_word _ hbound

@[simp] theorem AddrReg.increment_stride (r : AddrReg) : r.increment.stride = r.stride := by
  unfold increment; split <;> rfl

@[simp] theorem AddrReg.increment_bound (r : AddrReg) : r.increment.bound = r.bound := by
  unfold increment; split <;> rfl

/-- Settles O36: each clause is one of the equations above, whatever loops are active and whatever registers they name. -/
theorem loopsRepeat : Obligations.LoopsRepeat := by
  unfold Obligations.LoopsRepeat
  intro c n
  refine ⟨?outside, ?inside, ?lastPass, ?repeats, ?steps, ?register⟩
  case outside => exact Core.endBody_of_no_loop n
  case inside => exact fun _ => Core.endBody_inside_body n
  case lastPass => exact fun _ => Core.endBody_leaves_level n
  case repeats => exact fun _ => Core.endBody_repeats_body n
  case steps => exact c.autoInc_of_none_pending
  case register =>
    exact fun r => ⟨AddrReg.increment_of_bound_zero, fun hbound => ⟨AddrReg.toNat_increment_value hbound, r.increment_stride, r.increment_bound⟩⟩

end Sys2Proof.Machine
end

section
/-! PROOFS. What the vector slot computes (R187 to R189, R200 to R217, R259 to R275, R437 to R442): results fit their formats, a finite value is
its own rounding, and what NaN, zero and infinity give; then which bits of a register each lane of a result stands in, up to the statement itself. -/

namespace Sys2Proof.Machine

/-! ### Bits of a significand -/

section Codes
variable {f : Fmt}

theorem bitLen_of_ne_zero {m : Nat} (hm : m ≠ 0) : bitLen m = Nat.log2 m + 1 := if_neg hm

theorem lt_two_pow_bitLen (m : Nat) : m < 2 ^ bitLen m := by
  by_cases hm : m = 0
  · simp [hm, bitLen]
  · rw [bitLen_of_ne_zero hm]; exact Nat.lt_log2_self

theorem bitLen_le_of_lt {m n : Nat} (h : m < 2 ^ n) : bitLen m ≤ n := by
  by_cases hm : m = 0
  · simp [hm, bitLen]
  · rw [bitLen_of_ne_zero hm]; exact (Nat.log2_lt hm).2 h

theorem bitLen_eq_of_bounds {m n : Nat} (hlo : 2 ^ n ≤ m) (hhi : m < 2 ^ (n + 1)) : bitLen m = n + 1 := by
  have hm : m ≠ 0 := by have := Nat.two_pow_pos n; omega
  rw [bitLen_of_ne_zero hm, (Nat.log2_eq_iff hm).2 ⟨hlo, hhi⟩]

/-! ### Codes fit their format -/

theorem Fmt.pack_lt {neg : Bool} {e m : Nat} (h : e * 2 ^ f.mb + m < 2 ^ (f.eb + f.mb)) : f.pack neg e m < 2 ^ f.width := by
  have hw : 2 ^ f.width = 2 ^ (f.eb + f.mb) + 2 ^ (f.eb + f.mb) := by
    rw [Fmt.width, Nat.add_assoc, Nat.add_comm 1, Nat.pow_succ]; omega
  unfold Fmt.pack
  split <;> omega

theorem Fmt.pack_lt_of_fields {neg : Bool} {e m : Nat} (he : e < 2 ^ f.eb) (hm : m < 2 ^ f.mb) : f.pack neg e m < 2 ^ f.width := by
  apply Fmt.pack_lt
  have : (e + 1) * 2 ^ f.mb ≤ 2 ^ f.eb * 2 ^ f.mb := Nat.mul_le_mul_right _ he
  rw [pow_add]; linarith

theorem Fmt.topExponent_lt (f : Fmt) : 2 ^ f.eb - 1 < 2 ^ f.eb := Nat.sub_one_lt (by positivity)

theorem Fmt.infCode_lt (neg : Bool) : f.infCode neg < 2 ^ f.width := Fmt.pack_lt_of_fields f.topExponent_lt (by positivity)

theorem Fmt.zeroCode_lt (neg : Bool) : f.zeroCode neg < 2 ^ f.width := Fmt.pack_lt_of_fields (by positivity) (by positivity)

theorem Fmt.maxCode_lt (neg : Bool) : f.maxCode neg < 2 ^ f.width :=
  Fmt.pack_lt_of_fields (by have := f.topExponent_lt; omega) (Nat.sub_one_lt (by positivity))

theorem Fmt.quietNan_lt {neg : Bool} {p : Nat} (hmb : 0 < f.mb) (hp : p < 2 ^ (f.mb - 1)) : f.quietNan neg p < 2 ^ f.width := by
  apply Fmt.pack_lt_of_fields f.topExponent_lt
  have : 2 ^ (f.mb - 1) + 2 ^ (f.mb - 1) = 2 ^ f.mb := by rw [← Nat.two_pow_pred_mul_two hmb]; omega
  omega

theorem Fmt.decode_nan_payload_lt {x : Nat} {neg quiet : Bool} {p : Nat} (h : f.decode x = .nan neg quiet p) : p < 2 ^ (f.mb - 1) := by
  simp only [Fmt.decode] at h
  split at h
  · split at h
    · cases h
    · cases h; exact Nat.mod_lt _ (by positivity)
  · split at h <;> cases h

/-! ### Rounding -/

theorem roundAt_of_le (rm : Rnd) (neg : Bool) (m : Nat) {e q : Int} (h : q ≤ e) :
    roundAt rm neg m e q = (m * 2 ^ (e - q).toNat, false) := if_pos h

/-- m · 2^e below 2^(k+q) rounds to at most 2^k units of 2^q. -/
theorem roundAt_fst_le (rm : Rnd) (neg : Bool) {m n k : Nat} {e q : Int} (hm : m < 2 ^ n) (hk : n + e ≤ k + q) :
    (roundAt rm neg m e q).1 ≤ 2 ^ k := by
  by_cases hq : q ≤ e
  · rw [roundAt_of_le _ _ _ hq]
    calc m * 2 ^ (e - q).toNat ≤ 2 ^ n * 2 ^ (e - q).toNat := Nat.mul_le_mul_right _ hm.le
      _ = 2 ^ (n + (e - q).toNat) := (pow_add ..).symm
      _ ≤ 2 ^ k := Nat.pow_le_pow_right (by decide) (by omega)
  · have hkept : m / 2 ^ (q - e).toNat < 2 ^ k := by
      rw [Nat.div_lt_iff_lt_mul (by positivity), ← pow_add]
      exact hm.trans_le (Nat.pow_le_pow_right (by decide) (by omega))
    simp only [roundAt, if_neg hq]
    split <;> omega

theorem roundUnbounded_significand_lt (mb : Nat) (rm : Rnd) (neg : Bool) (m : Nat) (e : Int) :
    (roundUnbounded mb rm neg m e).1 < 2 ^ (mb + 1) := by
  have hle : (roundAt rm neg m e (e + (bitLen m : Int) - 1 - mb)).1 ≤ 2 ^ (mb + 1) :=
    roundAt_fst_le rm neg (lt_two_pow_bitLen m) (by omega)
  have := Nat.two_pow_pos (mb + 1)
  simp only [roundUnbounded]
  split <;> simp only <;> omega

theorem le_roundUnbounded_exponent (mb : Nat) (rm : Rnd) (neg : Bool) (m : Nat) (e : Int) :
    e + bitLen m - 1 - mb ≤ (roundUnbounded mb rm neg m e).2.1 := by
  simp only [roundUnbounded]
  split <;> simp only <;> omega

/-- A value with no more bits than a significand holds keeps its value. -/
theorem roundUnbounded_exact {mb : Nat} (rm : Rnd) (neg : Bool) {m : Nat} (e : Int) (h : bitLen m ≤ mb + 1) :
    roundUnbounded mb rm neg m e = (m * 2 ^ (mb + 1 - bitLen m), e + (bitLen m : Int) - 1 - mb, false) := by
  have hlt : m * 2 ^ (mb + 1 - bitLen m) < 2 ^ (mb + 1) := by
    calc m * 2 ^ (mb + 1 - bitLen m) < 2 ^ bitLen m * 2 ^ (mb + 1 - bitLen m) := by
          exact Nat.mul_lt_mul_of_pos_right (lt_two_pow_bitLen m) (by positivity)
      _ = 2 ^ (mb + 1) := by rw [← pow_add, Nat.add_sub_cancel' h]
  have hsh : (e - (e + (bitLen m : Int) - 1 - mb)).toNat = mb + 1 - bitLen m := by omega
  simp only [roundUnbounded, roundAt_of_le rm neg m (show e + (bitLen m : Int) - 1 - mb ≤ e by omega), hsh]
  exact if_neg (by omega)

theorem Fmt.two_mul_bias (heb : 0 < f.eb) : 2 * f.bias + 2 = 2 ^ f.eb := by
  have h := Nat.two_pow_pred_mul_two heb
  have := Nat.two_pow_pos (f.eb - 1)
  unfold Fmt.bias; omega

theorem Fmt.round_lt (heb : 0 < f.eb) (rm : Rnd) (neg : Bool) (m : Nat) (e : Int) : (f.round rm neg m e).1 < 2 ^ f.width := by
  have hexp := le_roundUnbounded_exponent f.mb rm neg m e
  have hsig := roundUnbounded_significand_lt f.mb rm neg m e
  have hbias := f.two_mul_bias heb
  have hmb := Nat.two_pow_pos f.mb
  simp only [Fmt.round]
  split
  case isTrue => exact f.zeroCode_lt neg
  case isFalse =>
    split
    case isTrue htiny =>
      have hr : (roundAt rm neg m e (f.emin - f.mb)).1 ≤ 2 ^ f.mb := roundAt_fst_le rm neg (lt_two_pow_bitLen m) (by omega)
      have hlt : 2 ^ f.mb < 2 ^ (f.eb + f.mb) := Nat.pow_lt_pow_right (by decide) (by omega)
      exact Fmt.pack_lt (by omega)
    case isFalse hnormal =>
      split
      case isTrue =>
        split
        · exact f.infCode_lt neg
        · exact f.maxCode_lt neg
      case isFalse hfits =>
        have hemin : f.emin = 1 - (f.bias : Int) := rfl
        exact Fmt.pack_lt_of_fields (by omega) (by rw [Nat.pow_succ] at hsig; omega)

/-! ### Decoding and rounding back (R200) -/

theorem Fmt.pack_fields {x : Nat} (hx : x < 2 ^ f.width) :
    f.pack (decide (x / 2 ^ (f.eb + f.mb) % 2 = 1)) (x / 2 ^ f.mb % 2 ^ f.eb) (x % 2 ^ f.mb) = x := by
  have hs : x / 2 ^ (f.eb + f.mb) < 2 := by
    rw [Nat.div_lt_iff_lt_mul (by positivity), ← pow_succ']
    rwa [Fmt.width, Nat.add_assoc, Nat.add_comm 1] at hx
  have htop : x / 2 ^ f.mb / 2 ^ f.eb = x / 2 ^ (f.eb + f.mb) := by rw [Nat.div_div_eq_div_mul, ← pow_add, Nat.add_comm]
  have h1 := Nat.div_add_mod x (2 ^ f.mb)
  have h2 := Nat.div_add_mod (x / 2 ^ f.mb) (2 ^ f.eb)
  rw [htop] at h2
  have hsplit : x = 2 ^ (f.eb + f.mb) * (x / 2 ^ (f.eb + f.mb)) + x / 2 ^ f.mb % 2 ^ f.eb * 2 ^ f.mb + x % 2 ^ f.mb := by
    conv_lhs => rw [← h1, ← h2]
    rw [pow_add]; ring
  unfold Fmt.pack
  conv_rhs => rw [hsplit]
  rcases Nat.le_one_iff_eq_zero_or_eq_one.1 (Nat.le_of_lt_succ hs) with h | h <;> simp [h]

/-- What the fields of a code are where it decodes to a finite value: subnormal or zero, or normal. -/
theorem Fmt.decode_fin_fields {x m : Nat} {neg : Bool} {e : Int} (hx : x < 2 ^ f.width) (h : f.decode x = .fin neg m e) :
    ∃ E M, E + 1 < 2 ^ f.eb ∧ M < 2 ^ f.mb ∧ f.pack neg E M = x
      ∧ (E = 0 ∧ m = M ∧ e = f.emin - f.mb ∨ 0 < E ∧ m = 2 ^ f.mb + M ∧ e = E - f.bias - f.mb) := by
  have hE : x / 2 ^ f.mb % 2 ^ f.eb < 2 ^ f.eb := Nat.mod_lt _ (by positivity)
  have hM : x % 2 ^ f.mb < 2 ^ f.mb := Nat.mod_lt _ (by positivity)
  have hpack := Fmt.pack_fields hx
  simp only [Fmt.decode] at h
  split at h
  case isTrue => split at h <;> cases h
  case isFalse htop =>
    split at h
    case isTrue hzero => cases h; exact ⟨_, _, by omega, hM, hpack, .inl ⟨hzero, rfl, rfl⟩⟩
    case isFalse hpos => cases h; exact ⟨_, _, by omega, hM, hpack, .inr ⟨by omega, rfl, rfl⟩⟩

/-- A finite value of a format is its own rounding: the same code, and no flag. -/
theorem Fmt.round_decode (heb : 0 < f.eb) (rm : Rnd) {x m : Nat} {neg : Bool} {e : Int} (hx : x < 2 ^ f.width)
    (h : f.decode x = .fin neg m e) : f.round rm neg m e = (x, 0) := by
  obtain ⟨E, M, hE, hM, rfl, ⟨rfl, rfl, rfl⟩ | ⟨hpos, rfl, rfl⟩⟩ := Fmt.decode_fin_fields hx h
  · by_cases hm : m = 0
    · simp only [Fmt.round, hm, if_true]; rfl
    · have hlen := bitLen_le_of_lt hM
      have htiny : f.emin - f.mb + (bitLen m : Int) - 1 - f.mb + f.mb < f.emin := by omega
      simp only [Fmt.round, if_neg hm, roundUnbounded_exact rm neg _ (Nat.le_succ_of_le hlen), if_pos htiny,
        roundAt_of_le rm neg m le_rfl, sub_self, Int.toNat_zero, pow_zero, mul_one]
      rfl
  · have hlen : bitLen (2 ^ f.mb + M) = f.mb + 1 := bitLen_eq_of_bounds (by omega) (by rw [Nat.pow_succ]; omega)
    have hbias := f.two_mul_bias heb
    have hm : 2 ^ f.mb + M ≠ 0 := by have := Nat.two_pow_pos f.mb; omega
    have htop : (E : Int) - f.bias - f.mb + (f.mb + 1 : Nat) - 1 - f.mb + f.mb = E - f.bias := by omega
    have hnormal : ¬ (E : Int) - f.bias < f.emin := by unfold Fmt.emin; omega
    have hfits : ¬ (E : Int) - f.bias > f.bias := by omega
    simp only [Fmt.round, if_neg hm, roundUnbounded_exact rm neg _ hlen.le, hlen, htop, if_neg hnormal, if_neg hfits, Nat.sub_self,
      pow_zero, mul_one, Nat.add_sub_cancel_left, Int.sub_add_cancel, Int.toNat_natCast]
    rfl

end Codes

section Arithmetic
variable {f : Fmt} {rm : Rnd} {x y : Nat} {v u : Val}

/-! ### NaN operands (R201) -/

theorem nanResult_of_nan_first (f : Fmt) (neg quiet : Bool) (p : Nat) (l : List Val) (fl : Flags) :
    ∃ r, nanResult f (.nan neg quiet p :: l) fl = some (f.quietNan neg p, r) := ⟨_, rfl⟩

theorem nanResult_of_no_nan {l : List Val} (h : ∀ v ∈ l, v.isNan = false) (fl : Flags) : nanResult f l fl = none := by
  have hfind : l.find? Val.isNan = none := List.find?_eq_none.2 (by simpa using h)
  simp only [nanResult, hfind]

theorem nanResult_pair (hv : v.isNan = false) (hu : u.isNan = false) (fl : Flags) : nanResult f [v, u] fl = none :=
  nanResult_of_no_nan (by simp [hv, hu]) fl

/-- Where an operand is a NaN the result is a code of the format. -/
theorem nanResult_lt (hmb : 0 < f.mb) {l : List Nat} {fl : Flags} {r : Nat × Flags} (h : nanResult f (l.map f.decode) fl = some r) :
    r.1 < 2 ^ f.width := by
  simp only [nanResult] at h
  split at h
  case h_1 neg quiet p hfind =>
    obtain ⟨x, -, hx⟩ := List.mem_map.1 (List.mem_of_find?_eq_some hfind)
    cases h
    exact Fmt.quietNan_lt hmb (Fmt.decode_nan_payload_lt hx)
  case h_2 => cases h

theorem nan_first_result {neg quiet : Bool} {p : Nat} (h : f.decode x = .nan neg quiet p) :
    (fadd f rm x y).1 = f.quietNan neg p ∧ (fsub f rm x y).1 = f.quietNan neg p ∧ (fmul f rm x y).1 = f.quietNan neg p
      ∧ (fdiv f rm x y).1 = f.quietNan neg p ∧ ∀ mx, (fminmax f mx x y).1 = f.quietNan neg p := by
  obtain ⟨r, hr⟩ := nanResult_of_nan_first f neg quiet p [f.decode y] 0
  simp only [fadd, fsub, fmul, fdiv, fminmax, h, hr, implies_true, and_self]

/-! ### Operands that are not NaN -/

theorem fadd_of_not_nan (hx : (f.decode x).isNan = false) (hy : (f.decode y).isNan = false) :
    fadd f rm x y = addVal f rm (f.decode x) (f.decode y) := by simp only [fadd, nanResult_pair hx hy]

theorem addFin_comm (f : Fmt) (rm : Rnd) (s t : Bool) (m n : Nat) (e k : Int) : addFin f rm s m e t n k = addFin f rm t n k s m e := by
  have hzero : (if s = t then s else decide (rm = .towardNeg)) = if t = s then t else decide (rm = .towardNeg) := by
    by_cases h : s = t
    · simp [h]
    · simp [h, Ne.symm h]
  simp only [addFin, min_comm e k, add_comm (signedInt s _), hzero]

theorem addVal_comm (f : Fmt) (rm : Rnd) (v u : Val) : addVal f rm v u = addVal f rm u v := by
  match v, u with
  | .inf a, .inf b =>
    by_cases h : a = b
    · simp only [h]
    · simp only [addVal, if_neg h, if_neg (Ne.symm h)]
  | .fin .., .fin .. => exact addFin_comm ..
  | .inf _, .fin .. | .fin .., .inf _ | .inf _, .nan .. | .nan .., .inf _ | .fin .., .nan .. | .nan .., .fin .. | .nan .., .nan .. => rfl

theorem fadd_comm_of_not_nan (hx : (f.decode x).isNan = false) (hy : (f.decode y).isNan = false) : fadd f rm x y = fadd f rm y x := by
  rw [fadd_of_not_nan hx hy, fadd_of_not_nan hy hx, addVal_comm]

theorem mulVal_comm (v u : Val) : mulVal v u = mulVal u v := by
  cases v <;> cases u <;> simp only [mulVal, bne_comm, Nat.mul_comm, add_comm]

theorem fmul_comm_of_not_nan (hx : (f.decode x).isNan = false) (hy : (f.decode y).isNan = false) : fmul f rm x y = fmul f rm y x := by
  simp only [fmul, nanResult_pair hx hy, nanResult_pair hy hx, mulVal_comm (f.decode x)]

theorem Val.eq_fin_zero_of_isZero (h : v.isZero = true) : ∃ neg e, v = .fin neg 0 e := by
  match v with
  | .fin neg m e => exact ⟨neg, e, by rw [of_decide_eq_true h]⟩

/-- Zero by zero is invalid (R201). -/
theorem fdiv_zero_by_zero (hx : (f.decode x).isZero = true) (hy : (f.decode y).isZero = true) : fdiv f rm x y = (f.canonNan, Flags.invalid) := by
  obtain ⟨s, e, hx⟩ := Val.eq_fin_zero_of_isZero hx
  obtain ⟨t, k, hy⟩ := Val.eq_fin_zero_of_isZero hy
  simp only [fdiv, hx, hy, nanResult_pair (v := .fin s 0 e) (u := .fin t 0 k) rfl rfl, if_true, invalidResult]

/-- Another finite value by zero is an infinity, and says so (R202). -/
theorem fdiv_by_zero {s : Bool} {m : Nat} {e : Int} (hx : f.decode x = .fin s m e) (hm : m ≠ 0) (hy : (f.decode y).isZero = true) :
    fdiv f rm x y = (f.infCode (s != (f.decode y).neg), Flags.divZero) := by
  obtain ⟨t, k, hy⟩ := Val.eq_fin_zero_of_isZero hy
  simp only [fdiv, hx, hy, nanResult_pair (v := .fin s m e) (u := .fin t 0 k) rfl rfl, if_true, if_neg hm, Val.neg]

/-- The root of a negative value that is no zero is invalid (R202). -/
theorem fsqrt_of_neg (hx : (f.decode x).isNan = false) (hneg : (f.decode x).neg = true) (hzero : (f.decode x).isZero = false) :
    fsqrt f rm x = (f.canonNan, Flags.invalid) := by
  simp only [fsqrt, nanResult_of_no_nan (l := [f.decode x]) (by simp [hx])]
  match hd : f.decode x with
  | .nan .. => simp [hd, Val.isNan] at hx
  | .inf s =>
    have hs : s = true := by simpa [hd, Val.neg] using hneg
    simp only [hs, if_true, invalidResult]
  | .fin s m e =>
    have hs : s = true := by simpa [hd, Val.neg] using hneg
    have hm : m ≠ 0 := by simpa [hd, Val.isZero] using hzero
    simp only [hs, if_neg hm, if_true, invalidResult]

/-! ### Results fit their format -/

/-- What a result needs to be a code of its format: an exponent field and a quiet bit. -/
def Fmt.proper (f : Fmt) : Prop := 0 < f.eb ∧ 0 < f.mb

theorem invalidResult_lt (hf : f.proper) : (invalidResult f).1 < 2 ^ f.width := Fmt.quietNan_lt hf.2 (by positivity)

theorem addFin_lt (hf : f.proper) (s t : Bool) (m n : Nat) (e k : Int) : (addFin f rm s m e t n k).1 < 2 ^ f.width := by
  simp only [addFin]
  split
  · exact Fmt.zeroCode_lt _
  · exact Fmt.round_lt hf.1 ..

theorem addVal_lt (hf : f.proper) (v u : Val) : (addVal f rm v u).1 < 2 ^ f.width := by
  unfold addVal
  split
  · split
    · exact Fmt.infCode_lt _
    · exact invalidResult_lt hf
  · exact Fmt.infCode_lt _
  · exact Fmt.infCode_lt _
  · exact addFin_lt hf ..
  · exact invalidResult_lt hf

theorem roundVal_lt (hf : f.proper) (v : Val) : (roundVal f rm v).1 < 2 ^ f.width := by
  match v with
  | .inf s => exact Fmt.infCode_lt s
  | .fin s m e => exact Fmt.round_lt hf.1 rm s m e
  | .nan .. => exact invalidResult_lt hf

theorem fadd_lt (hf : f.proper) (rm : Rnd) (x y : Nat) : (fadd f rm x y).1 < 2 ^ f.width := by
  simp only [fadd]
  split
  case h_1 hr => exact nanResult_lt (l := [x, y]) hf.2 hr
  case h_2 => exact addVal_lt hf ..

theorem fmul_lt (hf : f.proper) (rm : Rnd) (x y : Nat) : (fmul f rm x y).1 < 2 ^ f.width := by
  simp only [fmul]
  split
  case h_1 hr => exact nanResult_lt (l := [x, y]) hf.2 hr
  case h_2 =>
    split
    · exact invalidResult_lt hf
    · exact roundVal_lt hf _

theorem fminmax_lt (hf : f.proper) (mx : Bool) (hx : x < 2 ^ f.width) (hy : y < 2 ^ f.width) : (fminmax f mx x y).1 < 2 ^ f.width := by
  simp only [fminmax]
  split
  case h_1 hr => exact nanResult_lt (l := [x, y]) hf.2 hr
  case h_2 =>
    simp only
    split
    · exact hx
    · exact hy

theorem Fmt.ofW_proper (w : Bool) : (Fmt.ofW w).proper := by cases w <;> exact ⟨by decide, by decide⟩

theorem Fmt.ofW_width (w : Bool) : (Fmt.ofW w).width = laneBits w := by cases w <;> rfl

end Arithmetic

/-! ### The reduction of a register's lanes (R263, R264) -/

section Reduction
variable {f : Fmt} {rm : Rnd}

theorem pairUp_lt (hf : f.proper) : ∀ l : List Lane, (∀ x ∈ l, x.1 < 2 ^ f.width) → ∀ x ∈ pairUp f rm l, x.1 < 2 ^ f.width
  | [], h => h
  | [_], h => h
  | x :: y :: r, h => by
    have hr : ∀ z ∈ r, z.1 < 2 ^ f.width := fun z hz => h z (by simp [hz])
    simp only [pairUp, List.mem_cons, forall_eq_or_imp]
    exact ⟨fadd_lt hf rm x.1 y.1, pairUp_lt hf r hr⟩

theorem pairTree_lt (hf : f.proper) (n : Nat) : ∀ l : List Lane, (∀ x ∈ l, x.1 < 2 ^ f.width) → (pairTree f rm l n).1 < 2 ^ f.width := by
  induction n with
  | zero =>
    intro l h
    match l with
    | [] => exact Nat.two_pow_pos _
    | x :: _ => exact h x (by simp)
  | succ n ih => exact fun l h => ih _ (pairUp_lt hf l h)

theorem foldl_fminmax_lt (hf : f.proper) (mx : Bool) (l : List Nat) (hl : ∀ x ∈ l, x < 2 ^ f.width) :
    ∀ a < 2 ^ f.width, l.foldl (fun a y => (fminmax f mx a y).1) a < 2 ^ f.width := by
  induction l with
  | nil => exact fun a ha => ha
  | cons x r ih => exact fun a ha => ih (fun y hy => hl y (by simp [hy])) _ (fminmax_lt hf mx ha (hl x (by simp)))

theorem redExtreme_lt (hf : f.proper) (mx : Bool) (l : List Nat) (hl : ∀ x ∈ l, x < 2 ^ f.width) : (redExtreme f mx l).1 < 2 ^ f.width := by
  simp only [redExtreme]
  split
  case h_1 x hfind =>
    have hx := hl x (List.mem_of_find?_eq_some hfind)
    exact fminmax_lt hf mx hx hx
  case h_2 =>
    split
    case h_1 => exact Nat.two_pow_pos _
    case h_2 x r hfind => exact foldl_fminmax_lt hf mx r (fun y hy => hl y (by simp [hy])) x (hl x (by simp))

theorem lanes_lt {w : Nat} {a : BitVec 8192} : ∀ x ∈ lanes w a, x < 2 ^ w := by
  simp only [lanes, List.mem_map]
  rintro _ ⟨i, -, rfl⟩
  exact BitVec.isLt _

theorem vredLane_lt (w : Bool) (fn : Nat) (rm : Rnd) (a : BitVec 8192) : (vredLane w fn rm a).1 < 2 ^ laneBits w := by
  have hf := Fmt.ofW_proper w
  have hl : ∀ x ∈ lanes (laneBits w) a, x < 2 ^ (Fmt.ofW w).width := by rw [Fmt.ofW_width]; exact lanes_lt
  rw [← Fmt.ofW_width]
  simp only [vredLane]
  split
  · exact pairTree_lt hf _ _ (by simpa using hl)
  · exact redExtreme_lt hf true _ hl
  · exact redExtreme_lt hf false _ hl
  · exact pairTree_lt hf _ _ (by simpa using fun x _ => fmul_lt hf rm x x)

end Reduction

/-! ### Digits of a number and fields of a register (R259) -/

section Digits

theorem ofDigits_cons (w x : Nat) (l : List Nat) : ofDigits w (x :: l) = x % 2 ^ w + 2 ^ w * ofDigits w l := rfl

theorem ofDigits_lt (w : Nat) (l : List Nat) : ofDigits w l < 2 ^ (w * l.length) := by
  induction l with
  | nil => simp [ofDigits]
  | cons x r ih =>
    have hx : x % 2 ^ w < 2 ^ w := Nat.mod_lt _ (by positivity)
    calc ofDigits w (x :: r) < 2 ^ w * (ofDigits w r + 1) := by rw [ofDigits_cons, Nat.mul_succ]; omega
      _ ≤ 2 ^ w * 2 ^ (w * r.length) := Nat.mul_le_mul_left _ ih
      _ = 2 ^ (w * (x :: r).length) := by rw [← pow_add, List.length_cons, Nat.mul_succ, Nat.add_comm]

/-- Bits of `a` stay where they are when `b` is put above them. -/
theorem add_mul_two_pow_div_mod {n k w : Nat} (a b : Nat) (h : k + w ≤ n) : (a + 2 ^ n * b) / 2 ^ k % 2 ^ w = a / 2 ^ k % 2 ^ w := by
  obtain ⟨d, rfl⟩ := Nat.exists_eq_add_of_le h
  rw [show 2 ^ (k + w + d) * b = 2 ^ k * (2 ^ w * (2 ^ d * b)) by rw [pow_add, pow_add]; ring,
    Nat.add_mul_div_left _ _ (by positivity), Nat.add_mul_mod_self_left]

/-- Bits of `b` above an `a` of `n` bits. -/
theorem add_mul_two_pow_div {n : Nat} {a : Nat} (b k : Nat) (h : a < 2 ^ n) : (a + 2 ^ n * b) / 2 ^ (n + k) = b / 2 ^ k := by
  rw [pow_add, ← Nat.div_div_eq_div_mul, Nat.add_mul_div_left _ _ (by positivity), Nat.div_eq_of_lt h, Nat.zero_add]

theorem ofDigits_digit (w : Nat) (l : List Nat) : ∀ i (h : i < l.length), ofDigits w l / 2 ^ (w * i) % 2 ^ w = l[i] % 2 ^ w := by
  induction l with
  | nil => exact fun i h => absurd h (Nat.not_lt_zero i)
  | cons x r ih =>
    intro i h
    match i with
    | 0 => rw [ofDigits_cons, add_mul_two_pow_div_mod _ _ (by omega)]; simp
    | i + 1 =>
      rw [ofDigits_cons, Nat.mul_succ, Nat.add_comm (w * i), add_mul_two_pow_div _ _ (Nat.mod_lt _ (by positivity)),
        ih i (by simpa using h), List.getElem_cons_succ]

theorem ofDigits_range_digit (w : Nat) {n i : Nat} (g : Nat → Nat) (h : i < n) :
    ofDigits w ((List.range n).map g) / 2 ^ (w * i) % 2 ^ w = g i % 2 ^ w := by
  rw [ofDigits_digit w _ i (by simpa using h), List.getElem_map, List.getElem_range]

theorem ofDigits_range_lt (w n : Nat) (g : Nat → Nat) : ofDigits w ((List.range n).map g) < 2 ^ (w * n) := by
  simpa using ofDigits_lt w ((List.range n).map g)

theorem getLsbD_putBits {w n : Nat} (x : BitVec w) (lo : Nat) (y : BitVec n) (i : Nat) :
    (putBits x lo y).getLsbD i = (decide (i < w) && if lo ≤ i ∧ i < lo + n then y.getLsbD (i - lo) else x.getLsbD i) := by
  simp only [putBits, BitVec.getLsbD_or, BitVec.getLsbD_and, BitVec.getLsbD_not, BitVec.getLsbD_shiftLeft, BitVec.getLsbD_setWidth, BitVec.getLsbD_allOnes]
  by_cases hlo : lo ≤ i
  · have hlt : ¬ i < lo := by omega
    by_cases hhi : i < lo + n
    · have hn : i - lo < n := by omega
      by_cases hw : i < w
      · simp [hlt, hlo, hhi, hn, hw, show i - lo < w by omega]
      · simp [hw]
    · have hn : ¬ i - lo < n := by omega
      simp [hhi, hn, BitVec.getLsbD_of_ge y (i - lo) (by omega), Bool.and_comm]
  · simp [hlo, show i < lo by omega, Bool.and_comm]

/-- Bits of a number in a register wide enough for them. -/
theorem toNat_extractLsb'_ofNat {n start w : Nat} (y : Nat) (h : start + w ≤ n) :
    ((BitVec.ofNat n y).extractLsb' start w).toNat = y / 2 ^ start % 2 ^ w := by
  rw [BitVec.extractLsb'_toNat, Nat.shiftRight_eq_div_pow, BitVec.toNat_ofNat]
  conv_rhs => rw [← Nat.mod_add_div y (2 ^ n), add_mul_two_pow_div_mod _ _ h]

theorem extractLsb'_putBits_inside {w n lo k m : Nat} (x : BitVec w) (y : BitVec n) (hk : k + m ≤ n) (hn : lo + n ≤ w) :
    (putBits x lo y).extractLsb' (lo + k) m = y.extractLsb' k m := by
  refine BitVec.eq_of_getLsbD_eq fun j hj => ?_
  rw [BitVec.getLsbD_extractLsb', BitVec.getLsbD_extractLsb', getLsbD_putBits, if_pos (by omega), show lo + k + j - lo = k + j by omega,
    decide_eq_true (show lo + k + j < w by omega), Bool.true_and]

theorem extractLsb'_putBits_outside {w n lo start m : Nat} (x : BitVec w) (y : BitVec n) (h : start + m ≤ lo ∨ lo + n ≤ start) (hw : start + m ≤ w) :
    (putBits x lo y).extractLsb' start m = x.extractLsb' start m := by
  refine BitVec.eq_of_getLsbD_eq fun j hj => ?_
  rw [BitVec.getLsbD_extractLsb', BitVec.getLsbD_extractLsb', getLsbD_putBits, if_neg (by omega),
    decide_eq_true (show start + j < w by omega), Bool.true_and]

end Digits

end Sys2Proof.Machine

namespace Sys2Proof.VectorProofs
open Sys2Proof.Machine hiding laneAt

/-! ### Lanes of a register (R163, R259) -/

theorem laneAt_eq (w : Nat) (v : BitVec 8192) (i : Nat) : laneAt w v i = v.toNat / 2 ^ (w * i) % 2 ^ w := by
  rw [laneAt, BitVec.extractLsb'_toNat, Nat.shiftRight_eq_div_pow]

theorem lanes_eq (w : Nat) (v : BitVec 8192) : lanes w v = (List.range (8192 / w)).map (laneAt w v) := rfl

theorem laneAt_ofNat {w i : Nat} (y : Nat) (h : w * i + w ≤ 8192) : laneAt w (BitVec.ofNat 8192 y) i = y / 2 ^ (w * i) % 2 ^ w :=
  toNat_extractLsb'_ofNat y h

theorem laneAt_ofLanes {w n i : Nat} (g : Nat → Nat) (hn : w * n ≤ 8192) (hi : i < n) :
    laneAt w (ofLanes w ((List.range n).map g)) i = g i % 2 ^ w := by
  have : w * (i + 1) ≤ w * n := Nat.mul_le_mul_left w hi
  rw [ofLanes, laneAt_ofNat _ (by rw [Nat.mul_succ] at this; omega), ofDigits_range_digit w g hi]

/-- Lane `start + i` where `n` lanes stand from lane `start` on. -/
theorem laneAt_putBits_inside {w n m start lo i : Nat} (x : BitVec 8192) (g : Nat → Nat) (hi : i < n) (hm : m = w * n) (hlo : lo = w * start)
    (hn : lo + m ≤ 8192) : laneAt w (putBits x lo (BitVec.ofNat m (ofDigits w ((List.range n).map g)))) (start + i) = g i % 2 ^ w := by
  have hfit : w * i + w ≤ m := by
    have : w * (i + 1) ≤ w * n := Nat.mul_le_mul_left w hi
    rw [Nat.mul_succ] at this; omega
  rw [laneAt, Nat.mul_add, ← hlo, extractLsb'_putBits_inside x _ hfit hn, toNat_extractLsb'_ofNat _ hfit, ofDigits_range_digit w g hi]

theorem laneAt_putBits_outside {w n lo i : Nat} (x : BitVec 8192) (y : BitVec n) (h : w * i + w ≤ lo ∨ lo + n ≤ w * i) (hi : w * i + w ≤ 8192) :
    laneAt w (putBits x lo y) i = laneAt w x i :=
  congrArg BitVec.toNat (extractLsb'_putBits_outside x y h hi)

/-! ### Registers that a function of the lane number makes -/

theorem lanesMade_packLanes (w : Nat) (g : Nat → Lane) : lanesMade w (packLanes w ((List.range (8192 / w)).map g)) g := by
  refine ⟨fun i hi => ?_, ?_⟩
  · rw [packLanes, List.map_map]
    exact laneAt_ofLanes _ (Nat.mul_div_le 8192 w) hi
  · simp only [packLanes, List.foldl_map]

theorem lanesMade_lanes1 (w : Nat) (f : Nat → Lane) (a : BitVec 8192) : lanesMade w (lanes1 w f a) fun i => f (laneAt w a i) := by
  rw [lanes1, lanes_eq, List.map_map]
  exact lanesMade_packLanes w _

theorem lanesMade_lanes2 (w : Nat) (f : Nat → Nat → Lane) (a b : BitVec 8192) :
    lanesMade w (lanes2 w f a b) fun i => f (laneAt w a i) (laneAt w b i) := by
  rw [lanes2, lanes_eq, lanes_eq, List.zipWith_map, List.zipWith_self]
  exact lanesMade_packLanes w _

theorem lanesMade_lanes3 (w : Nat) (f : Nat → Nat → Nat → Lane) (a b c : BitVec 8192) :
    lanesMade w (lanes3 w f a b c) fun i => f (laneAt w a i) (laneAt w b i) (laneAt w c i) := by
  rw [lanes3, lanes_eq, lanes_eq, lanes_eq, List.zipWith_map, List.zipWith_self, List.zipWith_map, List.zipWith_self]
  exact lanesMade_packLanes w _

/-- One lane value for all lanes. -/
theorem lanesMade_replicate (w x : Nat) : lanesMade w (packLanes w (List.replicate (8192 / w) (x % 2 ^ w, 0))) fun _ => (x, 0) := by
  obtain ⟨hlane, hflags⟩ := lanesMade_packLanes w fun _ => (x % 2 ^ w, 0)
  rw [List.map_const', List.length_range] at hlane hflags
  exact ⟨fun i hi => by rw [hlane i hi, Nat.mod_mod], hflags⟩

theorem packLanes_without_flags (w : Nat) (l : List Nat) : packLanes w (l.map fun x => (x, 0)) = (ofLanes w l, 0) := by
  simp only [packLanes, List.map_map, List.foldl_map, Function.comp_def, List.map_id']
  exact congrArg _ (List.foldl_fixed' (fun _ => rfl) l)

/-- Lanes without flags, from a list as long as the register. -/
theorem lanesMade_list {α : Type} (w : Nat) (f : α → Nat) {l : List α} (z : α) (hl : l.length = 8192 / w) :
    lanesMade w (ofLanes w (l.map f), 0) fun i => (f (l.getD i z), 0) := by
  have hlist : l.map f = (List.range (8192 / w)).map fun i => f (l.getD i z) := by
    refine List.ext_getElem (by simp [hl]) fun i h _ => ?_
    have hi : i < l.length := by simpa using h
    simp [hi]
  have h := lanesMade_packLanes w fun i => (f (l.getD i z), 0)
  rwa [← packLanes_without_flags, hlist, List.map_map]

/-- A register of one number below a lane's bound: lane 0 has it, the others are 0. -/
theorem laneAt_ofNat_of_lt {w y i : Nat} (hy : y < 2 ^ w) (hi : i < 8192 / w) : laneAt w (BitVec.ofNat 8192 y) i = if i = 0 then y else 0 := by
  have hfit : w * (i + 1) ≤ 8192 := (Nat.mul_le_mul_left w hi).trans (Nat.mul_div_le 8192 w)
  rw [laneAt_ofNat y hfit]
  split
  · next h => rw [h, Nat.mul_zero, pow_zero, Nat.div_one, Nat.mod_eq_of_lt hy]
  · next h =>
    have : y < 2 ^ (w * i) := hy.trans_le (Nat.pow_le_pow_right (by decide) (Nat.le_mul_of_pos_right w (Nat.pos_of_ne_zero h)))
    rw [Nat.div_eq_of_lt this, Nat.zero_mod]

/-! ### Blocks of a list that a function of the index makes -/

theorem cutInto_range {α : Type} (k n : Nat) (g : Nat → α) :
    cutInto k ((List.range (k * n)).map g) n = (List.range n).map fun j => (List.range k).map fun i => g (k * j + i) := by
  induction n generalizing g with
  | zero => rfl
  | succ n ih =>
    have hsplit : (List.range (k * (n + 1))).map g = (List.range k).map g ++ (List.range (k * n)).map fun i => g (k + i) := by
      rw [Nat.mul_succ, Nat.add_comm, List.range_add, List.map_append, List.map_map]; rfl
    have hlen : ((List.range k).map g).length = k := by simp
    rw [cutInto, hsplit, List.take_left' hlen, List.drop_left' hlen, ih, List.range_succ_eq_map, List.map_cons, List.map_map]
    simp only [Function.comp_def, Nat.mul_zero, Nat.zero_add, Nat.mul_succ, Nat.add_assoc, Nat.add_left_comm k]

theorem map_range_getD {α : Type} {l : List α} {k : Nat} (z : α) (h : l.length = k) : (List.range k).map (l.getD · z) = l :=
  List.ext_getElem (by simp [h]) fun i _ hi => by simp [hi]

/-- Pieces of one length in a row: element i is element i mod k of piece i div k. -/
theorem flatMap_range_getD {α : Type} {k : Nat} (n : Nat) (F : Nat → List α) (z : α) (h : ∀ j, (F j).length = k) :
    (List.range n).flatMap F = (List.range (k * n)).map fun i => (F (i / k)).getD (i % k) z := by
  induction n with
  | zero => rfl
  | succ n ih =>
    have hlast : ((List.range k).map fun i => (F ((k * n + i) / k)).getD ((k * n + i) % k) z) = F n := by
      rw [← map_range_getD z (h n)]
      refine List.map_congr_left fun i hi => ?_
      have hi : i < k := List.mem_range.1 hi
      rw [Nat.mul_add_div (by omega), Nat.mul_add_mod, Nat.div_eq_of_lt hi, Nat.mod_eq_of_lt hi, Nat.add_zero]
    rw [List.range_succ, List.flatMap_append, ih, Nat.mul_succ, List.range_add, List.map_append, List.map_map]
    congr 1
    rw [List.flatMap_singleton]
    exact hlast.symm

theorem blockEncode_length (l : List Nat) : (blockEncode l).2.1.length = l.length := by simp [blockEncode]

/-- Block j of 64 values that `q` makes, encoded (R437). -/
def blockOf (q : Nat → Nat) (j : Nat) : Int × List Nat × Flags := blockEncode ((List.range 64).map fun i => q (64 * j + i))

/-- The code of value i. -/
def blockCode (q : Nat → Nat) (i : Nat) : Nat := (blockOf q (i / 64)).2.1.getD (i % 64) 0

/-- The code of the scale of block j. -/
def blockScale (q : Nat → Nat) (j : Nat) : Nat := sigmaCode (blockOf q j).1

theorem encodeBlocks_range (q : Nat → Nat) :
    (encodeBlocks ((List.range 256).map q)).1 = (List.range 256).map (blockCode q)
      ∧ (encodeBlocks ((List.range 256).map q)).2.1 = (List.range 4).map (blockScale q) := by
  have hcut : (cutInto 64 ((List.range 256).map q) 4).map blockEncode = (List.range 4).map (blockOf q) := by
    rw [show 256 = 64 * 4 from rfl, cutInto_range, List.map_map]; rfl
  simp only [encodeBlocks, hcut, List.flatMap_map, List.map_map]
  exact ⟨flatMap_range_getD 4 (fun j => (blockOf q j).2.1) 0 fun j => by simp [blockOf, blockEncode_length], rfl⟩

/-! ### vcvt (R189) -/

theorem cvtOk_cases {fn : Nat} (h : cvtOk fn = true) :
    (cvtDst fn = 1 ∧ cvtSrc fn = 0 ∨ cvtDst fn = 0 ∧ cvtSrc fn = 1 ∨ cvtDst fn = 0 ∧ cvtSrc fn = 2 ∨ cvtDst fn = 2 ∧ cvtSrc fn = 0) ∧ cvtPart fn < 2
      ∨ (cvtDst fn = 0 ∧ cvtSrc fn = 3 ∨ cvtDst fn = 3 ∧ cvtSrc fn = 0) ∧ cvtPart fn < 4 := by
  have hpart : cvtPart fn < 4 := Nat.mod_lt _ (by decide)
  simp only [cvtOk, Prod.mk.injEq] at h
  split at h
  · next hpair =>
    simp only [Bool.and_eq_true, decide_eq_true_eq] at h
    omega
  · have := of_decide_eq_true h
    omega

/-- The wider format of a permitted pair holds so many of the narrower that every part exists (R189). -/
theorem cvtOk_ratio {fn : Nat} (h : cvtOk fn = true) :
    ∃ k, cvtPart fn < k ∧ (cvtBits (cvtSrc fn) = cvtBits (cvtDst fn) * k ∨ cvtBits (cvtDst fn) = cvtBits (cvtSrc fn) * k) := by
  rcases cvtOk_cases h with ⟨hpair, hp⟩ | ⟨hpair, hp⟩
  · refine ⟨2, hp, ?_⟩
    rcases hpair with ⟨hd, hs⟩ | ⟨hd, hs⟩ | ⟨hd, hs⟩ | ⟨hd, hs⟩ <;> rw [hd, hs] <;> decide
  · refine ⟨4, hp, ?_⟩
    rcases hpair with ⟨hd, hs⟩ | ⟨hd, hs⟩ <;> rw [hd, hs] <;> decide

/-- The part that a permitted narrowing writes lies in VD. -/
theorem cvtPart_narrow_le {fn : Nat} (h : cvtOk fn = true) (hlt : cvtBits (cvtDst fn) < cvtBits (cvtSrc fn)) :
    cvtPart fn * (8192 / cvtBits (cvtSrc fn)) * cvtBits (cvtDst fn) + 8192 / cvtBits (cvtSrc fn) * cvtBits (cvtDst fn) ≤ 8192 := by
  obtain ⟨k, hp, hk | hk⟩ := cvtOk_ratio h
  · calc cvtPart fn * (8192 / cvtBits (cvtSrc fn)) * cvtBits (cvtDst fn) + 8192 / cvtBits (cvtSrc fn) * cvtBits (cvtDst fn)
        = 8192 / cvtBits (cvtSrc fn) * (cvtBits (cvtDst fn) * (cvtPart fn + 1)) := by ring
      _ ≤ 8192 / cvtBits (cvtSrc fn) * cvtBits (cvtSrc fn) := Nat.mul_le_mul_left _ ((Nat.mul_le_mul_left _ hp).trans_eq hk.symm)
      _ ≤ 8192 := Nat.div_mul_le_self ..
  · have := Nat.le_mul_of_pos_right (cvtBits (cvtSrc fn)) (Nat.zero_lt_of_lt hp); omega

/-- The part that a permitted widening reads lies in VA. -/
theorem cvtPart_widen_le {fn : Nat} (h : cvtOk fn = true) (hlt : cvtBits (cvtSrc fn) < cvtBits (cvtDst fn)) :
    cvtPart fn * (8192 / cvtBits (cvtDst fn)) + 8192 / cvtBits (cvtDst fn) ≤ 8192 / cvtBits (cvtSrc fn) := by
  obtain ⟨k, hp, hk | hk⟩ := cvtOk_ratio h
  · have := Nat.le_mul_of_pos_right (cvtBits (cvtDst fn)) (Nat.zero_lt_of_lt hp); omega
  · rw [← Nat.succ_mul, hk, ← Nat.div_div_eq_div_mul]
    exact (Nat.mul_le_mul_right _ hp).trans (Nat.mul_div_le ..)

section Convert
variable (fn : Nat) (rm : Rnd) (s : W64) (a d : BitVec 8192)

theorem vcvtReg_of_narrow (hlt : cvtBits (cvtDst fn) < cvtBits (cvtSrc fn)) :
    (vcvtReg fn rm s a d).1 = putBits d (cvtPart fn * (8192 / cvtBits (cvtSrc fn)) * cvtBits (cvtDst fn))
      (BitVec.ofNat (8192 / cvtBits (cvtSrc fn) * cvtBits (cvtDst fn)) (ofDigits (cvtBits (cvtDst fn))
        ((List.range (8192 / cvtBits (cvtSrc fn))).map fun i => (narrowLane fn rm s i (laneAt (cvtBits (cvtSrc fn)) a i)).1))) := by
  have hn : cvtNarrows fn = true := decide_eq_true hlt
  have hlen : (lanes (cvtBits (cvtSrc fn)) a).length = 8192 / cvtBits (cvtSrc fn) := by simp [lanes]
  simp only [vcvtReg, hn, if_true]
  rw [hlen, lanes_eq, List.zipWith_map_right, List.zipWith_self, List.map_map]
  rfl

theorem vcvtReg_of_widen (hlt : cvtBits (cvtSrc fn) < cvtBits (cvtDst fn)) (hok : cvtOk fn = true) :
    vcvtReg fn rm s a d = packLanes (cvtBits (cvtDst fn)) ((List.range (8192 / cvtBits (cvtDst fn))).map fun i =>
      widenLane fn s i (laneAt (cvtBits (cvtSrc fn)) a (cvtPart fn * (8192 / cvtBits (cvtDst fn)) + i))) := by
  have hn : cvtNarrows fn = false := decide_eq_false (by omega)
  have hfit := cvtPart_widen_le hok hlt
  have hpart : ((lanes (cvtBits (cvtSrc fn)) a).drop (cvtPart fn * (8192 / cvtBits (cvtDst fn)))).take (8192 / cvtBits (cvtDst fn))
      = (List.range (8192 / cvtBits (cvtDst fn))).map fun i => laneAt (cvtBits (cvtSrc fn)) a (cvtPart fn * (8192 / cvtBits (cvtDst fn)) + i) := by
    refine List.ext_getElem ?_ fun i _ _ => ?_
    · simp only [lanes_eq, List.length_take, List.length_drop, List.length_map, List.length_range]; omega
    · simp [lanes_eq]
  simp only [vcvtReg, hn, hpart, Bool.false_eq_true, if_false, List.zipWith_map_right, List.zipWith_self]

theorem laneAt_vcvtReg_other_parts {fn : Nat} (hlt : cvtBits (cvtDst fn) < cvtBits (cvtSrc fn)) {j : Nat} (hj : j < 8192 / cvtBits (cvtDst fn))
    (hout : j < cvtPart fn * (8192 / cvtBits (cvtSrc fn)) ∨ (cvtPart fn + 1) * (8192 / cvtBits (cvtSrc fn)) ≤ j) :
    laneAt (cvtBits (cvtDst fn)) (vcvtReg fn rm s a d).1 j = laneAt (cvtBits (cvtDst fn)) d j := by
  rw [vcvtReg_of_narrow fn rm s a d hlt]
  refine laneAt_putBits_outside d _ ?_ ((Nat.mul_le_mul_left _ hj).trans (Nat.mul_div_le 8192 _))
  rcases hout with h | h
  · exact .inl ((Nat.mul_le_mul_left _ h).trans_eq (Nat.mul_comm ..))
  · exact .inr (by rw [← Nat.add_mul, ← Nat.succ_mul, Nat.mul_comm]; exact Nat.mul_le_mul_left _ h)

variable {fn} (hok : cvtOk fn = true)
include hok

theorem laneAt_vcvtReg_narrow (hlt : cvtBits (cvtDst fn) < cvtBits (cvtSrc fn)) {i : Nat} (hi : i < 8192 / cvtBits (cvtSrc fn)) :
    laneAt (cvtBits (cvtDst fn)) (vcvtReg fn rm s a d).1 (cvtPart fn * (8192 / cvtBits (cvtSrc fn)) + i)
      = (narrowLane fn rm s i (laneAt (cvtBits (cvtSrc fn)) a i)).1 % 2 ^ cvtBits (cvtDst fn) := by
  rw [vcvtReg_of_narrow fn rm s a d hlt]
  exact laneAt_putBits_inside d _ hi (Nat.mul_comm ..) (Nat.mul_comm ..) (cvtPart_narrow_le hok hlt)

theorem laneAt_vcvtReg_widen (hlt : cvtBits (cvtSrc fn) < cvtBits (cvtDst fn)) {i : Nat} (hi : i < 8192 / cvtBits (cvtDst fn)) :
    laneAt (cvtBits (cvtDst fn)) (vcvtReg fn rm s a d).1 i
      = (widenLane fn s i (laneAt (cvtBits (cvtSrc fn)) a (cvtPart fn * (8192 / cvtBits (cvtDst fn)) + i))).1 % 2 ^ cvtBits (cvtDst fn) := by
  rw [vcvtReg_of_widen fn rm s a d hlt hok]
  exact (lanesMade_packLanes (cvtBits (cvtDst fn)) _).1 i hi

end Convert

/-! ### vupd (R437 to R442) -/

theorem plain_eq (a : BitVec 8192) : plain a = (List.range 256).map fun i => (laneAt 32 a i, 0) := by
  rw [plain, lanes_eq, List.map_map]; rfl

theorem updAll_range (h : Hyper) (n : Nat) (g m v w : Nat → Lane) :
    updAll h ((List.range n).map g) ((List.range n).map m) ((List.range n).map v) ((List.range n).map w)
      = (List.range n).map fun i => updLane h (g i) (m i) (v i) (w i) := by
  simp only [updAll, List.zip_map', List.zipWith_map, List.zipWith_self]

theorem vupdFull_lanes (h : Hyper) (a m v w : BitVec 8192) {i : Nat} (hi : i < 256) :
    let y := updLane h (laneAt 32 a i, 0) (laneAt 32 m i, 0) (laneAt 32 v i, 0) (laneAt 32 w i, 0)
    laneAt 32 (vupdFull h a m v w).1 i = y.2.2.1 % 2 ^ 32 ∧ laneAt 32 (vupdFull h a m v w).2.1 i = y.1.1 % 2 ^ 32
      ∧ laneAt 32 (vupdFull h a m v w).2.2.1 i = y.2.1.1 % 2 ^ 32 := by
  simp only [vupdFull, plain_eq, updAll_range, List.map_map]
  exact ⟨laneAt_ofLanes _ (by decide) hi, laneAt_ofLanes _ (by decide) hi, laneAt_ofLanes _ (by decide) hi⟩

theorem fop2_without_flags (f : Nat → Nat → Lane) (x y : Nat) : fop2 f (x, 0) (y, 0) = f x y := by simp [fop2]

/-- A digit of a field of a number is a digit of the number. -/
theorem field_digit {start n k w : Nat} (x : Nat) (h : k + w ≤ n) : x / 2 ^ start % 2 ^ n / 2 ^ k % 2 ^ w = x / 2 ^ (start + k) % 2 ^ w := by
  conv_rhs => rw [pow_add, ← Nat.div_div_eq_div_mul, ← Nat.mod_add_div (x / 2 ^ start) (2 ^ n), add_mul_two_pow_div_mod _ _ h]

/-- A compact line's codes from byte `codes` on, each decoded and times its scale; the scales stand from word `scales` on (R435, R442). -/
theorem decodeBlocks_eq (line : BitVec 8192) {codes scales a b : Nat} (ha : a = 8 * codes) (hb : b = 32 * scales) :
    decodeBlocks (line.toNat / 2 ^ a % 2 ^ 2048) (line.toNat / 2 ^ b % 2 ^ 128)
      = (List.range 256).map fun i => fmul .f32 .tiesEven (z8Decode (laneAt 8 line (codes + i)) 32).toF32 (laneAt 32 line (scales + i / 64)) := by
  refine List.map_congr_left fun i hi => ?_
  have hi : i < 256 := List.mem_range.1 hi
  have hbyte : 256 ^ i = 2 ^ (8 * i) := (pow_mul 2 8 i).symm
  rw [mmul, fop2_without_flags, laneAt_eq, laneAt_eq, Nat.mul_add, Nat.mul_add, ← ha, ← hb, ← field_digit (n := 2048) _ (by omega),
    ← field_digit (n := 128) _ (by omega), hbyte, show 256 = 2 ^ 8 from rfl]

/-- Four fields in a row, as one number. -/
def fourFields (p q r A B C D : Nat) : Nat := A + 2 ^ p * B + 2 ^ (p + q) * C + 2 ^ (p + q + r) * D

section Fields
variable {p q r A B C D : Nat}

theorem fourFields_eq {s t : Nat} (hs : s = p + q) (ht : t = p + q + r) : A + 2 ^ p * B + 2 ^ s * C + 2 ^ t * D = fourFields p q r A B C D := by
  rw [hs, ht, fourFields]

theorem fourFields_nested : fourFields p q r A B C D = A + 2 ^ p * (B + 2 ^ q * (C + 2 ^ r * D)) := by
  unfold fourFields; ring

variable {k w : Nat}

theorem fourFields_first (h : k + w ≤ p) : fourFields p q r A B C D / 2 ^ k % 2 ^ w = A / 2 ^ k % 2 ^ w := by
  rw [fourFields_nested, add_mul_two_pow_div_mod _ _ h]

theorem fourFields_second (hA : A < 2 ^ p) (h : k + w ≤ q) : fourFields p q r A B C D / 2 ^ (p + k) % 2 ^ w = B / 2 ^ k % 2 ^ w := by
  rw [fourFields_nested, add_mul_two_pow_div _ _ hA, add_mul_two_pow_div_mod _ _ h]

theorem fourFields_third (hA : A < 2 ^ p) (hB : B < 2 ^ q) (h : k + w ≤ r) :
    fourFields p q r A B C D / 2 ^ (p + q + k) % 2 ^ w = C / 2 ^ k % 2 ^ w := by
  rw [fourFields_nested, Nat.add_assoc, add_mul_two_pow_div _ _ hA, add_mul_two_pow_div _ _ hB, add_mul_two_pow_div_mod _ _ h]

theorem fourFields_fourth (hA : A < 2 ^ p) (hB : B < 2 ^ q) (hC : C < 2 ^ r) :
    fourFields p q r A B C D / 2 ^ (p + q + r + k) = D / 2 ^ k := by
  rw [fourFields_nested, Nat.add_assoc, Nat.add_assoc, add_mul_two_pow_div _ _ hA, add_mul_two_pow_div _ _ hB, add_mul_two_pow_div _ _ hC]

end Fields

/-- A moment line of the codes and scales of two lists of values (R435). -/
def momentLine (m u : Nat → Nat) : BitVec 8192 :=
  BitVec.ofNat 8192 (fourFields 2048 2048 128 (ofDigits 8 ((List.range 256).map (blockCode m))) (ofDigits 8 ((List.range 256).map (blockCode u)))
    (ofDigits 32 ((List.range 4).map (blockScale m))) (ofDigits 32 ((List.range 4).map (blockScale u))))

theorem momentLine_codes (m u : Nat → Nat) {i : Nat} (hi : i < 256) :
    laneAt 8 (momentLine m u) i = blockCode m i % 256 ∧ laneAt 8 (momentLine m u) (256 + i) = blockCode u i % 256 := by
  have hm := ofDigits_range_lt 8 256 (blockCode m)
  rw [momentLine, laneAt_ofNat _ (by omega), laneAt_ofNat _ (by omega), Nat.mul_add]
  exact ⟨(fourFields_first (by omega)).trans (ofDigits_range_digit 8 _ hi), (fourFields_second hm (by omega)).trans (ofDigits_range_digit 8 _ hi)⟩

theorem momentLine_scales (m u : Nat → Nat) {j : Nat} (hj : j < 4) :
    laneAt 32 (momentLine m u) (128 + j) = blockScale m j % 2 ^ 32 ∧ laneAt 32 (momentLine m u) (132 + j) = blockScale u j % 2 ^ 32 := by
  have hm := ofDigits_range_lt 8 256 (blockCode m)
  have hu := ofDigits_range_lt 8 256 (blockCode u)
  have hs := ofDigits_range_lt 32 4 (blockScale m)
  rw [momentLine, laneAt_ofNat _ (by omega), laneAt_ofNat _ (by omega), Nat.mul_add, Nat.mul_add]
  exact ⟨(fourFields_third hm hu (by omega)).trans (ofDigits_range_digit 32 _ hj),
    (congrArg (· % 2 ^ 32) (fourFields_fourth hm hu hs)).trans (ofDigits_range_digit 32 _ hj)⟩

/-- The update of lane i from a compact line: its moments are codes times scales (R435, R442). -/
def compactLane (h : Hyper) (a line w : BitVec 8192) (i : Nat) : Lane × Lane × Lane :=
  updLane h (laneAt 32 a i, 0) (fmul .f32 .tiesEven (z8Decode (laneAt 8 line i) 32).toF32 (laneAt 32 line (128 + i / 64)))
    (fmul .f32 .tiesEven (z8Decode (laneAt 8 line (256 + i)) 32).toF32 (laneAt 32 line (132 + i / 64))) (laneAt 32 w i, 0)

theorem vupdCompact_eq (h : Hyper) (a line w : BitVec 8192) :
    (vupdCompact h a line w).1 = ofLanes 32 ((List.range 256).map fun i => (compactLane h a line w i).2.2.1)
      ∧ (vupdCompact h a line w).2.1 = momentLine (fun i => (compactLane h a line w i).1.1) fun i => (compactLane h a line w i).2.1.1 := by
  have hm := decodeBlocks_eq line (codes := 0) (scales := 128) rfl (b := 4096) rfl
  have hv := decodeBlocks_eq line (codes := 256) (scales := 132) (a := 2048) rfl (b := 4224) rfl
  simp only [Nat.mul_zero, pow_zero, Nat.div_one, Nat.zero_add] at hm
  simp only [vupdCompact, plain_eq, hm, hv, updAll_range, List.map_map, Function.comp_def, encodeBlocks_range]
  exact ⟨rfl, congrArg (BitVec.ofNat 8192) (fourFields_eq rfl rfl)⟩

theorem zipIdx_range_map {α : Type} (n : Nat) (g : Nat → α) : ((List.range n).map g).zipIdx = (List.range n).map fun i => (g i, i) :=
  List.ext_getElem (by simp) fun i _ _ => by simp

/-- A sum of gradient and error term, as `vupd` OP 2 encodes it (R438). -/
def quantizeSum (g e : BitVec 8192) (i : Nat) : Lane := fadd .f32 .tiesEven (laneAt 32 g i) (laneAt 32 e i)

theorem quantizeSum_range (g e : BitVec 8192) : List.zipWith madd (plain g) (plain e) = (List.range 256).map (quantizeSum g e) := by
  rw [plain_eq, plain_eq, List.zipWith_map, List.zipWith_self]
  exact List.map_congr_left fun i _ => fop2_without_flags ..

theorem getD_range_map {α : Type} {n i : Nat} (g : Nat → α) (z : α) (h : i < n) : ((List.range n).map g).getD i z = g i := by simp [h]

theorem errorTerms_range (q : Nat → Lane) (code scale : Nat → Nat) :
    List.zipWith (fun ci (q : Lane) => errorTerm ci.1 (((List.range 4).map scale).getD (ci.2 / 64) 0) q)
        ((List.range 256).map code).zipIdx ((List.range 256).map q)
      = (List.range 256).map fun i => errorTerm (code i) (scale (i / 64)) (q i) := by
  rw [zipIdx_range_map, List.zipWith_map, List.zipWith_self]
  refine List.map_congr_left fun i hi => ?_
  have hj : i / 64 < 4 := by have := List.mem_range.1 hi; omega
  rw [getD_range_map _ _ hj]

theorem vupdQuantize_eq (part slot : Nat) (g e vc vd : BitVec 8192) :
    let q := fun i => (quantizeSum g e i).1
    (vupdQuantize part slot g e vc vd).1 = putBits vd (2048 * part) (BitVec.ofNat 2048 (ofDigits 8 ((List.range 256).map (blockCode q))))
      ∧ (vupdQuantize part slot g e vc vd).2.1
        = ofLanes 32 ((List.range 256).map fun i => (errorTerm (blockCode q i) (blockScale q (i / 64)) (quantizeSum g e i)).1)
      ∧ (vupdQuantize part slot g e vc vd).2.2.1
        = putBits vc (256 + 128 * slot) (BitVec.ofNat 128 (ofDigits 32 ((List.range 4).map (blockScale q)))) := by
  simp only [vupdQuantize, quantizeSum_range, List.map_map, Function.comp_def, encodeBlocks_range, errorTerms_range, and_self]

section Quantize
variable {part slot : Nat} (g e vc vd : BitVec 8192)

theorem vupdQuantize_codes (hpart : part < 4) :
    (∀ i < 256, laneAt 8 (vupdQuantize part slot g e vc vd).1 (256 * part + i) = blockCode (fun i => (quantizeSum g e i).1) i % 256)
      ∧ ∀ i < 1024, i < 256 * part ∨ 256 * part + 256 ≤ i → laneAt 8 (vupdQuantize part slot g e vc vd).1 i = laneAt 8 vd i := by
  rw [(vupdQuantize_eq part slot g e vc vd).1]
  exact ⟨fun i hi => laneAt_putBits_inside vd _ hi rfl (by omega) (by omega),
    fun i hi hout => laneAt_putBits_outside vd _ (by omega) (by omega)⟩

theorem vupdQuantize_errors {i : Nat} (hi : i < 256) :
    laneAt 32 (vupdQuantize part slot g e vc vd).2.1 i
      = (errorTerm (blockCode (fun i => (quantizeSum g e i).1) i) (blockScale (fun i => (quantizeSum g e i).1) (i / 64)) (quantizeSum g e i)).1
        % 2 ^ 32 := by
  rw [(vupdQuantize_eq part slot g e vc vd).2.1]
  exact laneAt_ofLanes _ (by decide) hi

theorem vupdQuantize_scales (hslot : slot < 32) :
    (∀ j < 4, laneAt 32 (vupdQuantize part slot g e vc vd).2.2.1 (8 + 4 * slot + j) = blockScale (fun i => (quantizeSum g e i).1) j % 2 ^ 32)
      ∧ ∀ i < 256, i < 8 + 4 * slot ∨ 8 + 4 * slot + 4 ≤ i → laneAt 32 (vupdQuantize part slot g e vc vd).2.2.1 i = laneAt 32 vc i := by
  rw [(vupdQuantize_eq part slot g e vc vd).2.2]
  exact ⟨fun j hj => laneAt_putBits_inside vc _ hj rfl (by omega) (by omega),
    fun i hi hout => laneAt_putBits_outside vc _ (by omega) (by omega)⟩

end Quantize

/-! ### The operations of the vector slot -/

section Operations
variable {c : Core} {v : Vec} {bits : List W64}

/-- An operation writes VD alone, and a function of the lane number makes VD and the flags. -/
def Made (c : Core) (v : Vec) (bits : List W64) (g : Nat → Lane) : Prop :=
  ∃ r, (c.vecResult v bits).1 = [.v v.d r] ∧ lanesMade (laneBits v.w) (r, (c.vecResult v bits).2) g

theorem made_of_vecResult {r : BitVec 8192 × Flags} {g : Nat → Lane} (hresult : c.vecResult v bits = ([.v v.d r.1], r.2))
    (hr : lanesMade (laneBits v.w) r g) : Made c v bits g := by
  refine ⟨r.1, ?_, ?_⟩
  · rw [hresult]
  · rw [hresult]; exact hr

/-! The register writes of the operations that no lane function alone makes. -/

theorem vecResult_cvt (hop : v.op = .cvt) :
    (c.vecResult v bits).1 = [.v v.d (vcvtReg v.fn (Rnd.ofCode v.rnd) (c.sreg v.s) (c.vreg v.a) (c.vreg v.d)).1] := by
  simp only [Core.vecResult, hop]

theorem vecResult_red (hop : v.op = .red) :
    (c.vecResult v bits).1 = [.v v.d (BitVec.ofNat 8192 (vredLane v.w v.fn (Rnd.ofCode v.rnd) (c.vreg v.a)).1),
      .s v.s (BitVec.ofNat 64 (vredLane v.w v.fn (Rnd.ofCode v.rnd) (c.vreg v.a)).1)] := by
  simp only [Core.vecResult, hop]

theorem vecResult_updFull (hop : v.op = .upd) (hfn : updOp v.fn = 0) :
    let r := vupdFull (c.hyper v.s) (c.vreg v.a) (c.vreg v.b) (c.vreg v.c) (c.vreg v.d)
    (c.vecResult v bits).1 = [.v v.d r.1, .v v.b r.2.1, .v v.c r.2.2.1] := by
  simp only [Core.vecResult, hop, hfn]

theorem vecResult_updCompact (hop : v.op = .upd) (hfn : updOp v.fn = 1) :
    let r := vupdCompact (c.hyper v.s) (c.vreg v.a) (c.vreg v.b) (c.vreg v.d)
    (c.vecResult v bits).1 = [.v v.d r.1, .v v.b r.2.1] := by
  simp only [Core.vecResult, hop, hfn]

theorem vecResult_updQuantize (hop : v.op = .upd) (hfn : updOp v.fn = 2) :
    let r := vupdQuantize (updPart v.fn) (updSlot v.fn) (c.vreg v.a) (c.vreg v.b) (c.vreg v.c) (c.vreg v.d)
    (c.vecResult v bits).1 = [.v v.d r.1, .v v.b r.2.1, .v v.c r.2.2.1] := by
  simp only [Core.vecResult, hop, hfn]

end Operations

/-- Settles O42: the lane operations by how their registers are packed, `vcvt` and `vupd` by where each field of a register lies, `vred` by its result
fitting a lane, and the special values by the cases of a decoded operand. -/
theorem vectorLanes : Obligations.VectorLanes := by
  unfold Obligations.VectorLanes
  refine ⟨fun c v n => ⟨?add, ?sub, ?mul, ?fma, ?div, ?sqrt, ?min, ?max, ?cmp, ?sel, ?bcs, ?func, ?rand, ?cvt, ?full, ?compact, ?quantize, ?red⟩,
    fun w rm x y hx hy => ⟨?nan, fun hxn hyn => ⟨?addComm, ?mulComm, ?zeroByZero, ?byZero, ?root, ?ownRounding⟩⟩⟩
  case add => exact fun hop => made_of_vecResult (by simp only [Core.vecResult, hop]) (lanesMade_lanes2 ..)
  case sub => exact fun hop => made_of_vecResult (by simp only [Core.vecResult, hop]) (lanesMade_lanes2 ..)
  case mul => exact fun hop => made_of_vecResult (by simp only [Core.vecResult, hop]) (lanesMade_lanes2 ..)
  case fma => exact fun hop => made_of_vecResult (by simp only [Core.vecResult, hop]) (lanesMade_lanes3 ..)
  case div => exact fun hop => made_of_vecResult (by simp only [Core.vecResult, hop]) (lanesMade_lanes2 ..)
  case sqrt => exact fun hop => made_of_vecResult (by simp only [Core.vecResult, hop]) (lanesMade_lanes1 ..)
  case min => exact fun hop => made_of_vecResult (by simp only [Core.vecResult, hop]) (lanesMade_lanes2 ..)
  case max => exact fun hop => made_of_vecResult (by simp only [Core.vecResult, hop]) (lanesMade_lanes2 ..)
  case cmp =>
    exact fun hop => made_of_vecResult (by simp only [Core.vecResult, hop])
      (lanesMade_lanes2 _ (fun p q => (if (fcmp (Fmt.ofW v.w) v.fn p q).1 then 2 ^ laneBits v.w - 1 else 0, (fcmp (Fmt.ofW v.w) v.fn p q).2)) ..)
  case sel =>
    exact fun hop => made_of_vecResult (by simp only [Core.vecResult, hop]) (lanesMade_lanes3 _ (fun p q m => (if m = 0 then q else p, 0)) ..)
  case bcs => exact fun hop => made_of_vecResult (by simp only [Core.vecResult, hop]) (lanesMade_replicate ..)
  case func => exact fun hop => made_of_vecResult (by simp only [Core.vecResult, hop]) (lanesMade_lanes1 ..)
  case rand => exact fun hop hlen => made_of_vecResult (by simp only [Core.vecResult, hop]) (lanesMade_list _ _ 0 hlen)
  case cvt =>
    exact fun hop hok => ⟨_, vecResult_cvt hop,
      fun hlt i hi => laneAt_vcvtReg_narrow _ _ _ _ hok hlt hi, fun hlt j hj hout => laneAt_vcvtReg_other_parts _ _ _ _ hlt hj hout,
      fun hlt i hi => laneAt_vcvtReg_widen _ _ _ _ hok hlt hi⟩
  case full =>
    intro hop hfn
    refine ⟨_, _, _, vecResult_updFull hop hfn, fun i hi => ?_⟩
    obtain ⟨hw, hm, hu⟩ := vupdFull_lanes (c.hyper v.s) (c.vreg v.a) (c.vreg v.b) (c.vreg v.c) (c.vreg v.d) hi
    exact ⟨hm, hu, hw⟩
  case compact =>
    intro hop hfn
    obtain ⟨hw, hline⟩ := vupdCompact_eq (c.hyper v.s) (c.vreg v.a) (c.vreg v.b) (c.vreg v.d)
    refine ⟨_, _, vecResult_updCompact hop hfn, fun i hi => ?_, fun j hj => ?_⟩
    · rw [hw, hline]
      exact ⟨laneAt_ofLanes _ (by decide) hi, momentLine_codes _ _ hi⟩
    · rw [hline]
      exact momentLine_scales _ _ hj
  case quantize =>
    intro hop hfn
    obtain ⟨hcodes, hcodesKept⟩ := vupdQuantize_codes (part := updPart v.fn) (slot := updSlot v.fn) (c.vreg v.a) (c.vreg v.b) (c.vreg v.c)
      (c.vreg v.d) (Nat.mod_lt _ (by decide))
    obtain ⟨hscales, hscalesKept⟩ := vupdQuantize_scales (part := updPart v.fn) (slot := updSlot v.fn) (c.vreg v.a) (c.vreg v.b) (c.vreg v.c)
      (c.vreg v.d) (Nat.mod_lt _ (by decide))
    exact ⟨_, _, _, vecResult_updQuantize hop hfn, fun i hi => ⟨hcodes i hi, vupdQuantize_errors _ _ _ _ hi⟩, hcodesKept, hscales,
      hscalesKept⟩
  case red =>
    intro hop
    have hy := vredLane_lt v.w v.fn (Rnd.ofCode v.rnd) (c.vreg v.a)
    have hlane {i : Nat} (hi : i < 8192 / laneBits v.w) := laneAt_ofNat_of_lt hy hi
    refine ⟨_, _, vecResult_red hop, hy, ?_, fun i hpos hi => ?_, ?_⟩
    · rw [hlane (by cases v.w <;> decide), if_pos rfl]
    · rw [hlane hi, if_neg (by omega)]
    · have hle : 2 ^ laneBits v.w ≤ 2 ^ 64 := Nat.pow_le_pow_right (by decide) (by cases v.w <;> decide)
      rw [BitVec.toNat_ofNat, Nat.mod_eq_of_lt (by omega)]
  case nan =>
    intro sg q p hd
    obtain ⟨hadd, hsub, hmul, hdiv, hminmax⟩ := nan_first_result (rm := rm) (y := y) hd
    simp only [List.forall_mem_cons]
    exact ⟨hadd, hsub, hmul, hdiv, hminmax true, hminmax false, List.forall_mem_nil _⟩
  case addComm => exact fadd_comm_of_not_nan hxn hyn
  case mulComm => exact fmul_comm_of_not_nan hxn hyn
  case zeroByZero => exact fun hy0 hx0 => fdiv_zero_by_zero hx0 hy0
  case byZero => exact fun s m e hd hm hy0 => fdiv_by_zero hd hm hy0
  case root => exact fun hneg hzero => fsqrt_of_neg hxn hneg hzero
  case ownRounding => exact fun s m e hd => Fmt.round_decode (Fmt.ofW_proper w).1 rm (by rwa [Fmt.ofW_width]) hd

end Sys2Proof.VectorProofs
end

section
/-! PROOFS. The canonical form of the tables (O5, O6): a rule for the form of a state written out, one lemma per operation of the model,
    one per row of exec. -/

namespace Sys2Proof.Machine

/-- A state written out is in canonical form exactly if each of its tables is. -/
@[simp] theorem State.canonical_mk (pending : List Instr) (fuses : Fuses) (flash : Mem) (su : Startup) (hif : Hif) (tetPsel : BitVec 5)
    (tetCsel : Byte) (cores : SMap Core) (mesh : List MeshMsg) (parts : SMap Part) (spn : Spn) (lnk : Lnk) (gon : Gon) (sec : Sec) (pwr : Pwr)
    (mgt : Mgt) (free : Nat) (outbox : List Out) :
    (State.mk pending fuses flash su hif tetPsel tetCsel cores mesh parts spn lnk gon sec pwr mgt free outbox).canonical = true ↔
      flash.wf = true ∧ SMap.wf Core.blank cores = true ∧ SMap.wf Part.blank parts = true ∧ SMap.wf Ring.blank hif.rings = true
      ∧ SMap.wf Func.blank hif.funcs = true ∧ SMap.wf none spn.extents = true ∧ SMap.wf Tile.blank spn.tiles = true
      ∧ SMap.wf Port.blank lnk.ports = true ∧ SMap.wf [] lnk.buckets = true ∧ SMap.wf none lnk.floors = true
      ∧ SMap.wf Gondola.blank gon.table = true ∧ SMap.wf Reel.blank gon.reels = true ∧ SMap.wf none sec.envs = true := by
  simp only [State.canonical, Bool.and_eq_true, and_assoc]

section
variable {s : State} (hs : s.canonical = true)
include hs

theorem State.canonical_tables : s.flash.wf = true ∧ SMap.wf Core.blank s.cores = true ∧ SMap.wf Part.blank s.parts = true ∧ SMap.wf Ring.blank
    s.hif.rings = true
      ∧ SMap.wf Func.blank s.hif.funcs = true ∧ SMap.wf none s.spn.extents = true ∧ SMap.wf Tile.blank s.spn.tiles = true
      ∧ SMap.wf Port.blank s.lnk.ports = true ∧ SMap.wf [] s.lnk.buckets = true ∧ SMap.wf none s.lnk.floors = true
      ∧ SMap.wf Gondola.blank s.gon.table = true ∧ SMap.wf Reel.blank s.gon.reels = true ∧ SMap.wf none s.sec.envs = true := by
  cases s; simpa using hs
@[simp] theorem State.canonical.flash : s.flash.wf = true := (canonical_tables hs).1
@[simp] theorem State.canonical.cores : SMap.wf Core.blank s.cores = true := (canonical_tables hs).2.1
@[simp] theorem State.canonical.parts : SMap.wf Part.blank s.parts = true := (canonical_tables hs).2.2.1
@[simp] theorem State.canonical.rings : SMap.wf Ring.blank s.hif.rings = true := (canonical_tables hs).2.2.2.1
@[simp] theorem State.canonical.funcs : SMap.wf Func.blank s.hif.funcs = true := (canonical_tables hs).2.2.2.2.1
@[simp] theorem State.canonical.extents : SMap.wf none s.spn.extents = true := (canonical_tables hs).2.2.2.2.2.1
@[simp] theorem State.canonical.tiles : SMap.wf Tile.blank s.spn.tiles = true := (canonical_tables hs).2.2.2.2.2.2.1
@[simp] theorem State.canonical.ports : SMap.wf Port.blank s.lnk.ports = true := (canonical_tables hs).2.2.2.2.2.2.2.1
@[simp] theorem State.canonical.buckets : SMap.wf [] s.lnk.buckets = true := (canonical_tables hs).2.2.2.2.2.2.2.2.1
@[simp] theorem State.canonical.floors : SMap.wf none s.lnk.floors = true := (canonical_tables hs).2.2.2.2.2.2.2.2.2.1
@[simp] theorem State.canonical.gondolas : SMap.wf Gondola.blank s.gon.table = true := (canonical_tables hs).2.2.2.2.2.2.2.2.2.2.1
@[simp] theorem State.canonical.reels : SMap.wf Reel.blank s.gon.reels = true := (canonical_tables hs).2.2.2.2.2.2.2.2.2.2.2.1
@[simp] theorem State.canonical.envs : SMap.wf none s.sec.envs = true := (canonical_tables hs).2.2.2.2.2.2.2.2.2.2.2.2
end

theorem foldl_canonical {α : Type} (f : State → α → State) (h : ∀ t a, t.canonical = true → (f t a).canonical = true) (l : List α) (s : State)
    (hs : s.canonical = true) : (l.foldl f s).canonical = true := by
  induction l generalizing s with
  | nil => exact hs
  | cons a r ih => exact ih _ (h s a hs)

@[simp] theorem ite_canonical (c : Prop) [Decidable c] (a b : State) :
    (if c then a else b).canonical = true ↔ (c → a.canonical = true) ∧ (¬c → b.canonical = true) := by
  split <;> simp_all

@[simp] theorem SMap.wf_nil {α : Type} [DecidableEq α] (d : α) : SMap.wf d ([] : SMap α) = true := rfl

theorem State.canonical_lnk {x : Lnk} {s : State} (hs : s.canonical = true) (hp : x.ports = s.lnk.ports) (hb : x.buckets = s.lnk.buckets)
    (hf : SMap.wf none x.floors = true) : ({ s with lnk := x } : State).canonical = true := by
  simp [hs, hp, hb, hf]

theorem foldl_set_wf {α β : Type} [DecidableEq β] {d : β} (l : List α) (k : α → Nat) (v : α → β) (m : SMap β)
    (hm : SMap.wf d m = true) : SMap.wf d (l.foldl (fun m e => SMap.set d m (k e) (v e)) m) = true := by
  induction l generalizing m with
  | nil => exact hm
  | cons a r ih => exact ih _ (SMap.set_wf _ _ _ _ hm)

/-! #### Ops -/

theorem State.setCore_canonical (s : State) (k : Nat) (c : Core) (hs : s.canonical = true) :
    (State.setCore s k c).canonical = true := by
  unfold State.setCore
  simp [hs, SMap.set_wf]

theorem State.modCore_canonical (s : State) (k : Nat) (f : Core → Core) (hs : s.canonical = true) :
    (State.modCore s k f).canonical = true := by
  unfold State.modCore
  grind [State.setCore_canonical]

theorem State.setPart_canonical (s : State) (n : Nat) (p : Part) (hs : s.canonical = true) :
    (State.setPart s n p).canonical = true := by
  unfold State.setPart
  simp [hs, SMap.set_wf]

theorem State.modPart_canonical (s : State) (n : Nat) (f : Part → Part) (hs : s.canonical = true) :
    (State.modPart s n f).canonical = true := by
  unfold State.modPart
  grind [State.setPart_canonical]

theorem State.setPort_canonical (s : State) (p : Nat) (x : Port) (hs : s.canonical = true) :
    (State.setPort s p x).canonical = true := by
  unfold State.setPort
  simp [hs, SMap.set_wf]

theorem State.modPort_canonical (s : State) (p : Nat) (f : Port → Port) (hs : s.canonical = true) :
    (State.modPort s p f).canonical = true := by
  unfold State.modPort
  grind [State.setPort_canonical]

theorem State.setRing_canonical (s : State) (o : RingId) (r : Ring) (hs : s.canonical = true) :
    (State.setRing s o r).canonical = true := by
  unfold State.setRing
  simp [hs, SMap.set_wf]

theorem State.setFunc_canonical (s : State) (fn : Nat) (f : Func) (hs : s.canonical = true) :
    (State.setFunc s fn f).canonical = true := by
  unfold State.setFunc
  simp [hs, SMap.set_wf]

theorem State.setGondola_canonical (s : State) (g : Nat) (d : Gondola) (hs : s.canonical = true) :
    (State.setGondola s g d).canonical = true := by
  unfold State.setGondola
  simp [hs, SMap.set_wf]

theorem State.setReel_canonical (s : State) (i : Nat) (r : Reel) (hs : s.canonical = true) :
    (State.setReel s i r).canonical = true := by
  unfold State.setReel
  simp [hs, SMap.set_wf]

theorem State.setBucket_canonical (s : State) (i : Nat) (l : List BktDef) (hs : s.canonical = true) :
    (State.setBucket s i l).canonical = true := by
  unfold State.setBucket
  simp [hs, SMap.set_wf]

theorem State.modCores_canonical (s : State) (l : List Nat) (f : Nat → Core → Core) (hs : s.canonical = true) :
    (State.modCores s l f).canonical = true := by
  unfold State.modCores
  grind [State.modCore_canonical, foldl_canonical]

theorem State.tick_canonical (s : State) (hs : s.canonical = true) :
    (State.tick s).canonical = true := by
  unfold State.tick
  grind [State.canonical_mk, State.canonical_tables]

theorem State.emit_canonical (s : State) (o : Out) (hs : s.canonical = true) :
    (State.emit s o).canonical = true := by
  unfold State.emit
  grind [State.canonical_mk, State.canonical_tables]

theorem State.fire_canonical (s : State) (fn vec : Nat) (hs : s.canonical = true) :
    (State.fire s fn vec).canonical = true := by
  unfold State.fire
  grind [State.setFunc_canonical, State.emit_canonical, State.canonical_mk, State.canonical_tables]

theorem State.firePending_canonical (s : State) (fn vec : Nat) (hs : s.canonical = true) :
    (State.firePending s fn vec).canonical = true := by
  unfold State.firePending
  grind [State.setFunc_canonical, State.emit_canonical, State.canonical_mk, State.canonical_tables]

theorem State.putEntry_canonical (s : State) (o : RingId) (e : CplEntry) (hs : s.canonical = true) :
    (State.putEntry s o e).canonical = true := by
  unfold State.putEntry
  grind [State.setRing_canonical, State.emit_canonical, State.fire_canonical, State.canonical_mk, State.canonical_tables]

theorem State.flush_canonical (s : State) (o : RingId) (hs : s.canonical = true) :
    (State.flush s o).canonical = true := by
  unfold State.flush
  grind [State.putEntry_canonical, State.setRing_canonical, foldl_canonical, State.canonical_mk, State.canonical_tables, SMap.filter_wf]

theorem State.enqueueRaw_canonical (s : State) (o : RingId) (e : CplEntry) (hs : s.canonical = true) :
    (State.enqueueRaw s o e).canonical = true := by
  unfold State.enqueueRaw
  grind [State.setRing_canonical, State.flush_canonical, State.canonical_mk, State.canonical_tables, SMap.filter_wf]

theorem State.log_canonical (s : State) (e : Ev) (cls : Nat) (hs : s.canonical = true) :
    (State.log s e cls).canonical = true := by
  unfold State.log
  grind [State.tick_canonical, State.emit_canonical, State.canonical_mk, State.canonical_tables]

theorem State.postRaw_canonical (s : State) (part : Option Nat) (e : CplEntry) (hs : s.canonical = true) :
    (State.postRaw s part e).canonical = true := by
  unfold State.postRaw
  grind [State.enqueueRaw_canonical, State.fire_canonical, State.canonical_mk, State.canonical_tables]

theorem State.post_canonical (s : State) (part : Option Nat) (e : CplEntry) (hs : s.canonical = true) :
    (State.post s part e).canonical = true := by
  unfold State.post
  grind [State.postRaw_canonical, State.log_canonical, State.canonical_mk, State.canonical_tables]

theorem State.raise_canonical (s : State) (e : Ev) (enabled : Bool := true) (hs : s.canonical = true) :
    (State.raise s e enabled).canonical = true := by
  unfold State.raise
  grind [State.log_canonical, State.post_canonical]

theorem State.hifEvent_canonical (s : State) (i : Nat) (e : Ev) (hs : s.canonical = true) :
    (State.hifEvent s i e).canonical = true := by
  unfold State.hifEvent
  grind [State.raise_canonical, State.canonical_mk, State.canonical_tables]

theorem State.spnEvent_canonical (s : State) (i : Nat) (e : Ev) (hs : s.canonical = true) :
    (State.spnEvent s i e).canonical = true := by
  unfold State.spnEvent
  grind [State.raise_canonical, State.canonical_mk, State.canonical_tables]

theorem State.lnkEvent_canonical (s : State) (i : Nat) (e : Ev) (hs : s.canonical = true) :
    (State.lnkEvent s i e).canonical = true := by
  unfold State.lnkEvent
  grind [State.raise_canonical, State.canonical_mk, State.canonical_tables]

theorem State.gonEvent_canonical (s : State) (i : Nat) (e : Ev) (hs : s.canonical = true) :
    (State.gonEvent s i e).canonical = true := by
  unfold State.gonEvent
  grind [State.raise_canonical, State.canonical_mk, State.canonical_tables]

theorem State.secEvent_canonical (s : State) (i : Nat) (e : Ev) (hs : s.canonical = true) :
    (State.secEvent s i e).canonical = true := by
  unfold State.secEvent
  grind [State.raise_canonical, State.canonical_mk, State.canonical_tables]

theorem State.pwrEvent_canonical (s : State) (i : Nat) (e : Ev) (hs : s.canonical = true) :
    (State.pwrEvent s i e).canonical = true := by
  unfold State.pwrEvent
  grind [State.raise_canonical, State.canonical_mk, State.canonical_tables]

theorem State.settle_canonical (s : State) (o : RingId) (hs : s.canonical = true) :
    (State.settle s o).canonical = true := by
  unfold State.settle
  grind [State.flush_canonical, State.setRing_canonical, State.raise_canonical, State.canonical_mk, State.canonical_tables, SMap.filter_wf]

theorem State.logCorrected_canonical (s : State) (offset port value : Nat) (hs : s.canonical = true) :
    (State.logCorrected s offset port value).canonical = true := by
  unfold State.logCorrected
  grind [State.tick_canonical, State.log_canonical, State.canonical_mk, State.canonical_tables]

theorem State.count_canonical (s : State) (part : Option Nat) (k n : Nat) (hs : s.canonical = true) :
    (State.count s part k n).canonical = true := by
  unfold State.count
  grind [State.modPart_canonical, State.canonical_mk, State.canonical_tables]

theorem State.complete_canonical (s : State) (ref : CmdRef) (status : Nat) (result : Nat := 0) (hs : s.canonical = true) :
    (State.complete s ref status result).canonical = true := by
  unfold State.complete
  grind [State.setRing_canonical, State.flush_canonical, State.canonical_mk, State.canonical_tables]

theorem State.completeOpt_canonical (s : State) (ref : Option CmdRef) (status : Nat) (result : Nat := 0) (hs : s.canonical = true) :
    (State.completeOpt s ref status result).canonical = true := by
  unfold State.completeOpt
  grind [State.complete_canonical, State.canonical_mk, State.canonical_tables]

theorem State.checked_canonical (s : State) (ref : CmdRef) (checks : List (Bool × Nat)) (f : State → State) (hf : ∀ (x0 : State),
    x0.canonical = true → (f x0).canonical = true) (hs : s.canonical = true) :
    (State.checked s ref checks f).canonical = true := by
  unfold State.checked
  grind [State.complete_canonical, State.canonical_mk, State.canonical_tables]

/-! #### PartOps -/

theorem State.createPartition_canonical (s : State) (n : Nat) (kites : W32) (hbm ballast link : Byte) (hs : s.canonical = true) :
    (State.createPartition s n kites hbm ballast link).canonical = true := by
  unfold State.createPartition
  grind [State.setPart_canonical, State.modCores_canonical, State.tick_canonical, State.canonical_mk, State.canonical_tables, SMap.set_wf]

/-! #### Startup -/

theorem State.dark_canonical (s : State) (hs : s.canonical = true) :
    (State.dark s).canonical = true := by
  unfold State.dark
  simp [hs]

theorem State.toStage_canonical (s : State) (st : Byte) (hs : s.canonical = true) :
    (State.toStage s st).canonical = true := by
  unfold State.toStage
  grind [State.canonical_mk, State.canonical_tables]

theorem State.seeInput_canonical (s : State) (cv : W16) (hs : s.canonical = true) :
    (State.seeInput s cv).canonical = true := by
  unfold State.seeInput
  grind [State.canonical_mk, State.canonical_tables]

theorem State.note_canonical (s : State) (st : Nat) (hs : s.canonical = true) :
    (State.note s st).canonical = true := by
  unfold State.note
  grind [State.log_canonical, State.canonical_mk, State.canonical_tables]

theorem State.halt_canonical (s : State) (st : Nat) (hs : s.canonical = true) :
    (State.halt s st).canonical = true := by
  unfold State.halt
  grind [State.log_canonical, State.canonical_mk, State.canonical_tables]

theorem State.trip_canonical (s : State) (hs : s.canonical = true) :
    (State.trip s).canonical = true := by
  unfold State.trip
  grind [State.dark_canonical, State.halt_canonical]

theorem State.wantFlash_canonical (s : State) (hs : s.canonical = true) :
    (State.wantFlash s).canonical = true := by
  unfold State.wantFlash
  grind [State.toStage_canonical, State.canonical_mk, State.canonical_tables]

theorem State.presentHx_canonical (s : State) (hs : s.canonical = true) :
    (State.presentHx s).canonical = true := by
  unfold State.presentHx
  grind [State.tick_canonical, State.canonical_mk, State.canonical_tables]

theorem State.cutOff_canonical (s : State) (cv : W16) (st : Nat) (hs : s.canonical = true) :
    (State.cutOff s cv st).canonical = true := by
  unfold State.cutOff
  grind [State.dark_canonical, State.log_canonical, State.toStage_canonical, State.note_canonical, State.canonical_mk, State.canonical_tables]

theorem State.overcurrent_canonical (s : State) (hs : s.canonical = true) :
    (State.overcurrent s).canonical = true := by
  unfold State.overcurrent
  grind [State.trip_canonical, State.canonical_mk, State.canonical_tables]

theorem State.modReset_canonical (s : State) (hs : s.canonical = true) :
    (State.modReset s).canonical = true := by
  unfold State.modReset
  grind [State.dark_canonical, State.canonical_mk, State.canonical_tables]

theorem State.modResetEnd_canonical (s : State) (lowUs : Nat) (hs : s.canonical = true) :
    (State.modResetEnd s lowUs).canonical = true := by
  unfold State.modResetEnd
  grind [State.canonical_mk, State.canonical_tables]

theorem State.slotFailed_canonical (s : State) (st : Nat) (hs : s.canonical = true) :
    (State.slotFailed s st).canonical = true := by
  unfold State.slotFailed
  grind [State.halt_canonical, State.log_canonical, State.wantFlash_canonical, State.canonical_mk, State.canonical_tables]

theorem State.publishArrays_canonical (s : State) (hs : s.canonical = true) :
    (State.publishArrays s).canonical = true := by
  unfold State.publishArrays
  grind [State.emit_canonical, State.canonical_mk, State.canonical_tables]

theorem State.takeOut_canonical (s : State) (u : TestUnit) (hs : s.canonical = true) :
    (State.takeOut s u).canonical = true := by
  unfold State.takeOut
  grind [State.modPort_canonical, State.canonical_mk, State.canonical_tables]

theorem State.gradeCheck_canonical (s : State) (hs : s.canonical = true) :
    (State.gradeCheck s).canonical = true := by
  unfold State.gradeCheck
  grind [State.note_canonical, State.canonical_mk, State.canonical_tables]

theorem State.openPorts_canonical (s : State) (hs : s.canonical = true) :
    (State.openPorts s).canonical = true := by
  unfold State.openPorts
  grind [State.modPort_canonical, foldl_canonical, State.canonical_mk, State.canonical_tables]

theorem State.createDefaults_canonical (s : State) (n : Nat) (l : List (W32 × Byte × Byte × Byte)) (hs : s.canonical = true) :
    (State.createDefaults s n l).canonical = true := by
  induction l generalizing s n with
  | nil => grind [State.createDefaults, State.note_canonical, State.createPartition_canonical, State.canonical_mk, State.canonical_tables]
  | cons e r ih => grind [State.createDefaults, State.note_canonical, State.createPartition_canonical, State.canonical_mk, State.canonical_tables]

theorem State.finishStartup_canonical (s : State) (hs : s.canonical = true) :
    (State.finishStartup s).canonical = true := by
  unfold State.finishStartup
  extract_lets t1 g1 t2 t3 t4 hif3 t5 t6
  have h2 : t2.canonical = true := by simp [t2, t1, g1, State.toStage, hs]
  have h3 : t3.canonical = true := by
    simp only [t3]
    split
    · exact State.createDefaults_canonical _ _ _ h2
    · exact State.note_canonical _ _ h2
  have h5 : t5.canonical = true := by simp [t5, t4, hif3, State.toStage, h3]
  have h6 : t6.canonical = true := State.fire_canonical _ _ _ h5
  split
  · exact State.emit_canonical _ _ h6
  · exact h6

/-! #### HostIf -/

theorem State.resume_canonical (s : State) (fn : Nat) (hs : s.canonical = true) :
    (State.resume s fn).canonical = true := by
  unfold State.resume
  grind [State.settle_canonical, State.firePending_canonical, foldl_canonical, State.canonical_mk, State.canonical_tables]

theorem State.hostLinkDown_canonical (s : State) (hs : s.canonical = true) :
    (State.hostLinkDown s).canonical = true := by
  unfold State.hostLinkDown
  grind [State.hifEvent_canonical, State.canonical_mk, State.canonical_tables]

/-! #### Keys -/

theorem State.setEnv_canonical (s : State) (part idx : Nat) (e : Option Env) (hs : s.canonical = true) :
    (State.setEnv s part idx e).canonical = true := by
  unfold State.setEnv
  simp [hs, SMap.set_wf]

/-! #### SpanOps -/

theorem State.setExtent_canonical (s : State) (part ext : Nat) (e : Option Extent) (hs : s.canonical = true) :
    (State.setExtent s part ext e).canonical = true := by
  unfold State.setExtent
  simp [hs, SMap.set_wf]

theorem State.setTile_canonical (s : State) (owner slot : Nat) (t : Tile) (hs : s.canonical = true) :
    (State.setTile s owner slot t).canonical = true := by
  unfold State.setTile
  simp [hs, SMap.set_wf]

theorem State.writeNear_canonical (s : State) (t : Tile) (hs : s.canonical = true) :
    (State.writeNear s t).canonical = true := by
  unfold State.writeNear
  grind [State.modCore_canonical, State.canonical_mk, State.canonical_tables, SMap.filter_wf]

theorem State.makeRoom_canonical (s : State) (part need except : Nat) (n : Nat) (hs : s.canonical = true) :
    (State.makeRoom s part need except n).1.canonical = true := by
  induction n generalizing s part need except with
  | zero => grind [State.makeRoom, State.setTile_canonical, State.canonical_mk, State.canonical_tables]
  | succ n ih => grind [State.makeRoom, State.setTile_canonical, State.canonical_mk, State.canonical_tables]

theorem State.roomFor_canonical (s : State) (part need except : Nat) (hs : s.canonical = true) :
    (State.roomFor s part need except).1.canonical = true := by
  unfold State.roomFor
  grind [State.makeRoom_canonical]

theorem State.restTile_canonical (s : State) (owner slot : Nat) (t : Tile) (hs : s.canonical = true) :
    (State.restTile s owner slot t).canonical = true := by
  unfold State.restTile
  grind [State.setTile_canonical, State.roomFor_canonical, State.canonical_mk, State.canonical_tables]

theorem State.settleJobs_canonical (s : State) (hs : s.canonical = true) :
    (State.settleJobs s).canonical = true := by
  unfold State.settleJobs
  grind [State.completeOpt_canonical, foldl_canonical, State.canonical_mk, State.canonical_tables, SMap.filter_wf]

theorem State.scrubTile_canonical (s : State) (owner slot : Nat) (hs : s.canonical = true) :
    (State.scrubTile s owner slot).canonical = true := by
  unfold State.scrubTile
  grind [State.writeNear_canonical, State.setTile_canonical, State.settleJobs_canonical, State.canonical_mk, State.canonical_tables]

theorem State.spnStuck_canonical (s : State) (before after : W32) (offset : Nat) (hs : s.canonical = true) :
    (State.spnStuck s before after offset).canonical = true := by
  unfold State.spnStuck
  grind [State.spnEvent_canonical, State.canonical_mk, State.canonical_tables]

theorem State.corrected_canonical (s : State) (tier2 : Bool) (n : Nat) (hs : s.canonical = true) :
    (State.corrected s tier2 n).canonical = true := by
  unfold State.corrected
  grind [State.spnStuck_canonical, State.logCorrected_canonical, State.canonical_mk, State.canonical_tables]

theorem State.poisonTile_canonical (s : State) (owner slot : Nat) (hs : s.canonical = true) :
    (State.poisonTile s owner slot).canonical = true := by
  unfold State.poisonTile
  grind [State.setTile_canonical, State.spnStuck_canonical, State.canonical_mk, State.canonical_tables]

theorem State.codewords_canonical (s : State) (owner slot : Nat) (errs : CodeErrs) (hs : s.canonical = true) :
    (State.codewords s owner slot errs).canonical = true := by
  unfold State.codewords
  grind [State.corrected_canonical, State.poisonTile_canonical, State.setTile_canonical, foldl_canonical, State.canonical_mk,
    State.canonical_tables]

theorem State.countTier_canonical (s : State) (part : Nat) (t : Tile) (hs : s.canonical = true) :
    (State.countTier s part t).canonical = true := by
  unfold State.countTier
  grind [State.modPart_canonical, State.count_canonical]

theorem State.putBack_canonical (s : State) (owner slot : Nat) (hs : s.canonical = true) :
    (State.putBack s owner slot).canonical = true := by
  unfold State.putBack
  grind [State.setTile_canonical, State.restTile_canonical, State.countTier_canonical, State.poisonTile_canonical, State.settleJobs_canonical,
    State.canonical_mk, State.canonical_tables]

theorem State.poisonRead_canonical (s : State) (part slot : Nat) (hs : s.canonical = true) :
    (State.poisonRead s part slot).canonical = true := by
  unfold State.poisonRead
  grind [State.modPart_canonical, State.spnEvent_canonical, State.canonical_mk, State.canonical_tables]

theorem State.promoteWarm_canonical (s : State) (part slot : Nat) (hs : s.canonical = true) :
    (State.promoteWarm s part slot).canonical = true := by
  unfold State.promoteWarm
  grind [State.roomFor_canonical, State.setTile_canonical, State.canonical_mk, State.canonical_tables]

theorem State.takeNear_canonical (s : State) (part slot core : Nat) (hs : s.canonical = true) :
    (State.takeNear s part slot core).canonical = true := by
  unfold State.takeNear
  grind [State.poisonRead_canonical, State.countTier_canonical, State.setTile_canonical, State.writeNear_canonical, State.canonical_mk,
    State.canonical_tables]

theorem State.hintNow_canonical (s : State) (part hint core slot : Nat) (hs : s.canonical = true) :
    (State.hintNow s part hint core slot).canonical = true := by
  unfold State.hintNow
  grind [State.setTile_canonical, State.putBack_canonical, State.takeNear_canonical, State.promoteWarm_canonical, State.canonical_mk,
    State.canonical_tables]

theorem State.hintTile_canonical (s : State) (part hint core slot : Nat) (hs : s.canonical = true) :
    (State.hintTile s part hint core slot).canonical = true := by
  unfold State.hintTile
  grind [State.setTile_canonical, State.hintNow_canonical, State.canonical_mk, State.canonical_tables]

theorem State.applyHint_canonical (s : State) (owner slot : Nat) (hs : s.canonical = true) :
    (State.applyHint s owner slot).canonical = true := by
  unfold State.applyHint
  grind [State.hintNow_canonical, State.canonical_mk, State.canonical_tables]

theorem State.writeTile_canonical (s : State) (owner slot : Nat) (e : Extent) (d : TileData) (hs : s.canonical = true) :
    (State.writeTile s owner slot e d).canonical = true := by
  unfold State.writeTile
  grind [State.restTile_canonical, State.writeNear_canonical, State.applyHint_canonical, State.settleJobs_canonical]

theorem State.writeBack_canonical (s : State) (p : Nat → Nat → Bool) (hs : s.canonical = true) :
    (State.writeBack s p).canonical = true := by
  unfold State.writeBack
  grind [State.putBack_canonical, State.applyHint_canonical, foldl_canonical]

theorem State.countRead_canonical (s : State) (part : Nat) (r : SlotRef) (slot : Nat) (hs : s.canonical = true) :
    (State.countRead s part r slot).canonical = true := by
  unfold State.countRead
  grind [State.modPart_canonical, State.setTile_canonical, State.roomFor_canonical, State.canonical_mk, State.canonical_tables]

theorem State.writeSlots_canonical (s : State) (part addr len : Nat) (m : Mem) (slot : Nat) (n : Nat) (hs : s.canonical = true) :
    (State.writeSlots s part addr len m slot n).canonical = true := by
  induction n generalizing s part addr len m slot with
  | zero => grind [State.writeSlots, State.writeTile_canonical, State.countTier_canonical, State.canonical_mk, State.canonical_tables]
  | succ n ih => grind [State.writeSlots, State.writeTile_canonical, State.countTier_canonical, State.canonical_mk, State.canonical_tables]

theorem State.spanWrite_canonical (s : State) (part addr len : Nat) (m : Mem) (hs : s.canonical = true) :
    (State.spanWrite s part addr len m).canonical = true := by
  unfold State.spanWrite
  grind [State.writeSlots_canonical]

theorem State.putTile_canonical (s : State) (part slot : Nat) (d : TileData) (hs : s.canonical = true) :
    (State.putTile s part slot d).canonical = true := by
  unfold State.putTile
  grind [State.writeTile_canonical, State.countTier_canonical, State.canonical_mk, State.canonical_tables]

theorem State.meetSlot_canonical (s : State) (part slot : Nat) (errs : CodeErrs) (hs : s.canonical = true) :
    (State.meetSlot s part slot errs).canonical = true := by
  unfold State.meetSlot
  grind [State.codewords_canonical, State.canonical_mk, State.canonical_tables]

theorem State.meetSlots_canonical (s : State) (part : Nat) (slots : List Nat) (errs : List (Nat × CodeErrs)) (hs : s.canonical = true) :
    (State.meetSlots s part slots errs).canonical = true := by
  unfold State.meetSlots
  grind [State.meetSlot_canonical, foldl_canonical]

theorem State.meetCodewords_canonical (s : State) (part addr len : Nat) (errs : List (Nat × CodeErrs)) (hs : s.canonical = true) :
    (State.meetCodewords s part addr len errs).canonical = true := by
  unfold State.meetCodewords
  grind [State.meetSlot_canonical, foldl_canonical]

theorem State.afterChecks_canonical (s : State) (before : List (Bool × Nat)) (read : State → State) (hf : ∀ (x0 : State),
    x0.canonical = true → (read x0).canonical = true) (hs : s.canonical = true) :
    (State.afterChecks s before read).canonical = true := by
  unfold State.afterChecks
  grind

theorem State.fetchTile_canonical (s : State) (part slot : Nat) (hs : s.canonical = true) :
    (State.fetchTile s part slot).1.canonical = true := by
  unfold State.fetchTile
  grind [State.meetSlot_canonical, State.tick_canonical, State.poisonRead_canonical, State.countTier_canonical]

theorem State.fetchTiles_canonical (s : State) (part : Nat) (l : List Nat) (hs : s.canonical = true) :
    (State.fetchTiles s part l).1.canonical = true := by
  induction l generalizing s with
  | nil => grind [State.fetchTiles, State.fetchTile_canonical, State.canonical_mk, State.canonical_tables]
  | cons a l ih => grind [State.fetchTiles, State.fetchTile_canonical, State.canonical_mk, State.canonical_tables]

theorem State.checkedMeeting_canonical (s : State) (ref : CmdRef) (part met : Nat) (bad : List Nat) (checks : List (Bool × Nat)) (f : State → State)
    (hf : ∀ (x0 : State), x0.canonical = true → (f x0).canonical = true) (hs : s.canonical = true) :
    (State.checkedMeeting s ref part met bad checks f).canonical = true := by
  unfold State.checkedMeeting
  grind [State.poisonRead_canonical, State.complete_canonical, foldl_canonical, State.canonical_mk, State.canonical_tables]

theorem State.checkedRead_canonical (s : State) (ref : CmdRef) (part addr len : Nat) (checks : List (Bool × Nat)) (f : State → State) (hf : ∀ (x0 :
    State), x0.canonical = true → (f x0).canonical = true) (hs : s.canonical = true) :
    (State.checkedRead s ref part addr len checks f).canonical = true := by
  unfold State.checkedRead
  grind [State.checkedMeeting_canonical]

theorem State.meeting_canonical (s : State) (ref : CmdRef) (part : Nat) (bad : List Nat) (checks : List (Bool × Nat)) (f : State → State) (hf : ∀ (x0
    : State), x0.canonical = true → (f x0).canonical = true) (hs : s.canonical = true) :
    (State.meeting s ref part bad checks f).canonical = true := by
  unfold State.meeting
  grind [State.checkedMeeting_canonical]

theorem State.countReads_canonical (s : State) (part addr len : Nat) (hs : s.canonical = true) :
    (State.countReads s part addr len).canonical = true := by
  unfold State.countReads
  grind [State.countRead_canonical, State.countTier_canonical, foldl_canonical, State.canonical_mk, State.canonical_tables]

theorem State.scrubRange_canonical (s : State) (part lo hi : Nat) (hs : s.canonical = true) :
    (State.scrubRange s part lo hi).canonical = true := by
  unfold State.scrubRange
  grind [State.scrubTile_canonical, foldl_canonical]

/-! #### SeqOps -/

theorem State.setSeq_canonical (s : State) (n : Nat) (x : SeqSlot) (hs : s.canonical = true) :
    (State.setSeq s n x).canonical = true := by
  unfold State.setSeq
  grind [State.modCore_canonical, State.canonical_mk, State.canonical_tables, SMap.set_wf]

theorem State.dropRef_canonical (s : State) (x : SeqSlot) (hs : s.canonical = true) :
    (State.dropRef s x).canonical = true := by
  unfold State.dropRef
  grind [State.setGondola_canonical, State.canonical_mk, State.canonical_tables]

theorem State.tokenBoundary_canonical (s : State) (n : Nat) (hs : s.canonical = true) :
    (State.tokenBoundary s n).canonical = true := by
  unfold State.tokenBoundary
  grind [State.setSeq_canonical, State.dropRef_canonical, State.canonical_mk, State.canonical_tables]

theorem State.endSeq_canonical (s : State) (n : Nat) (status : W16) (hs : s.canonical = true) :
    (State.endSeq s n status).canonical = true := by
  unfold State.endSeq
  grind [State.setSeq_canonical, State.gonEvent_canonical, State.tokenBoundary_canonical, State.canonical_mk, State.canonical_tables]

theorem State.graceCheck_canonical (s : State) (n : Nat) (hs : s.canonical = true) :
    (State.graceCheck s n).canonical = true := by
  unfold State.graceCheck
  grind [State.endSeq_canonical, State.canonical_mk, State.canonical_tables]

theorem State.withdraw_canonical (s : State) (g : Nat) (hs : s.canonical = true) :
    (State.withdraw s g).canonical = true := by
  unfold State.withdraw
  grind [State.endSeq_canonical, foldl_canonical]

theorem State.scrubSlots_canonical (s : State) (part slot : Nat) (n : Nat) (hs : s.canonical = true) :
    (State.scrubSlots s part slot n).canonical = true := by
  induction n generalizing s slot with
  | zero => grind [State.scrubSlots, State.scrubTile_canonical, State.canonical_mk, State.canonical_tables]
  | succ n ih => grind [State.scrubSlots, State.scrubTile_canonical, State.canonical_mk, State.canonical_tables]

theorem State.scrubPages_canonical (s : State) (x : SeqSlot) (table : Mem) (i : Nat) (n : Nat) (hs : s.canonical = true) :
    (State.scrubPages s x table i n).canonical = true := by
  induction n generalizing s x table i with
  | zero => grind [State.scrubPages, State.scrubSlots_canonical]
  | succ n ih => grind [State.scrubPages, State.scrubSlots_canonical]

theorem State.scrubSeq_canonical (s : State) (x : SeqSlot) (hs : s.canonical = true) :
    (State.scrubSeq s x).canonical = true := by
  unfold State.scrubSeq
  grind [State.scrubPages_canonical, State.scrubSlots_canonical]

theorem State.freeSeq_canonical (s : State) (n : Nat) (hs : s.canonical = true) :
    (State.freeSeq s n).canonical = true := by
  unfold State.freeSeq
  grind [State.scrubSeq_canonical, State.setSeq_canonical, State.complete_canonical, State.post_canonical, foldl_canonical, State.canonical_mk,
    State.canonical_tables]

/-! #### CoreOps -/

theorem State.giveCredit_canonical (s : State) (src dst ch : Nat) (hs : s.canonical = true) :
    (State.giveCredit s src dst ch).canonical = true := by
  unfold State.giveCredit
  grind [State.modCore_canonical, State.modPart_canonical, State.canonical_mk, State.canonical_tables, SMap.filter_wf]

theorem State.grant_canonical (s : State) (dst ch : Nat) (n : Nat) (hs : s.canonical = true) :
    (State.grant s dst ch n).canonical = true := by
  induction n generalizing s dst ch with
  | zero => grind [State.grant, State.modCore_canonical, State.giveCredit_canonical, State.canonical_mk, State.canonical_tables]
  | succ n ih => grind [State.grant, State.modCore_canonical, State.giveCredit_canonical, State.canonical_mk, State.canonical_tables]

theorem State.grantAll_canonical (s : State) (dst ch : Nat) (hs : s.canonical = true) :
    (State.grantAll s dst ch).canonical = true := by
  unfold State.grantAll
  grind [State.grant_canonical]

theorem State.returnCredit_canonical (s : State) (dst ch : Nat) (hs : s.canonical = true) :
    (State.returnCredit s dst ch).canonical = true := by
  unfold State.returnCredit
  grind [State.modCore_canonical, State.grantAll_canonical, State.canonical_mk, State.canonical_tables]

theorem State.dropCredit_canonical (s : State) (k : Nat) (hs : s.canonical = true) :
    (State.dropCredit s k).canonical = true := by
  unfold State.dropCredit
  grind [State.modCore_canonical, State.returnCredit_canonical, State.canonical_mk, State.canonical_tables, SMap.filter_wf]

theorem State.reportEnd_canonical (s : State) (k st idx : Nat) (gen : W32) (hs : s.canonical = true) :
    (State.reportEnd s k st idx gen).canonical = true := by
  unfold State.reportEnd
  grind [State.post_canonical, State.canonical_mk, State.canonical_tables]

theorem State.checkReports_canonical (s : State) (part : Nat) (hs : s.canonical = true) :
    (State.checkReports s part).canonical = true := by
  unfold State.checkReports
  grind [State.modPart_canonical, State.post_canonical, foldl_canonical, State.canonical_mk, State.canonical_tables, SMap.filter_wf, SMap.keep_wf]

theorem State.keepNear_canonical (before after : State) (hs : after.canonical = true) :
    (State.keepNear before after).canonical = true := by
  unfold State.keepNear
  grind [State.writeNear_canonical, foldl_canonical, State.canonical_mk, State.canonical_tables]

theorem State.fitSupply_canonical (s : State) (k : Nat) (hs : s.canonical = true) :
    (State.fitSupply s k).canonical = true := by
  unfold State.fitSupply
  grind [State.modCore_canonical, State.canonical_mk, State.canonical_tables]

theorem State.staleMesh_canonical (s : State) (ks : List Nat) (hs : s.canonical = true) :
    (State.staleMesh s ks).canonical = true := by
  unfold State.staleMesh
  grind [State.canonical_mk, State.canonical_tables]

theorem State.moveKites_canonical (s : State) (part : Nat) (new : W32) (hs : s.canonical = true) :
    (State.moveKites s part new).canonical = true := by
  unfold State.moveKites
  grind [State.endSeq_canonical, State.writeBack_canonical, State.dropCredit_canonical, State.staleMesh_canonical, State.modCores_canonical,
    State.modPart_canonical, State.fitSupply_canonical, foldl_canonical, State.canonical_mk, State.canonical_tables]

theorem State.resizeMoved_canonical (s : State) (part : Nat) (r : Resize) (hs : s.canonical = true) :
    (State.resizeMoved s part r).canonical = true := by
  unfold State.resizeMoved
  grind [State.completeOpt_canonical, State.canonical_mk, State.canonical_tables]

theorem State.moveNear_canonical (s : State) (part : Nat) (hs : s.canonical = true) :
    (State.moveNear s part).canonical = true := by
  unfold State.moveNear
  grind [State.writeBack_canonical, State.keepNear_canonical, State.modPart_canonical, State.canonical_mk, State.canonical_tables, SMap.keep_wf]

theorem State.boundary_canonical (s : State) (part : Nat) (hs : s.canonical = true) :
    (State.boundary s part).canonical = true := by
  unfold State.boundary
  grind [State.moveKites_canonical, State.resizeMoved_canonical, State.moveNear_canonical, State.modPart_canonical, State.canonical_mk,
    State.canonical_tables]

theorem State.startCore_canonical (s : State) (k : Nat) (hs : s.canonical = true) :
    (State.startCore s k).canonical = true := by
  unfold State.startCore
  grind [State.keepNear_canonical, State.setCore_canonical, State.fitSupply_canonical, State.grantAll_canonical, State.reportEnd_canonical,
    foldl_canonical]

theorem State.takeGen_canonical (s : State) (part : Nat) (g : W32) (ks : List Nat) (hs : s.canonical = true) :
    (State.takeGen s part g ks).canonical = true := by
  unfold State.takeGen
  grind [State.modPart_canonical, State.boundary_canonical, State.startCore_canonical, State.checkReports_canonical, foldl_canonical,
    State.canonical_mk, State.canonical_tables, SMap.filter_wf]

theorem State.take_canonical (s : State) (part : Nat) (ks : List Nat) (hs : s.canonical = true) :
    (State.take s part ks).canonical = true := by
  unfold State.take
  grind [State.takeGen_canonical, State.canonical_mk, State.canonical_tables]

theorem State.swapBanks_canonical (s : State) (k : Nat) (hs : s.canonical = true) :
    (State.swapBanks s k).canonical = true := by
  unfold State.swapBanks
  grind [State.setCore_canonical, State.take_canonical, State.modCore_canonical, State.fitSupply_canonical, State.canonical_mk,
    State.canonical_tables]

theorem State.settleCore_canonical (s : State) (k : Nat) (hs : s.canonical = true) :
    (State.settleCore s k).canonical = true := by
  unfold State.settleCore
  grind [State.take_canonical, State.setCore_canonical, State.fitSupply_canonical, State.swapBanks_canonical, State.canonical_mk,
    State.canonical_tables]

theorem State.endRoutine_canonical (s : State) (k st idx : Nat) (hs : s.canonical = true) :
    (State.endRoutine s k st idx).canonical = true := by
  unfold State.endRoutine
  grind [State.dropCredit_canonical, State.modCore_canonical, State.reportEnd_canonical, State.settleCore_canonical, State.canonical_mk,
    State.canonical_tables]

/-! #### Issue -/

theorem State.sendNow_canonical (s : State) (k : Nat) (m : Mov) (dst u0 u1 t : Nat) (pay : Bool) (hint : Nat) (hs : s.canonical = true) :
    (State.sendNow s k m dst u0 u1 t pay hint).canonical = true := by
  unfold State.sendNow
  grind [State.modCore_canonical, State.dropCredit_canonical, State.canonical_mk, State.canonical_tables]

theorem State.recvNow_canonical (s : State) (k : Nat) (m : Mov) (ch u0 u1 meta_ t : Nat) (hs : s.canonical = true) :
    (State.recvNow s k m ch u0 u1 meta_ t).canonical = true := by
  unfold State.recvNow
  grind [State.setCore_canonical, State.returnCredit_canonical, State.canonical_mk, State.canonical_tables]

theorem State.movIssue_canonical (s : State) (k : Nat) (m : Mov) (hs : s.canonical = true) :
    (State.movIssue s k m).canonical = true := by
  unfold State.movIssue
  grind [State.setCore_canonical, State.sendNow_canonical, State.recvNow_canonical, State.canonical_mk, State.canonical_tables]

theorem State.vecIssue_canonical (s : State) (k : Nat) (v : Vec) (hs : s.canonical = true) :
    (State.vecIssue s k v).canonical = true := by
  unfold State.vecIssue
  grind [State.setCore_canonical, State.tick_canonical, State.count_canonical, State.canonical_mk, State.canonical_tables]

theorem State.issueSlots_canonical (s : State) (k : Nat) (b : Bundle) (hs : s.canonical = true) :
    (State.issueSlots s k b).canonical = true := by
  unfold State.issueSlots
  grind [State.modCore_canonical, State.vecIssue_canonical, State.movIssue_canonical, State.count_canonical]

theorem State.issueReady_canonical (s : State) (k : Nat) (b : Bundle) (hs : s.canonical = true) :
    (State.issueReady s k b).canonical = true := by
  unfold State.issueReady
  grind [State.endRoutine_canonical, State.swapBanks_canonical, State.issueSlots_canonical, State.setCore_canonical, State.canonical_mk,
    State.canonical_tables]

theorem State.issue_canonical (s : State) (k : Nat) (has : Bundle → Bool) (hs : s.canonical = true) :
    (State.issue s k has).canonical = true := by
  unfold State.issue
  grind [State.endRoutine_canonical, State.issueReady_canonical, State.canonical_mk, State.canonical_tables]

/-! #### TrainOps -/

theorem State.putCtx_canonical (s : State) (part : Nat) (x : Ctx) (hs : s.canonical = true) :
    (State.putCtx s part x).canonical = true := by
  unfold State.putCtx
  grind [State.modPart_canonical, State.putTile_canonical, State.canonical_mk, State.canonical_tables]

theorem State.countReject_canonical (s : State) (part : Nat) (before after : W32) (hs : s.canonical = true) :
    (State.countReject s part before after).canonical = true := by
  unfold State.countReject
  grind [State.raise_canonical, State.canonical_mk, State.canonical_tables]

theorem State.applyGate_canonical (s : State) (part : Nat) (x : Ctx) (sum : W64) (hs : s.canonical = true) :
    (State.applyGate s part x sum).canonical = true := by
  unfold State.applyGate
  grind [State.putCtx_canonical, State.raise_canonical, State.countReject_canonical, State.canonical_mk, State.canonical_tables]

theorem State.normArrives_canonical (s : State) (part : Nat) (step : W32) (sum : W64) (hs : s.canonical = true) :
    (State.normArrives s part step sum).canonical = true := by
  unfold State.normArrives
  grind [State.applyGate_canonical, State.modPart_canonical, State.canonical_mk, State.canonical_tables]

theorem State.enterReducing_canonical (s : State) (part : Nat) (x : Ctx) (hs : s.canonical = true) :
    (State.enterReducing s part x).canonical = true := by
  unfold State.enterReducing
  grind [State.putCtx_canonical, State.applyGate_canonical, State.canonical_mk, State.canonical_tables]

theorem State.commit_canonical (s : State) (part : Nat) (x : Ctx) (hs : s.canonical = true) :
    (State.commit s part x).canonical = true := by
  unfold State.commit
  grind [State.putCtx_canonical, State.enterReducing_canonical, State.canonical_mk, State.canonical_tables]

theorem State.tokenArrives_canonical (s : State) (part : Nat) (step : W32) (word : W64) (hs : s.canonical = true) :
    (State.tokenArrives s part step word).canonical = true := by
  unfold State.tokenArrives
  grind [State.commit_canonical, State.putCtx_canonical, State.raise_canonical, State.canonical_mk, State.canonical_tables]

theorem State.abortCtx_canonical (s : State) (part : Nat) (hs : s.canonical = true) :
    (State.abortCtx s part).canonical = true := by
  unfold State.abortCtx
  grind [State.putCtx_canonical, State.raise_canonical, State.canonical_mk, State.canonical_tables]

theorem State.cancelReshard_canonical (s : State) (x : Ctx) (hs : s.canonical = true) :
    (State.cancelReshard s x).canonical = true := by
  unfold State.cancelReshard
  grind [State.complete_canonical, State.canonical_mk, State.canonical_tables]

/-! #### Tether -/

theorem State.loadDone_canonical (s : State) (part : Nat) (st result : Nat) (hs : s.canonical = true) :
    (State.loadDone s part st result).canonical = true := by
  unfold State.loadDone
  grind [State.modPart_canonical, State.complete_canonical, State.canonical_mk, State.canonical_tables]

theorem State.dropSpool_canonical (s : State) (part k : Nat) (hs : s.canonical = true) :
    (State.dropSpool s part k).canonical = true := by
  unfold State.dropSpool
  grind [State.setCore_canonical, State.modPart_canonical, State.raise_canonical, State.canonical_mk, State.canonical_tables]

theorem State.startBroadcast_canonical (s : State) (part : Nat) (g : W32) (hs : s.canonical = true) :
    (State.startBroadcast s part g).canonical = true := by
  unfold State.startBroadcast
  grind [State.dropSpool_canonical, State.modCores_canonical, State.checkReports_canonical, foldl_canonical, State.canonical_mk,
    State.canonical_tables]

theorem State.haltNow_canonical (s : State) (k : Nat) (hs : s.canonical = true) :
    (State.haltNow s k).canonical = true := by
  unfold State.haltNow
  grind [State.setCore_canonical, State.dropCredit_canonical, State.fitSupply_canonical, State.canonical_mk, State.canonical_tables]

theorem State.snapDone_canonical (s : State) (part st : Nat) (g : W32) (halted : Nat) (hs : s.canonical = true) :
    (State.snapDone s part st g halted).canonical = true := by
  unfold State.snapDone
  grind [State.modPart_canonical, State.modCores_canonical, State.post_canonical, State.canonical_mk, State.canonical_tables]

theorem State.abortCore_canonical (s : State) (k : Nat) (hs : s.canonical = true) :
    (State.abortCore s k).canonical = true := by
  unfold State.abortCore
  grind [State.dropCredit_canonical, State.modCore_canonical, State.fitSupply_canonical, State.canonical_mk, State.canonical_tables]

theorem State.leaveStep_canonical (s : State) (n : Nat) (hs : s.canonical = true) :
    (State.leaveStep s n).canonical = true := by
  unfold State.leaveStep
  grind [State.setSeq_canonical, State.tokenBoundary_canonical, State.canonical_mk, State.canonical_tables]

theorem State.abortStep_canonical (s : State) (part : Nat) (hs : s.canonical = true) :
    (State.abortStep s part).canonical = true := by
  unfold State.abortStep
  grind [State.modPart_canonical, State.modCores_canonical, State.leaveStep_canonical, State.tokenBoundary_canonical, foldl_canonical,
    State.canonical_mk, State.canonical_tables, SMap.filter_wf, SMap.mapVals_wf]

theorem State.abort_canonical (s : State) (part : Nat) (hs : s.canonical = true) :
    (State.abort s part).canonical = true := by
  unfold State.abort
  grind [State.abortCore_canonical, State.modCores_canonical, State.modPart_canonical, State.complete_canonical, State.snapDone_canonical,
    State.checkReports_canonical, State.abortStep_canonical, State.abortCtx_canonical, foldl_canonical, State.canonical_mk, State.canonical_tables,
    SMap.filter_wf]

/-! #### Span -/

theorem State.addJob_canonical (s : State) (j : SpanJob) (done : Bool) (hs : s.canonical = true) :
    (State.addJob s j done).canonical = true := by
  unfold State.addJob
  grind [State.completeOpt_canonical, State.canonical_mk, State.canonical_tables]

theorem State.unmapOne_canonical (s : State) (part ext : Nat) (hs : s.canonical = true) :
    (State.unmapOne s part ext).canonical = true := by
  unfold State.unmapOne
  grind [State.scrubRange_canonical, State.setExtent_canonical, State.canonical_mk, State.canonical_tables]

theorem State.sealTile_canonical (s : State) (part slot : Nat) (hs : s.canonical = true) :
    (State.sealTile s part slot).canonical = true := by
  unfold State.sealTile
  grind [State.countTier_canonical, State.setTile_canonical, State.restTile_canonical, State.applyHint_canonical, State.canonical_mk,
    State.canonical_tables]

theorem State.setMode_canonical (s : State) (part ext m n : Nat) (hs : s.canonical = true) :
    (State.setMode s part ext m n).canonical = true := by
  unfold State.setMode
  grind [State.setExtent_canonical, State.sealTile_canonical, State.settleJobs_canonical, foldl_canonical, State.canonical_mk,
    State.canonical_tables, SMap.filter_wf]

theorem State.setOp_canonical (s : State) (core k : Nat) (o : InFlight) (hs : s.canonical = true) :
    (State.setOp s core k o).canonical = true := by
  unfold State.setOp
  grind [State.modCore_canonical, State.canonical_mk, State.canonical_tables]

theorem State.served_canonical (s : State) (core k : Nat) (o : InFlight) (st : W16) (hs : s.canonical = true) :
    (State.served s core k o st).canonical = true := by
  unfold State.served
  grind [State.setOp_canonical, State.canonical_mk, State.canonical_tables]

theorem State.coreWrite_canonical (s : State) (part : Nat) (r : SlotRef) (slot : Nat) (d : TileData) (hs : s.canonical = true) :
    (State.coreWrite s part r slot d).canonical = true := by
  unfold State.coreWrite
  grind [State.writeTile_canonical, State.countTier_canonical]

theorem State.readBack_canonical (s : State) (core k part : Nat) (o : InFlight) (r : SlotRef) (slot dst n : Nat) (hs : s.canonical = true) :
    (State.readBack s core k part o r slot dst n).canonical = true := by
  unfold State.readBack
  grind [State.poisonRead_canonical, State.served_canonical, State.countTier_canonical, State.countRead_canonical, State.modCore_canonical]

/-! #### Sequence -/

theorem State.enrol_canonical (s : State) (slot : Nat) (x : SeqSlot) (hs : s.canonical = true) :
    (State.enrol s slot x).canonical = true := by
  unfold State.enrol
  grind [State.setSeq_canonical, State.setGondola_canonical, State.canonical_mk, State.canonical_tables]

/-! #### Gondola -/

theorem State.place_canonical (s : State) (part residency addr : Nat) (hs : s.canonical = true) :
    (State.place s part residency addr).canonical = true := by
  unfold State.place
  grind [State.hintTile_canonical, foldl_canonical]

theorem State.readVersion_canonical (s : State) (part addr : Nat) (hs : s.canonical = true) :
    (State.readVersion s part addr).canonical = true := by
  unfold State.readVersion
  grind [State.countReads_canonical, foldl_canonical]

theorem State.endMoor_canonical (s : State) (g : Nat) (hs : s.canonical = true) :
    (State.endMoor s g).canonical = true := by
  unfold State.endMoor
  grind [State.setGondola_canonical, State.completeOpt_canonical, State.canonical_mk, State.canonical_tables]

theorem State.endSwap_canonical (s : State) (g : Nat) (hs : s.canonical = true) :
    (State.endSwap s g).canonical = true := by
  unfold State.endSwap
  grind [State.setGondola_canonical, State.complete_canonical, State.canonical_mk, State.canonical_tables]

theorem State.startRelease_canonical (s : State) (g : Nat) (ref : Option CmdRef) (hs : s.canonical = true) :
    (State.startRelease s g ref).canonical = true := by
  unfold State.startRelease
  grind [State.setGondola_canonical, State.withdraw_canonical, State.canonical_mk, State.canonical_tables]

theorem State.cut_canonical (s : State) (g : Nat) (hs : s.canonical = true) :
    (State.cut s g).canonical = true := by
  unfold State.cut
  grind [State.setGondola_canonical, State.setSeq_canonical, State.graceCheck_canonical, foldl_canonical, State.canonical_mk,
    State.canonical_tables]

theorem State.evict_canonical (s : State) (g : Nat) (ref : CmdRef) (hs : s.canonical = true) :
    (State.evict s g ref).canonical = true := by
  unfold State.evict
  grind [State.startRelease_canonical, State.cut_canonical, State.complete_canonical]

theorem State.releaseVersion_canonical (s : State) (part addr : Nat) (hs : s.canonical = true) :
    (State.releaseVersion s part addr).canonical = true := by
  unfold State.releaseVersion
  grind [State.scrubSlots_canonical, foldl_canonical]

theorem State.releaseRetiring_canonical (s : State) (g : Nat) (hs : s.canonical = true) :
    (State.releaseRetiring s g).canonical = true := by
  unfold State.releaseRetiring
  grind [State.releaseVersion_canonical, State.setGondola_canonical, State.gonEvent_canonical, State.canonical_mk, State.canonical_tables]

theorem State.freeGondola_canonical (s : State) (g : Nat) (hs : s.canonical = true) :
    (State.freeGondola s g).canonical = true := by
  unfold State.freeGondola
  grind [State.releaseRetiring_canonical, State.releaseVersion_canonical, State.setGondola_canonical, State.gonEvent_canonical,
    State.completeOpt_canonical, State.canonical_mk, State.canonical_tables]

theorem State.putReel_canonical (s : State) (i : Nat) (r : Reel) (hs : s.canonical = true) :
    (State.putReel s i r).canonical = true := by
  unfold State.putReel
  grind [State.setReel_canonical, State.putTile_canonical, State.canonical_mk, State.canonical_tables]

theorem State.closeReel_canonical (s : State) (i : Nat) (hs : s.canonical = true) :
    (State.closeReel s i).canonical = true := by
  unfold State.closeReel
  grind [State.setReel_canonical, State.scrubRange_canonical, State.canonical_mk, State.canonical_tables]

theorem State.reelStuck_canonical (s : State) (before after : W64) (hs : s.canonical = true) :
    (State.reelStuck s before after).canonical = true := by
  unfold State.reelStuck
  grind [State.raise_canonical, State.canonical_mk, State.canonical_tables]

theorem State.dropRecord_canonical (s : State) (i : Nat) (now : W64) (hs : s.canonical = true) :
    (State.dropRecord s i now).canonical = true := by
  unfold State.dropRecord
  grind [State.putReel_canonical, State.reelStuck_canonical, State.gonEvent_canonical, State.canonical_mk, State.canonical_tables]

theorem State.append_canonical (s : State) (i : Nat) (d : TileData) (hs : s.canonical = true) :
    (State.append s i d).canonical = true := by
  unfold State.append
  grind [State.tick_canonical, State.dropRecord_canonical, State.putTile_canonical, State.putReel_canonical, State.canonical_mk,
    State.canonical_tables]

theorem State.accepted_canonical (s : State) (core k : Nat) (o : InFlight) (a : W64) (d : TileData) (hs : s.canonical = true) :
    (State.accepted s core k o a d).canonical = true := by
  unfold State.accepted
  grind [State.served_canonical, State.canonical_mk, State.canonical_tables]

theorem State.include_canonical (s : State) (n : Nat) (hs : s.canonical = true) :
    (State.include s n).canonical = true := by
  unfold State.include
  grind [State.setSeq_canonical, State.canonical_mk, State.canonical_tables]

theorem State.startStep_canonical (s : State) (part : Nat) (hs : s.canonical = true) :
    (State.startStep s part).canonical = true := by
  unfold State.startStep
  grind [State.include_canonical, State.putTile_canonical, State.modPart_canonical, foldl_canonical, State.canonical_mk, State.canonical_tables]

theorem State.countTokens_canonical (s : State) (part n k : Nat) (hs : s.canonical = true) :
    (State.countTokens s part n k).canonical = true := by
  unfold State.countTokens
  grind [State.setSeq_canonical, State.modPart_canonical, State.count_canonical, State.setGondola_canonical, State.served_canonical,
    State.canonical_mk, State.canonical_tables]

theorem State.endEntry_canonical (s : State) (part : Nat) (e : StepEntry) (field : Nat) (hs : s.canonical = true) :
    (State.endEntry s part e field).canonical = true := by
  unfold State.endEntry
  grind [State.countTokens_canonical, State.endSeq_canonical, State.graceCheck_canonical, State.leaveStep_canonical]

theorem State.endStep_canonical (s : State) (part : Nat) (p : Mem) (a : W64) (hs : s.canonical = true) :
    (State.endStep s part p a).canonical = true := by
  unfold State.endStep
  grind [State.endEntry_canonical, State.modPart_canonical, State.post_canonical, foldl_canonical, State.canonical_mk, State.canonical_tables]

theorem State.meetVersion_canonical (s : State) (part addr : Nat) (errs : List (Nat × CodeErrs)) (hs : s.canonical = true) :
    (State.meetVersion s part addr errs).canonical = true := by
  unfold State.meetVersion
  grind [State.meetSlots_canonical]

/-! #### LinkOps -/

theorem State.emitFrame_canonical (s : State) (p : Nat) (f : Frame) (hs : s.canonical = true) :
    (State.emitFrame s p f).canonical = true := by
  unfold State.emitFrame
  grind [State.setPort_canonical, State.tick_canonical, State.emit_canonical, State.canonical_mk, State.canonical_tables]

theorem State.sendFrame_canonical (s : State) (p : Nat) (f : Frame) (hs : s.canonical = true) :
    (State.sendFrame s p f).canonical = true := by
  unfold State.sendFrame
  grind [State.setPort_canonical, State.emitFrame_canonical, State.canonical_mk, State.canonical_tables]

theorem State.sendIdle_canonical (s : State) (p : Nat) (retry : Bool) (hs : s.canonical = true) :
    (State.sendIdle s p retry).canonical = true := by
  unfold State.sendIdle
  grind [State.emitFrame_canonical, State.canonical_mk, State.canonical_tables]

theorem State.flushControl_canonical (s : State) (p : Nat) (hs : s.canonical = true) :
    (State.flushControl s p).canonical = true := by
  unfold State.flushControl
  grind [State.take_canonical, State.sendFrame_canonical, State.setPort_canonical, foldl_canonical, State.canonical_mk, State.canonical_tables,
    SMap.filter_wf]

theorem State.sendControl_canonical (s : State) (p kind : Nat) (body : List Byte) (hs : s.canonical = true) :
    (State.sendControl s p kind body).canonical = true := by
  unfold State.sendControl
  grind [State.modPort_canonical, State.flushControl_canonical, State.canonical_mk, State.canonical_tables]

theorem State.sendRefusal_canonical (s : State) (port st bucket : Nat) (step origin dst : W32) (hs : s.canonical = true) :
    (State.sendRefusal s port st bucket step origin dst).canonical = true := by
  unfold State.sendRefusal
  grind [State.sendControl_canonical]

theorem State.resend_canonical (s : State) (p : Nat) (hs : s.canonical = true) :
    (State.resend s p).canonical = true := by
  unfold State.resend
  grind [State.emitFrame_canonical, foldl_canonical, State.canonical_mk, State.canonical_tables]

theorem State.lnkStuck_canonical (s : State) (p : Nat) (before after : W32) (offset : Nat) (hs : s.canonical = true) :
    (State.lnkStuck s p before after offset).canonical = true := by
  unfold State.lnkStuck
  grind [State.lnkEvent_canonical, State.canonical_mk, State.canonical_tables]

theorem State.resendCounted_canonical (s : State) (p : Nat) (hs : s.canonical = true) :
    (State.resendCounted s p).canonical = true := by
  unfold State.resendCounted
  grind [State.setPort_canonical, State.lnkStuck_canonical, State.resend_canonical, State.canonical_mk, State.canonical_tables]

theorem State.stageStatus_canonical (s : State) (st : Nat) (hs : s.canonical = true) :
    (State.stageStatus s st).canonical = true := by
  unfold State.stageStatus
  grind [State.canonical_mk, State.canonical_tables]

theorem State.holdPort_canonical (s : State) (p st : Nat) (bit_ : Nat := 1) (hs : s.canonical = true) :
    (State.holdPort s p st bit_).canonical = true := by
  unfold State.holdPort
  grind [State.modPort_canonical, State.lnkEvent_canonical, State.stageStatus_canonical, State.canonical_mk, State.canonical_tables]

theorem State.losePort_canonical (s : State) (p : Nat) (hs : s.canonical = true) :
    (State.losePort s p).canonical = true := by
  unfold State.losePort
  grind [State.modPort_canonical, State.lnkEvent_canonical, State.canonical_mk, State.canonical_tables]

theorem State.pruneDigests_canonical (s : State) (bucket : Nat) (hs : s.canonical = true) :
    (State.pruneDigests s bucket).canonical = true := by
  unfold State.pruneDigests
  grind [State.canonical_mk, State.canonical_tables, SMap.filter_wf]

theorem State.digest_canonical (s : State) (bucket : Nat) (step : W32) (port : Nat) (f : DigestRec → DigestRec) (hs : s.canonical = true) :
    (State.digest s bucket step port f).canonical = true := by
  unfold State.digest
  grind [State.pruneDigests_canonical, State.canonical_mk, State.canonical_tables]

theorem State.sendOn_canonical (s : State) (p part cls : Nat) (l : List Byte) (hs : s.canonical = true) :
    (State.sendOn s p part cls l).canonical = true := by
  unfold State.sendOn
  grind [State.modPort_canonical, State.sendFrame_canonical, State.count_canonical, State.digest_canonical, State.take_canonical, foldl_canonical,
    State.canonical_mk, State.canonical_tables]

theorem State.trySend_canonical (s : State) (part cls : Nat) (dst : W32) (l : List Byte) (arr : Option Nat) (t : State) (ht : State.trySend s part
    cls dst l arr = some t) (hs : s.canonical = true) :
    t.canonical = true := by
  obtain ⟨p, -, rfl⟩ := Option.map_eq_some_iff.mp ht
  exact State.sendOn_canonical _ _ _ _ _ hs

theorem State.dispatch_canonical (s : State) (part cls : Nat) (dst : W32) (l : List Byte) (hs : s.canonical = true) :
    (State.dispatch s part cls dst l).canonical = true := by
  unfold State.dispatch
  grind [State.trySend_canonical, State.canonical_mk, State.canonical_tables]

theorem State.freeUnit_canonical (s : State) (p cls : Nat) (l : List Byte) (hs : s.canonical = true) :
    (State.freeUnit s p cls l).canonical = true := by
  unfold State.freeUnit
  grind [State.setPort_canonical, State.sendControl_canonical, State.canonical_mk, State.canonical_tables]

theorem State.freeAny_canonical (s : State) (cls : Nat) (l : List Byte) (hs : s.canonical = true) :
    (State.freeAny s cls l).canonical = true := by
  unfold State.freeAny
  grind [State.freeUnit_canonical, foldl_canonical]

theorem State.answerRequest_canonical (s : State) (part : Nat) (tag pos v : W32) (geo : Nat) (hs : s.canonical = true) :
    (State.answerRequest s part tag pos v geo).canonical = true := by
  unfold State.answerRequest
  grind [State.dispatch_canonical, State.fetchTiles_canonical, foldl_canonical, State.canonical_mk, State.canonical_tables]

theorem State.relayUnit_canonical (s : State) (p : Nat) (u : Nat × Nat × List Byte) (hs : s.canonical = true) :
    (State.relayUnit s p u).canonical = true := by
  unfold State.relayUnit
  grind [State.trySend_canonical, State.freeUnit_canonical, State.answerRequest_canonical, State.canonical_mk, State.canonical_tables]

theorem State.relay_canonical (s : State) (hs : s.canonical = true) :
    (State.relay s).canonical = true := by
  unfold State.relay
  grind [State.relayUnit_canonical, foldl_canonical]

theorem State.flushWaiting_canonical (s : State) (hs : s.canonical = true) :
    (State.flushWaiting s).canonical = true := by
  unfold State.flushWaiting
  grind [State.dispatch_canonical, State.relay_canonical, foldl_canonical, State.canonical_mk, State.canonical_tables, SMap.filter_wf]

theorem State.dropReplies_canonical (s : State) (part : Nat) (v : W32) (hs : s.canonical = true) :
    (State.dropReplies s part v).canonical = true := by
  unfold State.dropReplies
  grind [State.freeUnit_canonical, foldl_canonical]

/-! #### ReduceOps -/

theorem State.putReduction_canonical (s : State) (r : Reduction) (hs : s.canonical = true) :
    (State.putReduction s r).canonical = true := by
  unfold State.putReduction
  grind [State.canonical_mk, State.canonical_tables]

theorem State.linkDeliver_canonical (s : State) (core chan : Nat) (word0 : W32) (word1 : W64) (d : TileData) (t : State) (ht : State.linkDeliver s
    core chan word0 word1 d = some t) (hs : s.canonical = true) :
    t.canonical = true := by
  unfold State.linkDeliver at ht
  grind [State.modCore_canonical, State.canonical_mk, State.canonical_tables]

theorem State.noteChoice_canonical (s : State) (bucket : Nat) (step : W32) (chunk : Nat) (p : Place) (c : ChunkIn) (hs : s.canonical = true) :
    (State.noteChoice s bucket step chunk p c).canonical = true := by
  unfold State.noteChoice
  grind [State.canonical_mk, State.canonical_tables]

theorem State.resultArrives_canonical (s : State) (d : BktDef) (bucket : Nat) (step : W32) (chunk : Nat) (loc : W32) (c : ChunkIn) (hs : s.canonical
    = true) :
    (State.resultArrives s d bucket step chunk loc c).canonical = true := by
  unfold State.resultArrives
  grind [State.putReduction_canonical, State.normArrives_canonical, State.tokenArrives_canonical, State.canonical_mk, State.canonical_tables]

theorem State.refused_canonical (s : State) (st bucket : Nat) (step origin : W32) (hs : s.canonical = true) :
    (State.refused s st bucket step origin).canonical = true := by
  unfold State.refused
  grind [State.lnkEvent_canonical, State.canonical_mk, State.canonical_tables]

theorem State.formSum_canonical (s : State) (d : BktDef) (r : Reduction) (next : State → Place → ChunkIn → State) (hf : ∀ (x0 : State) (q : Place) (c
    : ChunkIn), x0.canonical = true → (next x0 q c).canonical = true) (hs : s.canonical = true) :
    (State.formSum s d r next).canonical = true := by
  unfold State.formSum
  grind [State.putReduction_canonical, State.refused_canonical, State.resultArrives_canonical, State.canonical_mk, State.canonical_tables,
    SMap.filter_wf]

theorem State.takeInput_canonical (s : State) (d : BktDef) (bucket : Nat) (step : W32) (chunk : Nat) (p : Place) (c : ChunkIn) (n : Nat) (hs :
    s.canonical = true) :
    (State.takeInput s d bucket step chunk p c n).canonical = true := by
  induction n generalizing s d bucket step chunk p c with
  | zero => grind [State.takeInput, State.formSum_canonical, State.canonical_mk, State.canonical_tables]
  | succ n ih => grind [State.takeInput, State.formSum_canonical, State.canonical_mk, State.canonical_tables]

theorem State.pruneSteps_canonical (s : State) (bucket : Nat) (hs : s.canonical = true) :
    (State.pruneSteps s bucket).canonical = true := by
  unfold State.pruneSteps
  grind [State.canonical_mk, State.canonical_tables, SMap.filter_wf]

theorem State.input_canonical (s : State) (d : BktDef) (bucket : Nat) (step : W32) (chunk : Nat) (p : Place) (c : ChunkIn) (force : Bool := false)
    (hs : s.canonical = true) :
    (State.input s d bucket step chunk p c force).1.canonical = true := by
  unfold State.input
  grind [State.take_canonical, State.takeInput_canonical, State.pruneSteps_canonical, State.noteChoice_canonical, State.canonical_mk,
    State.canonical_tables]

theorem State.contribute_canonical (s : State) (d : BktDef) (u : ChunkUnit) (force : Bool := false) (t : State) (ht : State.contribute s d u force =
    some t) (hs : s.canonical = true) :
    t.canonical = true := by
  unfold State.contribute at ht
  dsimp only at ht
  split at ht
  · grind [State.digest_canonical, State.input_canonical, State.refused_canonical]
  · obtain ⟨x, h, rfl⟩ := Option.map_eq_some_iff.mp ht
    exact State.digest_canonical _ _ _ _ _ (State.trySend_canonical _ _ _ _ _ _ _ h hs)

theorem State.contributeOrWait_canonical (s : State) (d : BktDef) (u : ChunkUnit) (hs : s.canonical = true) :
    (State.contributeOrWait s d u).canonical = true := by
  unfold State.contributeOrWait
  grind [State.contribute_canonical, State.digest_canonical, State.dispatch_canonical, State.canonical_mk, State.canonical_tables]

theorem State.postToken_canonical (s : State) (part : Nat) (hs : s.canonical = true) :
    (State.postToken s part).canonical = true := by
  unfold State.postToken
  grind [State.contributeOrWait_canonical, foldl_canonical, State.canonical_mk, State.canonical_tables, SMap.filter_wf]

/-! #### Link -/

theorem State.sendIdentity_canonical (s : State) (p kind : Nat) (body : List Byte) (hs : s.canonical = true) :
    (State.sendIdentity s p kind body).canonical = true := by
  unfold State.sendIdentity
  grind [State.sendControl_canonical]

theorem State.sendChain_canonical (s : State) (p : Nat) (hs : s.canonical = true) :
    (State.sendChain s p).canonical = true := by
  unfold State.sendChain
  grind [State.sendIdentity_canonical, State.take_canonical, foldl_canonical]

theorem State.beginAuth_canonical (s : State) (p : Nat) (hs : s.canonical = true) :
    (State.beginAuth s p).canonical = true := by
  unfold State.beginAuth
  grind [State.tick_canonical, State.modPort_canonical, State.sendChain_canonical, State.sendIdentity_canonical, State.canonical_mk,
    State.canonical_tables]

theorem State.reportLanes_canonical (s : State) (p : Nat) (lanes : Byte) (hs : s.canonical = true) :
    (State.reportLanes s p lanes).canonical = true := by
  unfold State.reportLanes
  grind [State.raise_canonical, State.stageStatus_canonical, State.canonical_mk, State.canonical_tables]

theorem State.portUp_canonical (s : State) (p : Nat) (hs : s.canonical = true) :
    (State.portUp s p).canonical = true := by
  unfold State.portUp
  grind [State.setPort_canonical, State.lnkEvent_canonical, State.resendCounted_canonical, State.flushControl_canonical,
    State.flushWaiting_canonical, State.canonical_mk, State.canonical_tables]

theorem State.keyUp_canonical (s : State) (p : Nat) (t : State) (ht : State.keyUp s p = some t) (hs : s.canonical = true) :
    t.canonical = true := by
  unfold State.keyUp at ht
  split at ht
  · grind [State.portUp_canonical]
  · obtain ⟨k, -, rfl⟩ := Option.map_eq_some_iff.mp ht
    exact State.portUp_canonical _ _ (State.modPort_canonical _ _ _ hs)

theorem State.takeIdentity_canonical (s : State) (p kind : Nat) (body : List Byte) (t : State) (ht : State.takeIdentity s p kind body = some t) (hs :
    s.canonical = true) :
    t.canonical = true := by
  unfold State.takeIdentity at ht
  grind [State.take_canonical, State.setPort_canonical, State.tick_canonical, State.sendIdentity_canonical, State.keyUp_canonical,
    State.modPort_canonical, State.holdPort_canonical, State.canonical_mk, State.canonical_tables]

theorem State.countCodeword_canonical (s : State) (p : Nat) (d : FecOut) (hs : s.canonical = true) :
    (State.countCodeword s p d).canonical = true := by
  unfold State.countCodeword
  grind [State.corrected_canonical, State.setPort_canonical, State.tick_canonical, State.lnkStuck_canonical, State.logCorrected_canonical,
    State.canonical_mk, State.canonical_tables]

theorem State.checkFailed_canonical (s : State) (p : Nat) (hs : s.canonical = true) :
    (State.checkFailed s p).canonical = true := by
  unfold State.checkFailed
  grind [State.setPort_canonical, State.lnkStuck_canonical, State.holdPort_canonical, State.sendIdle_canonical, State.canonical_mk,
    State.canonical_tables]

theorem State.acknowledge_canonical (s : State) (p : Nat) (f : Frame) (hs : s.canonical = true) :
    (State.acknowledge s p f).canonical = true := by
  unfold State.acknowledge
  grind [State.setPort_canonical, State.resendCounted_canonical, State.flushControl_canonical, State.flushWaiting_canonical, State.canonical_mk,
    State.canonical_tables, SMap.filter_wf]

theorem State.takeFrame_canonical (s : State) (p : Nat) (f : Frame) (hs : s.canonical = true) :
    (State.takeFrame s p f).canonical = true := by
  unfold State.takeFrame
  grind [State.modPort_canonical, State.acknowledge_canonical, State.sendIdle_canonical, State.setPort_canonical, State.relay_canonical,
    State.canonical_mk, State.canonical_tables]

theorem State.takeRefusal_canonical (s : State) (status : W16) (bucket : Nat) (step origin : W32) (hs : s.canonical = true) :
    (State.takeRefusal s status bucket step origin).canonical = true := by
  unfold State.takeRefusal
  grind [State.modPart_canonical, State.canonical_mk, State.canonical_tables]

/-! #### Reduce -/

theorem State.chunkAt_canonical (s : State) (port : Nat) (u : ChunkUnit) (f : DigestRec → BitVec 128 → DigestRec) (hs : s.canonical = true) :
    (State.chunkAt s port u f).canonical = true := by
  unfold State.chunkAt
  grind [State.digest_canonical, State.freeUnit_canonical]

theorem State.refuseChunk_canonical (s : State) (port : Nat) (u : ChunkUnit) (st : Nat) (hs : s.canonical = true) :
    (State.refuseChunk s port u st).canonical = true := by
  unfold State.refuseChunk
  grind [State.chunkAt_canonical, State.refused_canonical, State.sendRefusal_canonical]

theorem State.takeChunk_canonical (s : State) (port : Nat) (u : ChunkUnit) (d : BktDef) (p : Place) (hs : s.canonical = true) :
    (State.takeChunk s port u d p).canonical = true := by
  unfold State.takeChunk
  grind [State.input_canonical, State.take_canonical, State.chunkAt_canonical, State.refuseChunk_canonical, State.canonical_mk,
    State.canonical_tables]

theorem State.forwardChunk_canonical (s : State) (port : Nat) (u : ChunkUnit) (dst : W32) (hs : s.canonical = true) :
    (State.forwardChunk s port u dst).canonical = true := by
  unfold State.forwardChunk
  grind [State.trySend_canonical, State.chunkAt_canonical, State.canonical_mk, State.canonical_tables]

theorem State.chunkHere_canonical (s : State) (port : Nat) (u : ChunkUnit) (d : BktDef) (hs : s.canonical = true) :
    (State.chunkHere s port u d).canonical = true := by
  unfold State.chunkHere
  grind [State.chunkAt_canonical, State.resultArrives_canonical, State.forwardChunk_canonical, State.takeChunk_canonical, State.canonical_mk,
    State.canonical_tables]

theorem State.passResult_canonical (s : State) (d : BktDef) (bucket : Nat) (step : W32) (chunk : Nat) (c : ChunkIn) (p : W32) (t : State) (ht :
    State.passResult s d bucket step chunk c p = some t) (hs : s.canonical = true) :
    t.canonical = true := by
  unfold State.passResult at ht
  grind [State.resultArrives_canonical, State.trySend_canonical]

theorem State.passAll_canonical (s : State) (d : BktDef) (bucket : Nat) (step : W32) (chunk : Nat) (c : ChunkIn) (l : List W32) (t : State) (ht :
    State.passAll s d bucket step chunk c l = some t) (hs : s.canonical = true) :
    t.canonical = true := by
  induction l generalizing s with
  | nil => grind [State.passAll, State.passResult_canonical, State.canonical_mk, State.canonical_tables]
  | cons p r ih => grind [State.passAll, State.passResult_canonical, State.canonical_mk, State.canonical_tables]

theorem State.delivered_canonical (s : State) (d : BktDef) (r : Reduction) (c : ChunkIn) (hs : s.canonical = true) :
    (State.delivered s d r c).canonical = true := by
  unfold State.delivered
  grind [State.putReduction_canonical, State.modPart_canonical, State.digest_canonical, State.canonical_mk, State.canonical_tables]

theorem State.spreadGather_canonical (s : State) (d : BktDef) (t : TransferUnit) (hs : s.canonical = true) :
    (State.spreadGather s d t).canonical = true := by
  unfold State.spreadGather
  grind [State.dispatch_canonical, foldl_canonical, State.canonical_mk, State.canonical_tables]

theorem State.spread_canonical (s : State) (t : TransferUnit) (hs : s.canonical = true) :
    (State.spread s t).canonical = true := by
  unfold State.spread
  grind [State.spreadGather_canonical, State.canonical_mk, State.canonical_tables]

theorem State.takeTransfer_canonical (s : State) (t : TransferUnit) (hs : s.canonical = true) :
    (State.takeTransfer s t).canonical = true := by
  unfold State.takeTransfer
  grind [State.freeAny_canonical, State.spread_canonical, State.canonical_mk, State.canonical_tables]

theorem State.postWinching_canonical (s : State) (part : Nat) (hs : s.canonical = true) :
    (State.postWinching s part).canonical = true := by
  unfold State.postWinching
  grind [State.modPart_canonical, State.raise_canonical, State.canonical_mk, State.canonical_tables]

theorem State.removeBucket_canonical (s : State) (i : Nat) (hs : s.canonical = true) :
    (State.removeBucket s i).canonical = true := by
  unfold State.removeBucket
  grind [State.setBucket_canonical, State.canonical_mk, State.canonical_tables, SMap.set_wf, SMap.filter_wf]

theorem State.putBytes_canonical (s : State) (part slot : Nat) (l : List Byte) (hs : s.canonical = true) :
    (State.putBytes s part slot l).canonical = true := by
  unfold State.putBytes
  grind [State.putTile_canonical, State.take_canonical, foldl_canonical, State.canonical_mk, State.canonical_tables]

/-! #### Train -/

theorem State.cancelHeld_canonical (s : State) (part : Nat) (hs : s.canonical = true) :
    (State.cancelHeld s part).canonical = true := by
  unfold State.cancelHeld
  grind [State.modPart_canonical, State.cancelReshard_canonical, State.canonical_mk, State.canonical_tables]

theorem State.untake_canonical (s : State) (bucket : Nat) (step : W32) (c : ChunkIn) (hs : s.canonical = true) :
    (State.untake s bucket step c).canonical = true := by
  unfold State.untake
  grind [State.digest_canonical, State.canonical_mk, State.canonical_tables]

theorem State.discardBefore_canonical (s : State) (part : Nat) (n : W32) (hs : s.canonical = true) :
    (State.discardBefore s part n).canonical = true := by
  unfold State.discardBefore
  refine State.canonical_lnk (foldl_canonical _ (fun t r ht => foldl_canonical _ (fun t c ht => State.untake_canonical _ _ _ _ ht) _ _ ht) _ _ hs)
    rfl rfl ?_
  exact foldl_set_wf _ _ _ _ (State.canonical.floors (foldl_canonical _ (fun t r ht => foldl_canonical _ (fun t c ht =>
    State.untake_canonical _ _ _ _ ht) _ _ ht) _ _ hs))

theorem State.stopCopy_canonical (s : State) (part : Nat) (f : W32 → Bool) (hs : s.canonical = true) :
    (State.stopCopy s part f).canonical = true := by
  unfold State.stopCopy
  grind [State.canonical_mk, State.canonical_tables, SMap.filter_wf]

theorem State.copyVersion_canonical (s : State) (part : Nat) (x : Ctx) (v : W32) (hs : s.canonical = true) :
    (State.copyVersion s part x v).canonical = true := by
  unfold State.copyVersion
  grind [State.fetchTile_canonical, State.dispatch_canonical, foldl_canonical, State.canonical_mk, State.canonical_tables]

theorem State.putStore_canonical (s : State) (part : Nat) (t : TandemStore) (hs : s.canonical = true) :
    (State.putStore s part t).canonical = true := by
  unfold State.putStore
  grind [State.modPart_canonical, State.putTile_canonical, State.canonical_mk, State.canonical_tables, SMap.filter_wf]

theorem State.makeStore_canonical (s : State) (part : Nat) (g : Geometry) (pos : W32) (hs : s.canonical = true) :
    (State.makeStore s part g pos).canonical = true := by
  unfold State.makeStore
  grind [State.putStore_canonical, State.canonical_mk, State.canonical_tables]

theorem State.nameTandem_canonical (s : State) (part : Nat) (x : Ctx) (pos : W32) (hs : s.canonical = true) :
    (State.nameTandem s part x pos).canonical = true := by
  unfold State.nameTandem
  grind [State.stopCopy_canonical, State.putCtx_canonical, State.copyVersion_canonical, State.canonical_mk, State.canonical_tables]

/-! #### Reshard -/

theorem State.unstage_canonical (s : State) (part : Nat) (r : Reshard) (slot : Nat) (hs : s.canonical = true) :
    (State.unstage s part r slot).1.canonical = true := by
  unfold State.unstage
  grind [State.fetchTile_canonical, State.putTile_canonical, State.poisonTile_canonical, State.canonical_mk, State.canonical_tables]

theorem State.holdReshard_canonical (s : State) (part : Nat) (r : Reshard) (hs : s.canonical = true) :
    (State.holdReshard s part r).canonical = true := by
  unfold State.holdReshard
  grind [State.modPart_canonical, State.tick_canonical, State.putCtx_canonical, State.canonical_mk, State.canonical_tables]

theorem State.putReshard_canonical (s : State) (part : Nat) (x : Ctx) (r : Reshard) (hs : s.canonical = true) :
    (State.putReshard s part x r).canonical = true := by
  unfold State.putReshard
  grind [State.modPart_canonical, State.canonical_mk, State.canonical_tables]

theorem State.placeTile_canonical (s : State) (part : Nat) (r : Reshard) (slot : Nat) (d : TileData) (t : State) (q : Reshard) (ht : State.placeTile
    s part r slot d = some (t, q)) (hs : s.canonical = true) :
    t.canonical = true := by
  unfold State.placeTile at ht
  split at ht
  · obtain ⟨a, -, h⟩ := Option.map_eq_some_iff.mp ht
    cases h
    exact State.putTile_canonical _ _ _ _ hs
  · cases ht
    exact State.putTile_canonical _ _ _ _ hs

theorem State.sendWinch_canonical (s : State) (part : Nat) (x : Ctx) (r : Reshard) (w : WinchOut) (t : State) (ht : State.sendWinch s part x r w =
    some t) (hs : s.canonical = true) :
    t.canonical = true := by
  exact State.trySend_canonical _ _ _ _ _ _ _ ht hs

theorem State.reconfigure_canonical (s : State) (part : Nat) (x : Ctx) (r : Reshard) (hs : s.canonical = true) :
    (State.reconfigure s part x r).canonical = true := by
  unfold State.reconfigure
  grind [State.putCtx_canonical, State.canonical_mk, State.canonical_tables]

theorem State.winchPart_canonical (s : State) (part : Nat) (hs : s.canonical = true) :
    (State.winchPart s part).canonical = true := by
  unfold State.winchPart
  grind [State.modPart_canonical, State.complete_canonical, State.reconfigure_canonical]

theorem State.afterWinch_canonical (s : State) (part : Nat) (hs : s.canonical = true) :
    (State.afterWinch s part).canonical = true := by
  unfold State.afterWinch
  grind [State.winchPart_canonical, State.canonical_mk, State.canonical_tables]

theorem State.refuseWinch_canonical (s : State) (w : WinchTile) (hs : s.canonical = true) :
    (State.refuseWinch s w).canonical = true := by
  unfold State.refuseWinch
  grind [State.sendRefusal_canonical]

theorem State.discardWinch_canonical (s : State) (w : WinchTile) (hs : s.canonical = true) :
    (State.discardWinch s w).canonical = true := by
  unfold State.discardWinch
  grind [State.raise_canonical, State.canonical_mk, State.canonical_tables]

theorem State.endReshard_canonical (s : State) (part : Nat) (x : Ctx) (r : Reshard) (hs : s.canonical = true) :
    (State.endReshard s part x r).canonical = true := by
  unfold State.endReshard
  grind [State.enterReducing_canonical, State.complete_canonical, State.canonical_mk, State.canonical_tables]

theorem State.formWaiting_canonical (s : State) (part : Nat) (hs : s.canonical = true) :
    (State.formWaiting s part).canonical = true := by
  unfold State.formWaiting
  grind [State.formSum_canonical, State.takeInput_canonical, State.pruneSteps_canonical, foldl_canonical, State.canonical_mk,
    State.canonical_tables]

/-! #### Partition -/

theorem State.endSequences_canonical (s : State) (n : Nat) (hs : s.canonical = true) :
    (State.endSequences s n).canonical = true := by
  unfold State.endSequences
  grind [State.endSeq_canonical, State.freeSeq_canonical, foldl_canonical]

theorem State.dropGondola_canonical (s : State) (g : Nat) (hs : s.canonical = true) :
    (State.dropGondola s g).canonical = true := by
  unfold State.dropGondola
  grind [State.endMoor_canonical, State.endSwap_canonical, State.startRelease_canonical, State.freeGondola_canonical, State.canonical_mk,
    State.canonical_tables]

theorem State.dropWaiters_canonical (s : State) (n : Nat) (hs : s.canonical = true) :
    (State.dropWaiters s n).canonical = true := by
  unfold State.dropWaiters
  grind [State.completeOpt_canonical, State.cancelReshard_canonical, State.complete_canonical, foldl_canonical, State.canonical_mk,
    State.canonical_tables]

theorem State.deletePart_canonical (s : State) (n : Nat) (hs : s.canonical = true) :
    (State.deletePart s n).canonical = true := by
  unfold State.deletePart
  grind [State.abort_canonical, State.endSequences_canonical, State.dropGondola_canonical, State.closeReel_canonical, State.removeBucket_canonical,
    State.dropWaiters_canonical, State.modPart_canonical, State.unmapOne_canonical, foldl_canonical, State.canonical_mk, State.canonical_tables]

theorem State.erasePart_canonical (s : State) (n : Nat) (hs : s.canonical = true) :
    (State.erasePart s n).canonical = true := by
  unfold State.erasePart
  have ht := State.modCores_canonical _ (s.coresIn n) (fun _ c => c.leave) (State.staleMesh_canonical _ (s.coresIn n) hs)
  refine foldl_canonical _ (fun t k => State.fitSupply_canonical t k) _ _ ?_
  simp [State.setPart, ht, SMap.set_wf, SMap.keep_wf]

theorem State.installTile_canonical (s : State) (n : Nat) (x : Opened) (c : Control) (t : SpanEntry) (hs : s.canonical = true) :
    (State.installTile s n x c t).canonical = true := by
  unfold State.installTile
  grind [State.restTile_canonical, State.canonical_mk, State.canonical_tables]

theorem State.install_canonical (s : State) (n : Nat) (img : Image) (x : Opened) (kites : W32) (hbm ballast link : Byte) (hs : s.canonical = true) :
    (State.install s n img x kites hbm ballast link).canonical = true := by
  unfold State.install
  grind [State.setPart_canonical, State.poisonRead_canonical, State.setExtent_canonical, State.setEnv_canonical, State.installTile_canonical,
    State.setGondola_canonical, State.setReel_canonical, State.setBucket_canonical, State.modCore_canonical, foldl_canonical, State.canonical_mk,
    State.canonical_tables]

/-! #### HostCopy -/

theorem State.addHostOp_canonical (s : State) (x : HostOp) (hs : s.canonical = true) :
    (State.addHostOp s x).canonical = true := by
  unfold State.addHostOp
  grind [State.canonical_mk, State.canonical_tables]

theorem State.copyInPart_canonical (s : State) (part addr len : Nat) (hs : s.canonical = true) :
    (State.copyInPart s part addr len).canonical = true := by
  unfold State.copyInPart
  grind [State.take_canonical, State.tick_canonical, State.spanWrite_canonical, State.count_canonical]

theorem State.writeHost_canonical (s : State) (fn : Nat) (host : W64) (m : Mem) (len : Nat) (hs : s.canonical = true) :
    (State.writeHost s fn host m len).canonical = true := by
  unfold State.writeHost
  grind [State.setFunc_canonical, State.emit_canonical, State.canonical_mk, State.canonical_tables]

theorem State.copyOutPart_canonical (s : State) (ref : CmdRef) (part addr : Nat) (host : W64) (len : Nat) (hs : s.canonical = true) :
    (State.copyOutPart s ref part addr host len).canonical = true := by
  unfold State.copyOutPart
  grind [State.tick_canonical, State.writeHost_canonical, State.count_canonical]

theorem State.stopCopyOp_canonical (s : State) (x : HostOp) (st : Nat) (hs : s.canonical = true) :
    (State.stopCopyOp s x st).canonical = true := by
  unfold State.stopCopyOp
  grind [State.copyInPart_canonical, State.complete_canonical, State.copyOutPart_canonical, State.canonical_mk, State.canonical_tables]

theorem State.endCopyIn_canonical (s : State) (ref : CmdRef) (part addr : Nat) (l : List Byte) (hs : s.canonical = true) :
    (State.endCopyIn s ref part addr l).canonical = true := by
  unfold State.endCopyIn
  grind [State.complete_canonical, State.spanWrite_canonical, State.count_canonical, State.canonical_mk, State.canonical_tables]

theorem State.endCopyOut_canonical (s : State) (ref : CmdRef) (part addr : Nat) (host : W64) (len : Nat) (hs : s.canonical = true) :
    (State.endCopyOut s ref part addr host len).canonical = true := by
  unfold State.endCopyOut
  grind [State.checkedRead_canonical, State.countReads_canonical, State.writeHost_canonical, State.count_canonical, State.complete_canonical]

/-! #### Security -/

theorem State.takeRecord_canonical (s : State) (l : List Byte) (hs : s.canonical = true) :
    (State.takeRecord s l).1.canonical = true := by
  unfold State.takeRecord
  grind [State.canonical_mk, State.canonical_tables]

theorem State.importOne_canonical (s : State) (part : Nat) (key : BitVec 512) (t : SpanEntry) (hs : s.canonical = true) :
    (State.importOne s part key t).1.canonical = true := by
  unfold State.importOne
  grind [State.restTile_canonical, State.writeNear_canonical, State.countTier_canonical, State.settleJobs_canonical, State.poisonTile_canonical,
    State.canonical_mk, State.canonical_tables]

theorem State.importAll_canonical (s : State) (part : Nat) (key : BitVec 512) (l : List SpanEntry) (hs : s.canonical = true) :
    (State.importAll s part key l).1.canonical = true := by
  unfold State.importAll
  generalize (0 : Nat) = n
  induction l generalizing s n with
  | nil => exact hs
  | cons a r ih => exact ih _ (State.importOne_canonical _ _ _ _ hs) _

theorem State.endImport_canonical (s : State) (ref : CmdRef) (part env segs tiles : Nat) (l : List Byte) (hs : s.canonical = true) :
    (State.endImport s ref part env segs tiles l).canonical = true := by
  unfold State.endImport
  grind [State.complete_canonical, State.importAll_canonical, State.canonical_mk, State.canonical_tables]

theorem State.meetHostOp_canonical (s : State) (x : HostOp) (errs : List (Nat × CodeErrs)) (hs : s.canonical = true) :
    (State.meetHostOp s x errs).canonical = true := by
  unfold State.meetHostOp
  grind [State.meetCodewords_canonical, State.canonical_mk, State.canonical_tables]

theorem State.endHostOp_canonical (s : State) (x : HostOp) (result : Option (List Byte)) (hs : s.canonical = true) :
    (State.endHostOp s x result).canonical = true := by
  unfold State.endHostOp
  grind [State.stopCopyOp_canonical, State.endCopyIn_canonical, State.endCopyOut_canonical, State.takeRecord_canonical, State.complete_canonical,
    State.endImport_canonical, State.emit_canonical, State.canonical_mk, State.canonical_tables]

theorem State.authFailed_canonical (s : State) (hs : s.canonical = true) :
    (State.authFailed s).canonical = true := by
  unfold State.authFailed
  grind [State.secEvent_canonical, State.canonical_mk, State.canonical_tables]

theorem State.spdm_canonical (s : State) (code : Nat) (ok : Bool) (result : List Byte) (hs : s.canonical = true) :
    (State.spdm s code ok result).canonical = true := by
  unfold State.spdm
  grind [State.emit_canonical]

theorem State.openSession_canonical (s : State) (path : SpdmPath) (share chain : List Byte) (hs : s.canonical = true) :
    (State.openSession s path share chain).canonical = true := by
  unfold State.openSession
  grind [State.spdm_canonical, State.authFailed_canonical, State.tick_canonical, State.canonical_mk, State.canonical_tables]

theorem State.leaveSecure_canonical (s : State) (fn : Nat) (hs : s.canonical = true) :
    (State.leaveSecure s fn).canonical = true := by
  unfold State.leaveSecure
  grind [State.setFunc_canonical, State.stopCopyOp_canonical, foldl_canonical, State.canonical_mk, State.canonical_tables, SMap.filter_wf]

/-! #### Power -/

theorem State.vendor_canonical (s : State) (cmd st : Nat) (result : List Byte) (hs : s.canonical = true) :
    (State.vendor s cmd st result).canonical = true := by
  unfold State.vendor
  grind [State.emit_canonical]

theorem State.answer_canonical (s : State) (ref : Option CmdRef) (cmd st : Nat) (result : Nat) (n : Nat) (hs : s.canonical = true) :
    (State.answer s ref cmd st result n).canonical = true := by
  unfold State.answer
  grind [State.complete_canonical, State.vendor_canonical, State.canonical_mk, State.canonical_tables]

theorem State.guarded_canonical (s : State) (ref : Option CmdRef) (cmd : Nat) (checks : List (Bool × Nat)) (f : State → State) (hf : ∀ (x0 : State),
    x0.canonical = true → (f x0).canonical = true) (hs : s.canonical = true) :
    (State.guarded s ref cmd checks f).canonical = true := by
  unfold State.guarded
  grind [State.answer_canonical, State.canonical_mk, State.canonical_tables]

theorem State.ladder_canonical (s : State) (ref : Option CmdRef) (target : Option Rung) (flags bad : Nat) (fieldsOk : Bool) (hs : s.canonical = true)
    :
    (State.ladder s ref target flags bad fieldsOk).canonical = true := by
  unfold State.ladder
  grind [State.guarded_canonical, State.answer_canonical, State.canonical_mk, State.canonical_tables]

theorem State.groundPort_canonical (s : State) (p : Nat) (hs : s.canonical = true) :
    (State.groundPort s p).canonical = true := by
  unfold State.groundPort
  grind [State.modPort_canonical, State.lnkEvent_canonical, State.canonical_mk, State.canonical_tables]

theorem State.failUnit_canonical (s : State) (u : TestUnit) (hs : s.canonical = true) :
    (State.failUnit s u).canonical = true := by
  unfold State.failUnit
  grind [State.takeOut_canonical, State.lnkEvent_canonical, State.canonical_mk, State.canonical_tables]

theorem State.enterGrounded_canonical (s : State) (hs : s.canonical = true) :
    (State.enterGrounded s).canonical = true := by
  unfold State.enterGrounded
  grind [State.writeBack_canonical, State.groundPort_canonical, State.modCores_canonical, State.modPart_canonical, foldl_canonical,
    State.canonical_mk, State.canonical_tables]

theorem State.enterFolded_canonical (s : State) (hs : s.canonical = true) :
    (State.enterFolded s).canonical = true := by
  unfold State.enterFolded
  grind [State.settleJobs_canonical, State.canonical_mk, State.canonical_tables, SMap.mapVals_wf]

theorem State.leaveFolded_canonical (s : State) (hs : s.canonical = true) :
    (State.leaveFolded s).canonical = true := by
  unfold State.leaveFolded
  grind [State.canonical_mk, State.canonical_tables, SMap.mapVals_wf]

theorem State.leaveGrounded_canonical (s : State) (hs : s.canonical = true) :
    (State.leaveGrounded s).canonical = true := by
  unfold State.leaveGrounded
  grind [State.fitSupply_canonical, State.modCores_canonical, State.modPort_canonical, foldl_canonical, State.canonical_mk, State.canonical_tables]

theorem State.enterPacked_canonical (s : State) (hs : s.canonical = true) :
    (State.enterPacked s).canonical = true := by
  unfold State.enterPacked
  grind [State.dark_canonical, State.canonical_mk, State.canonical_tables]

theorem State.moveRung_canonical (s : State) (target : Rung) (hs : s.canonical = true) :
    (State.moveRung s target).canonical = true := by
  unfold State.moveRung
  grind [State.enterGrounded_canonical, State.enterFolded_canonical, State.leaveFolded_canonical, State.leaveGrounded_canonical,
    State.enterPacked_canonical, State.canonical_mk, State.canonical_tables]

theorem State.drainUnit_canonical (s : State) (kind unit : Nat) (hs : s.canonical = true) :
    (State.drainUnit s kind unit).canonical = true := by
  unfold State.drainUnit
  grind [State.modPart_canonical, State.modPort_canonical, State.lnkEvent_canonical, State.canonical_mk, State.canonical_tables]

theorem State.selfTest_canonical (s : State) (ref : Option CmdRef) (kind unit depth flags bad : Nat) (fieldsOk : Bool) (hs : s.canonical = true) :
    (State.selfTest s ref kind unit depth flags bad fieldsOk).canonical = true := by
  unfold State.selfTest
  grind [State.guarded_canonical, State.drainUnit_canonical, State.canonical_mk, State.canonical_tables]

theorem State.testFailed_canonical (s : State) (fails : List TestUnit) (hs : s.canonical = true) :
    (State.testFailed s fails).canonical = true := by
  unfold State.testFailed
  grind [State.failUnit_canonical, State.halt_canonical, State.gradeCheck_canonical, foldl_canonical, State.canonical_mk, State.canonical_tables]

theorem State.logFails_canonical (s : State) (fails : List TestUnit) (hs : s.canonical = true) :
    (State.logFails s fails).canonical = true := by
  unfold State.logFails
  grind [State.log_canonical, foldl_canonical, State.canonical_mk, State.canonical_tables]

theorem State.heat_canonical (s : State) (core : Nat) (temp : Byte) (hs : s.canonical = true) :
    (State.heat s core temp).canonical = true := by
  unfold State.heat
  grind [State.modCore_canonical, foldl_canonical, State.canonical_mk, State.canonical_tables]

/-! #### Registers -/

theorem State.holdDown_canonical (s : State) (p : Nat) (hs : s.canonical = true) :
    (State.holdDown s p).canonical = true := by
  unfold State.holdDown
  grind [State.setPort_canonical, State.lnkEvent_canonical, State.canonical_mk, State.canonical_tables]

theorem State.unhold_canonical (s : State) (p : Nat) (hs : s.canonical = true) :
    (State.unhold s p).canonical = true := by
  unfold State.unhold
  grind [State.setPort_canonical, State.canonical_mk, State.canonical_tables]

theorem State.recal_canonical (s : State) (p : Nat) (hs : s.canonical = true) :
    (State.recal s p).canonical = true := by
  unfold State.recal
  grind [State.modPort_canonical, State.canonical_mk, State.canonical_tables]

theorem State.writePortCtl_canonical (s : State) (v : W32) (hs : s.canonical = true) :
    (State.writePortCtl s v).canonical = true := by
  unfold State.writePortCtl
  grind [State.holdDown_canonical, State.unhold_canonical, State.recal_canonical]

theorem State.writeRing_canonical (s : State) (fn off : Nat) (v : W32) (hs : s.canonical = true) :
    (State.writeRing s fn off v).canonical = true := by
  unfold State.writeRing
  grind [State.setFunc_canonical, State.setRing_canonical, State.canonical_mk, State.canonical_tables]

theorem State.writeHif_canonical (s : State) (off : Nat) (v : W32) (hs : s.canonical = true) :
    (State.writeHif s off v).canonical = true := by
  unfold State.writeHif
  grind [State.writeRing_canonical, State.canonical_mk, State.canonical_tables]

theorem State.writeTet_canonical (s : State) (off : Nat) (v : W32) (hs : s.canonical = true) :
    (State.writeTet s off v).canonical = true := by
  unfold State.writeTet
  grind [State.canonical_mk, State.canonical_tables]

theorem State.writeSpn_canonical (s : State) (off : Nat) (v : W32) (hs : s.canonical = true) :
    (State.writeSpn s off v).canonical = true := by
  unfold State.writeSpn
  grind [State.modPart_canonical, State.poisonRead_canonical, State.canonical_mk, State.canonical_tables]

theorem State.writeLnk_canonical (s : State) (off : Nat) (v : W32) (hs : s.canonical = true) :
    (State.writeLnk s off v).canonical = true := by
  unfold State.writeLnk
  grind [State.writePortCtl_canonical, State.canonical_mk, State.canonical_tables]

theorem State.writeGon_canonical (s : State) (off : Nat) (v : W32) (hs : s.canonical = true) :
    (State.writeGon s off v).canonical = true := by
  unfold State.writeGon
  grind [State.canonical_mk, State.canonical_tables]

theorem State.writeSec_canonical (s : State) (off : Nat) (v : W32) (hs : s.canonical = true) :
    (State.writeSec s off v).canonical = true := by
  unfold State.writeSec
  grind [State.canonical_mk, State.canonical_tables]

theorem State.writePwr_canonical (s : State) (off : Nat) (v : W32) (hs : s.canonical = true) :
    (State.writePwr s off v).canonical = true := by
  unfold State.writePwr
  grind [State.fitSupply_canonical, State.modPart_canonical, foldl_canonical, State.canonical_mk, State.canonical_tables]

theorem State.clearCounts_canonical (s : State) (v : W32) (hs : s.canonical = true) :
    (State.clearCounts s v).canonical = true := by
  unfold State.clearCounts
  grind [State.modPart_canonical, foldl_canonical]

theorem State.writeMgt_canonical (s : State) (off : Nat) (v : W32) (hs : s.canonical = true) :
    (State.writeMgt s off v).canonical = true := by
  unfold State.writeMgt
  grind [State.modPart_canonical, State.clearCounts_canonical, State.canonical_mk, State.canonical_tables]

theorem State.writePf_canonical (s : State) (offset : Nat) (v : W32) (hs : s.canonical = true) :
    (State.writePf s offset v).canonical = true := by
  unfold State.writePf
  grind [State.writeHif_canonical, State.writeTet_canonical, State.writeSpn_canonical, State.writeLnk_canonical, State.writeGon_canonical,
    State.writeSec_canonical, State.writePwr_canonical, State.writeMgt_canonical]

/-! #### Mgmt -/

theorem State.clearErrors_canonical (s : State) (hs : s.canonical = true) :
    (State.clearErrors s).canonical = true := by
  unfold State.clearErrors
  grind [State.modPort_canonical, State.clearCounts_canonical, State.modCores_canonical, State.putReel_canonical, State.putCtx_canonical,
    foldl_canonical, State.canonical_mk, State.canonical_tables]

theorem State.pldm_canonical (s : State) (code st : Nat) (hs : s.canonical = true) :
    (State.pldm s code st).canonical = true := by
  unfold State.pldm
  grind [State.emit_canonical]

theorem State.endUpdate_canonical (s : State) (hs : s.canonical = true) :
    (State.endUpdate s).canonical = true := by
  unfold State.endUpdate
  grind [State.canonical_mk, State.canonical_tables]

end Sys2Proof.Machine
end

section
namespace Sys2Proof.Machine

/-! #### Operations of rows -/

theorem State.arrayDone_canonical (s : State) (core bundle : Nat) (bad : W16) (hs : s.canonical = true) :
    (State.arrayDone s core bundle bad).canonical = true := by
  unfold State.arrayDone
  grind [State.endRoutine_canonical, State.settleCore_canonical]

theorem State.setEid_canonical (s : State) (p : MctpPath) (eid : Byte) (hs : s.canonical = true) : (State.setEid s p eid).canonical = true := by
  unfold State.setEid
  grind [State.canonical_mk, State.canonical_tables]

theorem State.dropBatcher_canonical (s : State) (part : Nat) (hs : s.canonical = true) : (State.dropBatcher s part).canonical = true :=
  State.modCores_canonical _ _ _ hs

theorem State.writeSegs_canonical (s : State) (fn : Nat) (segs : List (W64 × W64)) (l : List Byte) (hs : s.canonical = true) :
    (State.writeSegs s fn segs l).canonical = true := by
  induction segs generalizing s l with
  | nil => grind [State.writeSegs]
  | cons e r ih => grind [State.writeSegs, State.emit_canonical]

/-- A post that is taken is a contribution, is sent, or waits to be delivered here. -/
theorem State.postUnit_took {s t : State} {part : Nat} {p : TileData} (h : s.postUnit part p = .took t) :
    (∃ d u, s.contribute d u = some t) ∨ (∃ dst l, s.trySend part 2 dst l = some t)
      ∨ ∃ q, t = { s with lnk := { s.lnk with toDeliver := q } } := by
  have took {o : Option State} (ho : Posted.ofOption o = .took t) : o = some t := by cases o <;> cases ho; rfl
  have chunk {b : Bool} (hp : s.postChunk part p b = .took t) : ∃ d u, s.contribute d u = some t := by
    unfold State.postChunk at hp
    dsimp only at hp
    split at hp
    · cases hp
    · generalize (if b then _ else _) = origin at hp
      split at hp
      · exact ⟨_, _, took hp⟩
      · cases hp
  unfold State.postUnit at h
  dsimp only at h
  split at h
  · cases h
  · split at h
    · exact .inl (chunk h)
    · split at h
      · exact .inl (chunk h)
      · split at h
        · unfold State.postTransfer at h
          dsimp only at h
          (repeat' split at h) <;> first | exact .inr (.inl ⟨_, _, took h⟩) | (cases h; exact .inr (.inr ⟨_, rfl⟩)) | cases h
        · split at h
          · unfold State.postGather at h
            dsimp only at h
            (repeat' split at h) <;> first | (cases h; exact .inr (.inr ⟨_, rfl⟩)) | cases h
          · cases h

theorem State.postUnit_canonical (s : State) (part : Nat) (p : TileData) (t : State) (ht : State.postUnit s part p = .took t)
    (hs : s.canonical = true) : t.canonical = true := by
  obtain ⟨d, u, h⟩ | ⟨dst, l, h⟩ | ⟨q, rfl⟩ := State.postUnit_took ht
  · exact State.contribute_canonical _ _ _ _ _ h hs
  · exact State.trySend_canonical _ _ _ _ _ _ _ h hs
  · simp [hs]

end Sys2Proof.Machine
end

section
namespace Sys2Proof.Machine

/-- Whatever next state a command ends in is in canonical form. -/
def EndsCanonical (r : Res) : Prop := ∀ t, r = .next t → t.canonical = true

theorem endsCanonical_next {t : State} (h : t.canonical = true) : EndsCanonical (.next t) := fun _ ht => by cases ht; exact h

theorem endsCanonical_onUnit {ok : Bool} {t : State} (h : t.canonical = true) : EndsCanonical (onUnit ok t) := fun _ hu => by
  obtain ⟨-, rfl⟩ := onUnit_eq_next.mp hu; exact h

theorem endsCanonical_hostCommand {o : RingId} {op : Nat} {s : State} {f : CmdRef → BitVec 512 → State → State}
    (hf : ∀ ref c u, u.canonical = true → (f ref c u).canonical = true) (hs : s.canonical = true) : EndsCanonical (hostCommand o op s f) := by
  intro t h
  have hb := s.setRing_canonical o (s.ring o).begin hs
  obtain ⟨-, ⟨-, rfl⟩ | ⟨ref, c, -, -, rfl⟩ | ⟨ref, c, -, -, rfl⟩⟩ := hostCommand_cases h
  · exact hs
  · exact State.complete_canonical _ _ _ _ hb
  · exact hf _ _ _ hb

theorem endsCanonical_whenAwake {s t : State} (h : t.canonical = true) (hs : s.canonical = true) : EndsCanonical (s.whenAwake t) := by
  unfold State.whenAwake
  split
  · exact endsCanonical_next h
  · exact endsCanonical_next hs

theorem endsCanonical_ideKm {s : State} {fn code : Nat} {ok : Bool} {f : State → State} (hf : ∀ u, u.canonical = true → (f u).canonical = true)
    (hs : s.canonical = true) : EndsCanonical (s.ideKm fn code ok f) := by
  unfold State.ideKm
  exact endsCanonical_onUnit (by grind [State.emit_canonical])

theorem endsCanonical_ownerRequest {s : State} {code : Nat} {ok : Bool} {f : State → State}
    (hf : ∀ u, u.canonical = true → (f u).canonical = true) (hs : s.canonical = true) : EndsCanonical (s.ownerRequest code ok f) := by
  unfold State.ownerRequest
  exact endsCanonical_next (by grind [State.spdm_canonical, State.authFailed_canonical])

@[simp] theorem endsCanonical_issueAt {s : State} (k : Nat) (has : Bundle → Bool) (hs : s.canonical = true) : EndsCanonical (issueAt k has s) :=
  endsCanonical_onUnit (State.issue_canonical _ _ _ hs)

section
variable {s : State}

@[simp] theorem execStandbyOn_canonical (cv : W16) (hs : s.canonical = true) : EndsCanonical (execStandbyOn cv s) := by
  unfold execStandbyOn
  exact endsCanonical_next (by grind [State.seeInput_canonical, State.canonical_mk, State.canonical_tables])

@[simp] theorem execManagementWake_canonical (site board : BitVec 3) (hs : s.canonical = true) : EndsCanonical (execManagementWake site board s) := by
  unfold execManagementWake
  exact endsCanonical_next (by grind [State.tick_canonical, State.canonical_mk, State.canonical_tables])

@[simp] theorem execStandbyOff_canonical (cv : W16) (hs : s.canonical = true) : EndsCanonical (execStandbyOff cv s) := by
  unfold execStandbyOff
  exact endsCanonical_next (by grind [State.dark_canonical, State.canonical_mk, State.canonical_tables])

@[simp] theorem execMainSwitchClose_canonical (cv : W16) (mated : Bool) (hs : s.canonical = true) :
    EndsCanonical (execMainSwitchClose cv mated s) := by
  unfold execMainSwitchClose
  exact endsCanonical_next (by grind [State.seeInput_canonical, State.toStage_canonical, State.canonical_mk, State.canonical_tables])

@[simp] theorem execMainConvertersStart_canonical (cv bulk : W16) (hs : s.canonical = true) : EndsCanonical (execMainConvertersStart cv bulk s) := by
  unfold execMainConvertersStart
  exact endsCanonical_next (by grind [State.seeInput_canonical, State.canonical_mk, State.canonical_tables])

@[simp] theorem execRailsSettled_canonical (hs : s.canonical = true) : EndsCanonical (execRailsSettled s) := by
  unfold execRailsSettled
  exact endsCanonical_next (by grind [State.presentHx_canonical, State.wantFlash_canonical, State.canonical_mk, State.canonical_tables])

@[simp] theorem execRailSettleTimeout_canonical (hs : s.canonical = true) : EndsCanonical (execRailSettleTimeout s) := by
  unfold execRailSettleTimeout
  exact endsCanonical_next (by grind [State.tick_canonical, State.presentHx_canonical, State.halt_canonical])

@[simp] theorem execMainCutOff_canonical (cv : W16) (hs : s.canonical = true) : EndsCanonical (execMainCutOff cv s) := by
  unfold execMainCutOff
  exact endsCanonical_next (by grind [State.cutOff_canonical])

@[simp] theorem execOvervoltageCutOff_canonical (cv : W16) (hs : s.canonical = true) : EndsCanonical (execOvervoltageCutOff cv s) := by
  unfold execOvervoltageCutOff
  exact endsCanonical_next (by grind [State.cutOff_canonical])

@[simp] theorem execInputRangeLow_canonical (cv : W16) (hs : s.canonical = true) : EndsCanonical (execInputRangeLow cv s) := by
  unfold execInputRangeLow
  exact endsCanonical_next (by grind [State.seeInput_canonical, State.log_canonical, State.canonical_mk, State.canonical_tables])

@[simp] theorem execThermalTrip_canonical (core : Nat) (temp : Byte) (hs : s.canonical = true) : EndsCanonical (execThermalTrip core temp s) := by
  unfold execThermalTrip
  exact endsCanonical_onUnit (by grind [State.trip_canonical, State.canonical_mk, State.canonical_tables])

@[simp] theorem execOvercurrentTripSlow_canonical (hs : s.canonical = true) : EndsCanonical (execOvercurrentTripSlow s) := by
  unfold execOvercurrentTripSlow
  exact endsCanonical_next (by grind [State.overcurrent_canonical])

@[simp] theorem execOvercurrentTripFast_canonical (hs : s.canonical = true) : EndsCanonical (execOvercurrentTripFast s) := by
  unfold execOvercurrentTripFast
  exact endsCanonical_next (by grind [State.overcurrent_canonical])

@[simp] theorem execMateOkBreak_canonical (hs : s.canonical = true) : EndsCanonical (execMateOkBreak s) := by
  unfold execMateOkBreak
  exact endsCanonical_next (by grind [State.dark_canonical, State.toStage_canonical, State.tick_canonical, State.canonical_mk,
    State.canonical_tables])

@[simp] theorem execModResetFall_canonical (hs : s.canonical = true) : EndsCanonical (execModResetFall s) := by
  unfold execModResetFall
  exact endsCanonical_next (by grind [State.modReset_canonical, State.canonical_mk, State.canonical_tables])

@[simp] theorem execModResetRise_canonical (lowUs : W32) (hs : s.canonical = true) : EndsCanonical (execModResetRise lowUs s) := by
  unfold execModResetRise
  exact endsCanonical_next (by grind [State.modResetEnd_canonical])

@[simp] theorem execFlashHoldAssert_canonical (hs : s.canonical = true) : EndsCanonical (execFlashHoldAssert s) := by
  unfold execFlashHoldAssert
  exact endsCanonical_next (by grind [State.toStage_canonical, State.canonical_mk, State.canonical_tables])

@[simp] theorem execFlashHoldRelease_canonical (hs : s.canonical = true) : EndsCanonical (execFlashHoldRelease s) := by
  unfold execFlashHoldRelease
  exact endsCanonical_next (by grind [State.wantFlash_canonical, State.canonical_mk, State.canonical_tables])

@[simp] theorem execFlashReadComplete_canonical (ok : Bool) (hs : s.canonical = true) : EndsCanonical (execFlashReadComplete ok s) := by
  unfold execFlashReadComplete
  exact endsCanonical_next (by grind [State.halt_canonical, State.slotFailed_canonical, State.toStage_canonical, State.canonical_mk,
    State.canonical_tables])

@[simp] theorem execFuseMapRead_canonical (readable : Bool) (hs : s.canonical = true) : EndsCanonical (execFuseMapRead readable s) := by
  unfold execFuseMapRead
  exact endsCanonical_next (by grind [State.halt_canonical, State.publishArrays_canonical, State.toStage_canonical, State.canonical_mk,
    State.canonical_tables])

@[simp] theorem execStartupSelfTestComplete_canonical (fails : List TestUnit) (hs : s.canonical = true) :
    EndsCanonical (execStartupSelfTestComplete fails s) := by
  unfold execStartupSelfTestComplete
  exact endsCanonical_onUnit (by grind [State.halt_canonical, State.gradeCheck_canonical, State.toStage_canonical, State.takeOut_canonical,
    State.publishArrays_canonical, State.note_canonical, foldl_canonical, State.canonical_mk, State.canonical_tables])

@[simp] theorem execMemoryStageComplete_canonical (stack : Option Nat) (ballast : Bool) (hs : s.canonical = true) :
    EndsCanonical (execMemoryStageComplete stack ballast s) := by
  unfold execMemoryStageComplete
  exact endsCanonical_onUnit (by
    grind [State.halt_canonical, State.openPorts_canonical, State.toStage_canonical, State.tick_canonical, State.canonical_mk,
      State.canonical_tables, SMap.wf_nil])

@[simp] theorem execLinkStageEnd_canonical (hs : s.canonical = true) : EndsCanonical (execLinkStageEnd s) := by
  unfold execLinkStageEnd
  exact endsCanonical_next (by grind [State.finishStartup_canonical])

@[simp] theorem execLinkStageTimeout_canonical (hs : s.canonical = true) : EndsCanonical (execLinkStageTimeout s) := by
  unfold execLinkStageTimeout
  exact endsCanonical_next (by grind [State.modPort_canonical, State.finishStartup_canonical, foldl_canonical, State.canonical_mk,
    State.canonical_tables])

@[simp] theorem execBridleStart_canonical (core arr : Nat) (hs : s.canonical = true) : EndsCanonical (execBridleStart core arr s) := by
  unfold execBridleStart
  exact endsCanonical_onUnit (by grind [State.setCore_canonical, State.canonical_mk, State.canonical_tables])

@[simp] theorem execBridleComplete_canonical (core arr : Nat) (hs : s.canonical = true) : EndsCanonical (execBridleComplete core arr s) := by
  unfold execBridleComplete
  exact endsCanonical_onUnit (by grind [State.setCore_canonical, State.count_canonical, State.arrayDone_canonical, State.canonical_mk,
    State.canonical_tables])

@[simp] theorem execStreamStart_canonical (core arr : Nat) (hs : s.canonical = true) : EndsCanonical (execStreamStart core arr s) := by
  unfold execStreamStart
  exact endsCanonical_onUnit (by grind [State.setCore_canonical, State.canonical_mk, State.canonical_tables])

@[simp] theorem execStreamComplete_canonical (core arr : Nat) (hs : s.canonical = true) : EndsCanonical (execStreamComplete core arr s) := by
  unfold execStreamComplete
  exact endsCanonical_onUnit (by grind [State.setCore_canonical, State.count_canonical, State.arrayDone_canonical, State.canonical_mk,
    State.canonical_tables])

@[simp] theorem execProductsLanded_canonical (core arr : Nat) (hs : s.canonical = true) : EndsCanonical (execProductsLanded core arr s) := by
  unfold execProductsLanded
  exact endsCanonical_onUnit (by grind [State.setCore_canonical, State.endRoutine_canonical, State.settleCore_canonical, State.canonical_mk,
    State.canonical_tables])

@[simp] theorem execDrainComplete_canonical (core arr : Nat) (hs : s.canonical = true) : EndsCanonical (execDrainComplete core arr s) := by
  unfold execDrainComplete
  exact endsCanonical_onUnit (by grind [State.setCore_canonical, State.arrayDone_canonical, State.canonical_mk, State.canonical_tables])

@[simp] theorem execSeqOpen_canonical (cmd : ReadCmd) (hs : s.canonical = true) : EndsCanonical (execSeqOpen cmd s) := by
  unfold execSeqOpen
  refine endsCanonical_hostCommand (fun ref c u hu => ?_) hs
  exact State.checkedRead_canonical _ _ _ _ _ _ _ (fun v hv => by grind [State.countReads_canonical, State.enrol_canonical,
    State.complete_canonical]) (by grind [State.afterChecks_canonical, State.meetCodewords_canonical])

@[simp] theorem execSeqClose_canonical (o : RingId) (hs : s.canonical = true) : EndsCanonical (execSeqClose o s) := by
  unfold execSeqClose
  refine endsCanonical_hostCommand (fun ref c u hu => ?_) hs
  exact State.checked_canonical _ _ _ _ (fun v hv => by grind [State.setSeq_canonical, State.endSeq_canonical, State.canonical_mk,
    State.canonical_tables]) hu

@[simp] theorem execSequenceScrubComplete_canonical (slot : Nat) (hs : s.canonical = true) : EndsCanonical (execSequenceScrubComplete slot s) := by
  unfold execSequenceScrubComplete
  exact endsCanonical_onUnit (by grind [State.freeSeq_canonical])

@[simp] theorem execMap_canonical (o : RingId) (hs : s.canonical = true) : EndsCanonical (execMap o s) := by
  unfold execMap
  refine endsCanonical_hostCommand (fun ref c u hu => ?_) hs
  exact State.checked_canonical _ _ _ _ (fun v hv => by grind [State.setExtent_canonical, State.complete_canonical, foldl_canonical]) hu

@[simp] theorem execUnmap_canonical (o : RingId) (hs : s.canonical = true) : EndsCanonical (execUnmap o s) := by
  unfold execUnmap
  refine endsCanonical_hostCommand (fun ref c u hu => ?_) hs
  exact State.checked_canonical _ _ _ _ (fun v hv => by grind [State.unmapOne_canonical, State.addJob_canonical, foldl_canonical,
    State.canonical_mk, State.canonical_tables]) hu

@[simp] theorem execMode_canonical (cmd : ReadCmd) (hs : s.canonical = true) : EndsCanonical (execMode cmd s) := by
  unfold execMode
  refine endsCanonical_hostCommand (fun ref c u hu => ?_) hs
  exact State.meeting_canonical _ _ _ _ _ _ (fun v hv => by grind [State.setMode_canonical, State.complete_canonical,
    foldl_canonical]) (by grind [State.afterChecks_canonical, State.meetSlots_canonical])

@[simp] theorem execHint_canonical (cmd : ReadCmd) (hs : s.canonical = true) : EndsCanonical (execHint cmd s) := by
  unfold execHint
  refine endsCanonical_hostCommand (fun ref c u hu => ?_) hs
  refine State.meeting_canonical _ _ _ _ _ _ (fun v hv => ?_) ?_
  · exact State.addJob_canonical _ _ _ (foldl_canonical _ (fun t x ht => State.hintTile_canonical _ _ _ _ _ ht) _ _ hv)
  · split
    · exact State.afterChecks_canonical _ _ _ (fun v hv => State.meetSlots_canonical _ _ _ _ hv) hu
    · exact hu

@[simp] theorem execScrub_canonical (o : RingId) (hs : s.canonical = true) : EndsCanonical (execScrub o s) := by
  unfold execScrub
  refine endsCanonical_hostCommand (fun ref c u hu => ?_) hs
  exact State.checked_canonical _ _ _ _ (fun v hv => by grind [State.scrubRange_canonical, State.addJob_canonical, State.canonical_mk,
    State.canonical_tables]) hu

@[simp] theorem execRehome_canonical (o : RingId) (hs : s.canonical = true) : EndsCanonical (execRehome o s) := by
  unfold execRehome
  refine endsCanonical_hostCommand (fun ref c u hu => ?_) hs
  exact State.meeting_canonical _ _ _ _ _ _ (fun v hv => by grind [State.setTile_canonical, State.addJob_canonical, foldl_canonical,
    State.canonical_mk, State.canonical_tables, SMap.filter_wf]) hu

@[simp] theorem execSpanWriteAccept_canonical (core k : Nat) (hs : s.canonical = true) : EndsCanonical (execSpanWriteAccept core k s) := by
  unfold execSpanWriteAccept
  exact endsCanonical_onUnit (by grind [State.coreWrite_canonical, State.served_canonical, State.canonical_mk, State.canonical_tables])

@[simp] theorem execSpanReadComplete_canonical (core k : Nat) (cw : CodeErrs) (hs : s.canonical = true) :
    EndsCanonical (execSpanReadComplete core k cw s) := by
  unfold execSpanReadComplete
  exact endsCanonical_onUnit (by grind [State.served_canonical, State.codewords_canonical, State.readBack_canonical, State.canonical_mk,
    State.canonical_tables])

@[simp] theorem execMigrationComplete_canonical (part slot : Nat) (cw : CodeErrs) (hs : s.canonical = true) :
    EndsCanonical (execMigrationComplete part slot cw s) := by
  unfold execMigrationComplete
  exact endsCanonical_onUnit (by grind [State.codewords_canonical, State.countTier_canonical, State.setTile_canonical, State.applyHint_canonical,
    State.promoteWarm_canonical, State.settleJobs_canonical, State.canonical_mk, State.canonical_tables])

@[simp] theorem execLetSinkTimeout_canonical (part slot : Nat) (hs : s.canonical = true) : EndsCanonical (execLetSinkTimeout part slot s) := by
  unfold execLetSinkTimeout
  exact endsCanonical_onUnit (by grind [State.setTile_canonical, State.canonical_mk, State.canonical_tables])

@[simp] theorem execUseCountHalving_canonical (part : Nat) (hs : s.canonical = true) : EndsCanonical (execUseCountHalving part s) := by
  unfold execUseCountHalving
  exact endsCanonical_onUnit (by grind [State.setTile_canonical, State.modPart_canonical, foldl_canonical, State.canonical_mk,
    State.canonical_tables])

@[simp] theorem execPatrol_canonical (ev : PatrolEvent) (hs : s.canonical = true) : EndsCanonical (execPatrol ev s) := by
  unfold execPatrol
  exact endsCanonical_next (by grind [State.corrected_canonical, State.codewords_canonical, State.spnEvent_canonical, State.canonical_mk,
    State.canonical_tables])

@[simp] theorem execImbalanceRaise_canonical (stack : Nat) (single : Bool) (hs : s.canonical = true) :
    EndsCanonical (execImbalanceRaise stack single s) := by
  unfold execImbalanceRaise
  exact endsCanonical_onUnit (by grind [State.spnEvent_canonical, State.canonical_mk, State.canonical_tables])

@[simp] theorem execImbalanceClear_canonical (hs : s.canonical = true) : EndsCanonical (execImbalanceClear s) := by
  unfold execImbalanceClear
  exact endsCanonical_next (by grind [State.canonical_mk, State.canonical_tables])

@[simp] theorem execStackThrottle_canonical (stack : Nat) (hs : s.canonical = true) : EndsCanonical (execStackThrottle stack s) := by
  unfold execStackThrottle
  exact endsCanonical_onUnit (by grind [State.spnEvent_canonical, State.canonical_mk, State.canonical_tables])

@[simp] theorem execStackThrottleEnd_canonical (stack : Nat) (hs : s.canonical = true) : EndsCanonical (execStackThrottleEnd stack s) := by
  unfold execStackThrottleEnd
  exact endsCanonical_onUnit (by grind [State.canonical_mk, State.canonical_tables, SMap.filter_wf])

@[simp] theorem execLoad_canonical (o : RingId) (hs : s.canonical = true) : EndsCanonical (execLoad o s) := by
  unfold execLoad
  refine endsCanonical_hostCommand (fun ref c u hu => ?_) hs
  exact State.checked_canonical _ _ _ _ (fun v hv => by grind [State.modPart_canonical, State.canonical_mk, State.canonical_tables]) hu

@[simp] theorem execSpoolReadComplete_canonical (read : SpoolRead) (hs : s.canonical = true) : EndsCanonical (execSpoolReadComplete read s) := by
  unfold execSpoolReadComplete
  exact endsCanonical_onUnit (by grind [State.meetCodewords_canonical, State.poisonRead_canonical, State.loadDone_canonical,
    State.countReads_canonical, State.modPart_canonical, State.startBroadcast_canonical, foldl_canonical, State.canonical_mk, State.canonical_tables])

@[simp] theorem execBroadcastEnd_canonical (part : Nat) (hs : s.canonical = true) : EndsCanonical (execBroadcastEnd part s) := by
  unfold execBroadcastEnd
  exact endsCanonical_onUnit (by grind [State.modCores_canonical, State.loadDone_canonical, State.take_canonical, State.takeGen_canonical])

@[simp] theorem execStopNow_canonical (o : RingId) (hs : s.canonical = true) : EndsCanonical (execStopNow o s) := by
  unfold execStopNow
  refine endsCanonical_hostCommand (fun ref c u hu => ?_) hs
  exact State.checked_canonical _ _ _ _ (fun v hv => by grind [State.haltNow_canonical, State.complete_canonical, foldl_canonical]) hu

@[simp] theorem execStopMarkHalt_canonical (core : Nat) (hs : s.canonical = true) : EndsCanonical (execStopMarkHalt core s) := by
  unfold execStopMarkHalt
  exact endsCanonical_onUnit (by grind [State.setCore_canonical, State.fitSupply_canonical, State.canonical_mk, State.canonical_tables])

@[simp] theorem execSnapshotWrite_canonical (part : Nat) (hs : s.canonical = true) : EndsCanonical (execSnapshotWrite part s) := by
  unfold execSnapshotWrite
  exact endsCanonical_onUnit (by grind [State.spanWrite_canonical, State.modPart_canonical, State.snapDone_canonical, State.take_canonical,
    State.canonical_mk, State.canonical_tables])

@[simp] theorem execAbort_canonical (o : RingId) (hs : s.canonical = true) : EndsCanonical (execAbort o s) := by
  unfold execAbort
  refine endsCanonical_hostCommand (fun ref c u hu => ?_) hs
  exact State.checked_canonical _ _ _ _ (fun v hv => by grind [State.abort_canonical, State.complete_canonical]) hu

@[simp] theorem execMoor_canonical (cmd : ReadCmd) (hs : s.canonical = true) : EndsCanonical (execMoor cmd s) := by
  unfold execMoor
  refine endsCanonical_hostCommand (fun ref c u hu => ?_) hs
  exact State.checkedMeeting_canonical _ _ _ _ _ _ _ (fun v hv => by grind [State.setGondola_canonical, State.place_canonical,
    State.readVersion_canonical]) (by grind [State.afterChecks_canonical, State.meetVersion_canonical])

@[simp] theorem execMoorComplete_canonical (g : Nat) (hs : s.canonical = true) : EndsCanonical (execMoorComplete g s) := by
  unfold execMoorComplete
  exact endsCanonical_onUnit (by grind [State.endMoor_canonical])

@[simp] theorem execSwap_canonical (cmd : ReadCmd) (hs : s.canonical = true) : EndsCanonical (execSwap cmd s) := by
  unfold execSwap
  refine endsCanonical_hostCommand (fun ref c u hu => ?_) hs
  exact State.checkedMeeting_canonical _ _ _ _ _ _ _ (fun v hv => by grind [State.setGondola_canonical, State.place_canonical,
    State.readVersion_canonical, State.canonical_mk, State.canonical_tables]) (by grind [State.afterChecks_canonical, State.meetVersion_canonical])

@[simp] theorem execSwapComplete_canonical (g : Nat) (hs : s.canonical = true) : EndsCanonical (execSwapComplete g s) := by
  unfold execSwapComplete
  exact endsCanonical_onUnit (by grind [State.endSwap_canonical, State.canonical_mk, State.canonical_tables])

@[simp] theorem execEvict_canonical (o : RingId) (hs : s.canonical = true) : EndsCanonical (execEvict o s) := by
  unfold execEvict
  refine endsCanonical_hostCommand (fun ref c u hu => ?_) hs
  exact State.checked_canonical _ _ _ _ (fun v hv => by grind [State.evict_canonical]) (by grind [State.endSwap_canonical])

@[simp] theorem execRevoke_canonical (o : RingId) (hs : s.canonical = true) : EndsCanonical (execRevoke o s) := by
  unfold execRevoke
  refine endsCanonical_hostCommand (fun ref c u hu => ?_) hs
  exact State.checked_canonical _ _ _ _ (fun v hv => by grind [State.startRelease_canonical]) (by grind [State.endSwap_canonical])

@[simp] theorem execBaseSet_canonical (o : RingId) (hs : s.canonical = true) : EndsCanonical (execBaseSet o s) := by
  unfold execBaseSet
  exact endsCanonical_hostCommand (fun ref c u hu => by grind [State.complete_canonical, State.canonical_mk, State.canonical_tables,
    SMap.mapVals_wf]) hs

@[simp] theorem execRetiringRelease_canonical (g : Nat) (hs : s.canonical = true) : EndsCanonical (execRetiringRelease g s) := by
  unfold execRetiringRelease
  exact endsCanonical_onUnit (by grind [State.releaseRetiring_canonical])

@[simp] theorem execGondolaReleaseComplete_canonical (g : Nat) (hs : s.canonical = true) : EndsCanonical (execGondolaReleaseComplete g s) := by
  unfold execGondolaReleaseComplete
  exact endsCanonical_onUnit (by grind [State.freeGondola_canonical])

@[simp] theorem execReelOpen_canonical (o : RingId) (hs : s.canonical = true) : EndsCanonical (execReelOpen o s) := by
  unfold execReelOpen
  refine endsCanonical_hostCommand (fun ref c u hu => ?_) hs
  exact State.checked_canonical _ _ _ _ (fun v hv => by grind [State.scrubRange_canonical, State.putReel_canonical, State.addJob_canonical,
    State.canonical_mk, State.canonical_tables]) hu

@[simp] theorem execReelClose_canonical (o : RingId) (hs : s.canonical = true) : EndsCanonical (execReelClose o s) := by
  unfold execReelClose
  refine endsCanonical_hostCommand (fun ref c u hu => ?_) hs
  exact State.checked_canonical _ _ _ _ (fun v hv => by grind [State.closeReel_canonical, State.addJob_canonical, State.canonical_mk,
    State.canonical_tables]) hu

@[simp] theorem execReelAppend_canonical (core k : Nat) (hs : s.canonical = true) : EndsCanonical (execReelAppend core k s) := by
  unfold execReelAppend
  exact endsCanonical_onUnit (by grind [State.append_canonical, State.accepted_canonical, State.canonical_mk, State.canonical_tables])

@[simp] theorem execFeed_canonical (o : RingId) (hs : s.canonical = true) : EndsCanonical (execFeed o s) := by
  unfold execFeed
  refine endsCanonical_hostCommand (fun ref c u hu => ?_) hs
  exact State.checked_canonical _ _ _ _ (fun v hv => by grind [State.setSeq_canonical, State.modPart_canonical, State.complete_canonical,
    State.canonical_mk, State.canonical_tables]) hu

@[simp] theorem execBatchCfg_canonical (o : RingId) (hs : s.canonical = true) : EndsCanonical (execBatchCfg o s) := by
  unfold execBatchCfg
  refine endsCanonical_hostCommand (fun ref c u hu => ?_) hs
  exact State.checked_canonical _ _ _ _ (fun v hv => by grind [State.modPart_canonical, State.complete_canonical, State.canonical_mk,
    State.canonical_tables]) hu

@[simp] theorem execWindowTimeExpiry_canonical (part : Nat) (hs : s.canonical = true) : EndsCanonical (execWindowTimeExpiry part s) := by
  unfold execWindowTimeExpiry
  exact endsCanonical_onUnit (by grind [State.modPart_canonical, State.canonical_mk, State.canonical_tables])

@[simp] theorem execStepStart_canonical (part : Nat) (hs : s.canonical = true) : EndsCanonical (execStepStart part s) := by
  unfold execStepStart
  exact endsCanonical_onUnit (by grind [State.startStep_canonical, State.modPart_canonical, State.raise_canonical, State.canonical_mk,
    State.canonical_tables])

@[simp] theorem execStepDoneWrite_canonical (core k : Nat) (hs : s.canonical = true) : EndsCanonical (execStepDoneWrite core k s) := by
  unfold execStepDoneWrite
  exact endsCanonical_onUnit (by grind [State.coreWrite_canonical, State.accepted_canonical, State.endStep_canonical, State.raise_canonical,
    State.canonical_mk, State.canonical_tables])

@[simp] theorem execHostIn_canonical (o : RingId) (hs : s.canonical = true) : EndsCanonical (execHostIn o s) := by
  unfold execHostIn
  refine endsCanonical_hostCommand (fun ref c u hu => ?_) hs
  exact State.checked_canonical _ _ _ _ (fun v hv => by grind [State.addHostOp_canonical]) hu

@[simp] theorem execHostOut_canonical (o : RingId) (hs : s.canonical = true) : EndsCanonical (execHostOut o s) := by
  unfold execHostOut
  refine endsCanonical_hostCommand (fun ref c u hu => ?_) hs
  exact State.checkedRead_canonical _ _ _ _ _ _ _ (fun v hv => by grind [State.addHostOp_canonical]) hu

@[simp] theorem execPerstAssert_canonical (hs : s.canonical = true) : EndsCanonical (execPerstAssert s) := by
  unfold execPerstAssert
  exact endsCanonical_next (by grind [State.hostLinkDown_canonical, State.canonical_mk, State.canonical_tables, SMap.mapVals_wf])

@[simp] theorem execPerstRelease_canonical (hs : s.canonical = true) : EndsCanonical (execPerstRelease s) := by
  unfold execPerstRelease
  exact endsCanonical_next (by grind [State.canonical_mk, State.canonical_tables])

@[simp] theorem execConfigRequest_canonical (fn : Nat) (op : ConfigOp) (hs : s.canonical = true) : EndsCanonical (execConfigRequest fn op s) := by
  unfold execConfigRequest
  exact endsCanonical_onUnit (by grind [State.setFunc_canonical, State.emit_canonical, State.canonical_mk, State.canonical_tables])

@[simp] theorem execHostLinkActive_canonical (speed : BitVec 4) (width : BitVec 3) (flit : Bool) (hs : s.canonical = true) :
    EndsCanonical (execHostLinkActive speed width flit s) := by
  unfold execHostLinkActive
  exact endsCanonical_next (by grind [State.resume_canonical, foldl_canonical, State.canonical_mk, State.canonical_tables])

@[simp] theorem execHostLinkDown_canonical (hs : s.canonical = true) : EndsCanonical (execHostLinkDown s) := by
  unfold execHostLinkDown
  exact endsCanonical_next (by grind [State.hostLinkDown_canonical])

@[simp] theorem execFunctionLevelReset_canonical (fn : Nat) (hs : s.canonical = true) : EndsCanonical (execFunctionLevelReset fn s) := by
  unfold execFunctionLevelReset
  exact endsCanonical_onUnit (by grind [State.setFunc_canonical])

@[simp] theorem execBusMasterDisable_canonical (fn : Nat) (hs : s.canonical = true) : EndsCanonical (execBusMasterDisable fn s) := by
  unfold execBusMasterDisable
  exact endsCanonical_onUnit (by grind [State.setFunc_canonical, State.canonical_mk, State.canonical_tables])

@[simp] theorem execBusMasterEnable_canonical (fn : Nat) (hs : s.canonical = true) : EndsCanonical (execBusMasterEnable fn s) := by
  unfold execBusMasterEnable
  exact endsCanonical_onUnit (by grind [State.setFunc_canonical, State.resume_canonical, State.canonical_mk, State.canonical_tables])

@[simp] theorem execMsixUnmask_canonical (fn vec : Nat) (hs : s.canonical = true) : EndsCanonical (execMsixUnmask fn vec s) := by
  unfold execMsixUnmask
  exact endsCanonical_onUnit (by grind [State.setFunc_canonical, State.firePending_canonical, State.canonical_mk, State.canonical_tables])

@[simp] theorem execHifDbCmd_canonical (o : RingId) (value : W32) (hs : s.canonical = true) : EndsCanonical (execHifDbCmd o value s) := by
  unfold execHifDbCmd
  exact endsCanonical_onUnit (by grind [State.setRing_canonical, State.canonical_mk, State.canonical_tables])

@[simp] theorem execHifDbCpl_canonical (o : RingId) (value : W32) (hs : s.canonical = true) : EndsCanonical (execHifDbCpl o value s) := by
  unfold execHifDbCpl
  exact endsCanonical_onUnit (by grind [State.setRing_canonical, State.settle_canonical, State.canonical_mk, State.canonical_tables])

@[simp] theorem execRingEnable_canonical (fn : Nat) (value : W32) (hs : s.canonical = true) : EndsCanonical (execRingEnable fn value s) := by
  unfold execRingEnable
  exact endsCanonical_onUnit (by grind [State.setRing_canonical, State.settle_canonical])

@[simp] theorem execRingDisable_canonical (fn : Nat) (value : W32) (hs : s.canonical = true) : EndsCanonical (execRingDisable fn value s) := by
  unfold execRingDisable
  exact endsCanonical_onUnit (by grind [State.setRing_canonical])

@[simp] theorem execCommandFetch_canonical (o : RingId) (cmd : BitVec 512) (hs : s.canonical = true) : EndsCanonical (execCommandFetch o cmd s) := by
  unfold execCommandFetch
  exact endsCanonical_onUnit (by grind [State.setRing_canonical, State.complete_canonical, State.canonical_mk, State.canonical_tables])

@[simp] theorem execCoalesceTimerExpiry_canonical (o : RingId) (hs : s.canonical = true) : EndsCanonical (execCoalesceTimerExpiry o s) := by
  unfold execCoalesceTimerExpiry
  exact endsCanonical_onUnit (by grind [State.setRing_canonical, State.fire_canonical, State.canonical_mk, State.canonical_tables])

@[simp] theorem execPortPeerless_canonical (port : Nat) (hs : s.canonical = true) : EndsCanonical (execPortPeerless port s) := by
  unfold execPortPeerless
  exact endsCanonical_onUnit (by grind [State.modPort_canonical, State.canonical_mk, State.canonical_tables])

@[simp] theorem execSignalDetect_canonical (port : Nat) (hs : s.canonical = true) : EndsCanonical (execSignalDetect port s) := by
  unfold execSignalDetect
  exact endsCanonical_onUnit (by grind [State.modPort_canonical, State.canonical_mk, State.canonical_tables])

@[simp] theorem execPortTrained_canonical (port : Nat) (found : List LaneIn) (peer : W32) (hs : s.canonical = true) :
    EndsCanonical (execPortTrained port found peer s) := by
  unfold execPortTrained
  exact endsCanonical_onUnit (by grind [State.modPort_canonical, State.reportLanes_canonical, State.holdPort_canonical, State.beginAuth_canonical,
    State.canonical_mk, State.canonical_tables])

@[simp] theorem execIdentityMessage_canonical (port kind : Nat) (body : List Byte) (hs : s.canonical = true) :
    EndsCanonical (execIdentityMessage port kind body s) := by
  unfold execIdentityMessage
  refine endsCanonical_onUnit ?_
  split
  · cases ht : s.takeIdentity port kind body with
    | none => exact State.holdPort_canonical _ _ _ _ hs
    | some t => exact State.takeIdentity_canonical _ _ _ _ _ ht hs
  · exact hs

@[simp] theorem execAuthTimeout_canonical (port : Nat) (hs : s.canonical = true) : EndsCanonical (execAuthTimeout port s) := by
  unfold execAuthTimeout
  exact endsCanonical_onUnit (by grind [State.holdPort_canonical])

@[simp] theorem execFrameReceive_canonical (port : Nat) (rx : FrameRx) (hs : s.canonical = true) : EndsCanonical (execFrameReceive port rx s) := by
  unfold execFrameReceive
  exact endsCanonical_onUnit (by grind [State.countCodeword_canonical, State.sendIdle_canonical, State.takeFrame_canonical,
    State.checkFailed_canonical, State.canonical_mk, State.canonical_tables])

@[simp] theorem execRetryTimeout_canonical (port : Nat) (hs : s.canonical = true) : EndsCanonical (execRetryTimeout port s) := by
  unfold execRetryTimeout
  exact endsCanonical_onUnit (by grind [State.losePort_canonical, State.setPort_canonical, State.resendCounted_canonical, State.canonical_mk,
    State.canonical_tables])

@[simp] theorem execIdleFrameTimer_canonical (port : Nat) (hs : s.canonical = true) : EndsCanonical (execIdleFrameTimer port s) := by
  unfold execIdleFrameTimer
  exact endsCanonical_onUnit (by grind [State.sendIdle_canonical])

@[simp] theorem execLinkWatchdogExpiry_canonical (port : Nat) (hs : s.canonical = true) : EndsCanonical (execLinkWatchdogExpiry port s) := by
  unfold execLinkWatchdogExpiry
  exact endsCanonical_onUnit (by grind [State.losePort_canonical])

@[simp] theorem execCreditMessage_canonical (port cls freed : Nat) (hs : s.canonical = true) :
    EndsCanonical (execCreditMessage port cls freed s) := by
  unfold execCreditMessage
  exact endsCanonical_onUnit (by grind [State.modPort_canonical, State.flushWaiting_canonical, State.canonical_mk, State.canonical_tables])

@[simp] theorem execKeyRenewal_canonical (port : Nat) (hs : s.canonical = true) : EndsCanonical (execKeyRenewal port s) := by
  unfold execKeyRenewal
  exact endsCanonical_onUnit (by grind [State.count_canonical, State.tick_canonical, State.modPort_canonical, State.sendControl_canonical,
    State.canonical_mk, State.canonical_tables])

@[simp] theorem execRekeyMessage_canonical (port : Nat) (share : List Byte) (switchCount : W64) (hs : s.canonical = true) :
    EndsCanonical (execRekeyMessage port share switchCount s) := by
  unfold execRekeyMessage
  exact endsCanonical_onUnit (by grind [State.modPort_canonical, State.canonical_mk, State.canonical_tables])

@[simp] theorem execRefusalMessage_canonical (port : Nat) (status : W16) (bucket : Nat) (step : W32) (refused : RefusedTo) (hs :
    s.canonical = true) : EndsCanonical (execRefusalMessage port status bucket step refused s) := by
  unfold execRefusalMessage
  exact endsCanonical_onUnit (by grind [State.takeRefusal_canonical, State.sendRefusal_canonical, State.canonical_mk, State.canonical_tables])

@[simp] theorem execCreditGrant_canonical (src dst : Nat) (hs : s.canonical = true) : EndsCanonical (execCreditGrant src dst s) := by
  unfold execCreditGrant
  exact endsCanonical_onUnit (by grind [State.modCore_canonical, State.grantAll_canonical, State.canonical_mk, State.canonical_tables])

@[simp] theorem execMessageArrive_canonical (src dst chan : Nat) (hs : s.canonical = true) : EndsCanonical (execMessageArrive src dst chan s) := by
  unfold execMessageArrive
  exact endsCanonical_onUnit (by grind [State.modCore_canonical, State.canonical_mk, State.canonical_tables])

@[simp] theorem execOperationComplete_canonical (core : Nat) (op : OpEnd) (hs : s.canonical = true) :
    EndsCanonical (execOperationComplete core op s) := by
  unfold execOperationComplete
  exact endsCanonical_onUnit (by grind [State.modCore_canonical, State.place_canonical, State.setCore_canonical, State.settleCore_canonical,
    State.endRoutine_canonical, State.canonical_mk, State.canonical_tables])

@[simp] theorem execChunkReceive_canonical (port : Nat) (u : ChunkUnit) (hs : s.canonical = true) : EndsCanonical (execChunkReceive port u s) := by
  unfold execChunkReceive
  exact endsCanonical_onUnit (by grind [State.forwardChunk_canonical, State.refuseChunk_canonical, State.chunkHere_canonical, State.canonical_mk,
    State.canonical_tables])

@[simp] theorem execSumSend_canonical (bucket : Nat) (step : W32) (chunk stage : Nat) (hs : s.canonical = true) :
    EndsCanonical (execSumSend bucket step chunk stage s) := by
  unfold execSumSend
  exact endsCanonical_next (by grind [State.passAll_canonical, State.putReduction_canonical, State.delivered_canonical, State.pruneSteps_canonical,
    State.resultArrives_canonical, State.trySend_canonical, State.canonical_mk, State.canonical_tables])

@[simp] theorem execChunkDeliver_canonical (bucket : Nat) (step : W32) (chunk : Nat) (hs : s.canonical = true) :
    EndsCanonical (execChunkDeliver bucket step chunk s) := by
  unfold execChunkDeliver
  refine endsCanonical_next ?_
  (repeat' split) <;> try exact hs
  next t ht => exact State.pruneSteps_canonical _ _ (State.delivered_canonical _ _ _ _ (State.linkDeliver_canonical _ _ _ _ _ _ _ ht hs))

@[simp] theorem execTransferDeliver_canonical (t : TransferUnit) (hs : s.canonical = true) : EndsCanonical (execTransferDeliver t s) := by
  unfold execTransferDeliver
  exact endsCanonical_next (by grind [State.trySend_canonical, State.freeAny_canonical, State.takeTransfer_canonical, State.lnkEvent_canonical,
    State.linkDeliver_canonical, State.canonical_mk, State.canonical_tables])

@[simp] theorem execPostWrite_canonical (core k : Nat) (hs : s.canonical = true) : EndsCanonical (execPostWrite core k s) := by
  unfold execPostWrite
  exact endsCanonical_onUnit (by grind [State.postWinching_canonical, State.accepted_canonical, State.postUnit_canonical, State.lnkEvent_canonical,
    State.canonical_mk, State.canonical_tables])

@[simp] theorem execBucketDefRetire_canonical (bucket : Nat) (hs : s.canonical = true) : EndsCanonical (execBucketDefRetire bucket s) := by
  unfold execBucketDefRetire
  exact endsCanonical_onUnit (by grind [State.setBucket_canonical, State.canonical_mk, State.canonical_tables])

@[simp] theorem execBktDef_canonical (o : RingId) (hs : s.canonical = true) : EndsCanonical (execBktDef o s) := by
  unfold execBktDef
  refine endsCanonical_hostCommand (fun ref c u hu => ?_) hs
  exact State.checked_canonical _ _ _ _ (fun v hv => by grind [State.setBucket_canonical, State.complete_canonical]) hu

@[simp] theorem execBktDel_canonical (o : RingId) (hs : s.canonical = true) : EndsCanonical (execBktDel o s) := by
  unfold execBktDel
  refine endsCanonical_hostCommand (fun ref c u hu => ?_) hs
  exact State.checked_canonical _ _ _ _ (fun v hv => by grind [State.removeBucket_canonical, State.complete_canonical]) hu

@[simp] theorem execBktSubst_canonical (o : RingId) (hs : s.canonical = true) : EndsCanonical (execBktSubst o s) := by
  unfold execBktSubst
  refine endsCanonical_hostCommand (fun ref c u hu => ?_) hs
  exact State.checked_canonical _ _ _ _ (fun v hv => by grind [State.modPart_canonical, State.complete_canonical, State.canonical_mk,
    State.canonical_tables]) hu

@[simp] theorem execPostCfg_canonical (o : RingId) (hs : s.canonical = true) : EndsCanonical (execPostCfg o s) := by
  unfold execPostCfg
  refine endsCanonical_hostCommand (fun ref c u hu => ?_) hs
  exact State.checked_canonical _ _ _ _ (fun v hv => by grind [State.modPart_canonical, State.complete_canonical, State.canonical_mk,
    State.canonical_tables]) hu

@[simp] theorem execDigestRead_canonical (o : RingId) (hs : s.canonical = true) : EndsCanonical (execDigestRead o s) := by
  unfold execDigestRead
  refine endsCanonical_hostCommand (fun ref c u hu => ?_) hs
  exact State.checked_canonical _ _ _ _ (fun v hv => by grind [State.putBytes_canonical, State.complete_canonical]) hu

@[simp] theorem execTrainCfg_canonical (o : RingId) (hs : s.canonical = true) : EndsCanonical (execTrainCfg o s) := by
  unfold execTrainCfg
  refine endsCanonical_hostCommand (fun ref c u hu => ?_) hs
  exact State.checked_canonical _ _ _ _ (fun v hv => by grind [State.cancelHeld_canonical, State.putCtx_canonical, State.complete_canonical,
    State.canonical_mk, State.canonical_tables]) hu

@[simp] theorem execStepRedo_canonical (o : RingId) (hs : s.canonical = true) : EndsCanonical (execStepRedo o s) := by
  unfold execStepRedo
  refine endsCanonical_hostCommand (fun ref c u hu => ?_) hs
  exact State.checked_canonical _ _ _ _ (fun v hv => by grind [State.putCtx_canonical, State.complete_canonical, State.canonical_mk,
    State.canonical_tables]) hu

@[simp] theorem execStepRevert_canonical (o : RingId) (hs : s.canonical = true) : EndsCanonical (execStepRevert o s) := by
  unfold execStepRevert
  refine endsCanonical_hostCommand (fun ref c u hu => ?_) hs
  exact State.checked_canonical _ _ _ _ (fun v hv => by grind [State.stopCopy_canonical, State.cancelReshard_canonical, State.putCtx_canonical,
    State.discardBefore_canonical, State.complete_canonical, State.canonical_mk, State.canonical_tables]) hu

@[simp] theorem execTandemCfg_canonical (o : RingId) (hs : s.canonical = true) : EndsCanonical (execTandemCfg o s) := by
  unfold execTandemCfg
  refine endsCanonical_hostCommand (fun ref c u hu => ?_) hs
  exact State.checked_canonical _ _ _ _ (fun v hv => by grind [State.makeStore_canonical, State.nameTandem_canonical, State.complete_canonical,
    State.canonical_mk, State.canonical_tables]) hu

@[simp] theorem execUpdateDoneMark_canonical (core k : Nat) (hs : s.canonical = true) : EndsCanonical (execUpdateDoneMark core k s) := by
  unfold execUpdateDoneMark
  exact endsCanonical_onUnit (by grind [State.putCtx_canonical, State.copyVersion_canonical, State.raise_canonical, State.accepted_canonical,
    State.canonical_mk, State.canonical_tables])

@[simp] theorem execTandemCopyReceive_canonical (part : Nat) (pos tag version : W32) (index : Nat) (tile : TileData) (hs : s.canonical = true) :
    EndsCanonical (execTandemCopyReceive part pos tag version index tile s) := by
  unfold execTandemCopyReceive
  refine endsCanonical_onUnit ?_
  split
  · exact hs
  · have hu := s.freeAny_canonical 2 (tandemBytes kindTandem part tag pos s.me version index tile) hs
    generalize s.freeAny 2 _ = u at hu ⊢
    grind [State.raise_canonical, State.putTile_canonical, State.putStore_canonical, State.dispatch_canonical]

@[simp] theorem execTandemAcknowledge_canonical (part : Nat) (pos version : W32) (hs : s.canonical = true) :
    EndsCanonical (execTandemAcknowledge part pos version s) := by
  unfold execTandemAcknowledge
  exact endsCanonical_onUnit (by grind [State.freeAny_canonical, State.putCtx_canonical, State.postToken_canonical, State.canonical_mk,
    State.canonical_tables])

@[simp] theorem execTandemRestore_canonical (o : RingId) (hs : s.canonical = true) : EndsCanonical (execTandemRestore o s) := by
  unfold execTandemRestore
  refine endsCanonical_hostCommand (fun ref c u hu => ?_) hs
  exact State.checked_canonical _ _ _ _ (fun v hv => by grind [State.modPart_canonical, State.dispatch_canonical, State.canonical_mk,
    State.canonical_tables]) hu

@[simp] theorem execTandemRestoreComplete_canonical (part : Nat) (tiles : Option (List TileData)) (hs : s.canonical = true) :
    EndsCanonical (execTandemRestoreComplete part tiles s) := by
  unfold execTandemRestoreComplete
  exact endsCanonical_onUnit (by grind [State.dropReplies_canonical, State.modPart_canonical, State.complete_canonical, State.putTile_canonical,
    State.cancelReshard_canonical, State.putCtx_canonical, foldl_canonical, State.canonical_mk, State.canonical_tables])

@[simp] theorem execReshard_canonical (cmd : ReadCmd) (hs : s.canonical = true) : EndsCanonical (execReshard cmd s) := by
  unfold execReshard
  refine endsCanonical_hostCommand (fun ref c u hu => ?_) hs
  exact State.checkedMeeting_canonical _ _ _ _ _ _ _ (fun v hv => by grind [State.holdReshard_canonical]) (by grind [State.afterChecks_canonical,
    State.meetCodewords_canonical])

@[simp] theorem execReserveSet_canonical (o : RingId) (hs : s.canonical = true) : EndsCanonical (execReserveSet o s) := by
  unfold execReserveSet
  refine endsCanonical_hostCommand (fun ref c u hu => ?_) hs
  exact State.checked_canonical _ _ _ _ (fun v hv => by grind [State.modPart_canonical, State.formWaiting_canonical, State.complete_canonical,
    State.canonical_mk, State.canonical_tables]) hu

@[simp] theorem execWinchSend_canonical (part : Nat) (hs : s.canonical = true) : EndsCanonical (execWinchSend part s) := by
  unfold execWinchSend
  have hf := fun src => s.fetchTile_canonical part src hs
  refine endsCanonical_onUnit ?_
  split
  · exact hs
  · next x r _ =>
    split
    · exact hs
    · next src dst pos _ =>
      dsimp only
      split
      · exact hf src
      · next d _ =>
        split
        · refine State.afterWinch_canonical _ _ (State.putReshard_canonical _ _ _ _ (State.unstage_canonical _ _ _ _ ?_))
          generalize hp : State.placeTile _ _ _ _ _ = p
          match p, hp with
          | none, _ => exact hf src
          | some (t, q), hp => exact State.placeTile_canonical _ _ _ _ _ _ _ hp (hf src)
        · split
          · exact hs
          · next t ht => exact State.putReshard_canonical _ _ _ _ (State.unstage_canonical _ _ _ _ (State.sendWinch_canonical _ _ _ _ _ _ ht (hf
                src)))

@[simp] theorem execWinchTileArrive_canonical (w : WinchTile) (hs : s.canonical = true) : EndsCanonical (execWinchTileArrive w s) := by
  unfold execWinchTileArrive
  exact endsCanonical_onUnit (by grind [State.freeUnit_canonical, State.discardWinch_canonical, State.refuseWinch_canonical,
    State.placeTile_canonical, State.putReshard_canonical, State.putCtx_canonical, State.afterWinch_canonical, State.canonical_mk,
    State.canonical_tables])

@[simp] theorem execWinchResend_canonical (part : Nat) (hs : s.canonical = true) : EndsCanonical (execWinchResend part s) := by
  unfold execWinchResend
  exact endsCanonical_onUnit (by grind [State.refused_canonical, State.placeTile_canonical, State.putReshard_canonical, State.afterWinch_canonical,
    State.sendWinch_canonical, State.canonical_mk, State.canonical_tables])

@[simp] theorem execReshardComplete_canonical (part : Nat) (hs : s.canonical = true) : EndsCanonical (execReshardComplete part s) := by
  unfold execReshardComplete
  exact endsCanonical_onUnit (by grind [State.winchPart_canonical, State.endReshard_canonical, State.canonical_mk, State.canonical_tables])

@[simp] theorem execPartCreate_canonical (o : RingId) (hs : s.canonical = true) : EndsCanonical (execPartCreate o s) := by
  unfold execPartCreate
  refine endsCanonical_hostCommand (fun ref c u hu => ?_) hs
  exact State.checked_canonical _ _ _ _ (fun v hv => by grind [State.createPartition_canonical, State.complete_canonical]) hu

@[simp] theorem execPartResize_canonical (o : RingId) (hs : s.canonical = true) : EndsCanonical (execPartResize o s) := by
  unfold execPartResize
  refine endsCanonical_hostCommand (fun ref c u hu => ?_) hs
  exact State.checked_canonical _ _ _ _ (fun v hv => by grind [State.modPart_canonical, State.roomFor_canonical, State.canonical_mk,
    State.canonical_tables]) hu

@[simp] theorem execPartDelete_canonical (o : RingId) (hs : s.canonical = true) : EndsCanonical (execPartDelete o s) := by
  unfold execPartDelete
  refine endsCanonical_hostCommand (fun ref c u hu => ?_) hs
  exact State.checked_canonical _ _ _ _ (fun v hv => by grind [State.deletePart_canonical, State.addJob_canonical, State.canonical_mk,
    State.canonical_tables]) hu

@[simp] theorem execScrubComplete_canonical (job : Nat) (hs : s.canonical = true) : EndsCanonical (execScrubComplete job s) := by
  unfold execScrubComplete
  exact endsCanonical_next (by grind [State.erasePart_canonical, State.completeOpt_canonical, State.canonical_mk, State.canonical_tables])

@[simp] theorem execFreeze_canonical (o : RingId) (hs : s.canonical = true) : EndsCanonical (execFreeze o s) := by
  unfold execFreeze
  refine endsCanonical_hostCommand (fun ref c u hu => ?_) hs
  exact State.checked_canonical _ _ _ _ (fun v hv => by grind [State.modPart_canonical, State.canonical_mk, State.canonical_tables]) hu

@[simp] theorem execFreezeComplete_canonical (part : Nat) (hs : s.canonical = true) : EndsCanonical (execFreezeComplete part s) := by
  unfold execFreezeComplete
  exact endsCanonical_onUnit (by grind [State.dropCredit_canonical, State.dropBatcher_canonical, State.writeBack_canonical, State.modPart_canonical,
    State.completeOpt_canonical, foldl_canonical, State.canonical_mk, State.canonical_tables])

@[simp] theorem execThaw_canonical (o : RingId) (hs : s.canonical = true) : EndsCanonical (execThaw o s) := by
  unfold execThaw
  refine endsCanonical_hostCommand (fun ref c u hu => ?_) hs
  exact State.checked_canonical _ _ _ _ (fun v hv => by grind [State.fitSupply_canonical, State.modPart_canonical, State.relay_canonical,
    State.complete_canonical, foldl_canonical, State.canonical_mk, State.canonical_tables]) hu

@[simp] theorem execSave_canonical (o : RingId) (segs : List (W64 × W64)) (hs : s.canonical = true) : EndsCanonical (execSave o segs s) := by
  unfold execSave
  split
  · exact endsCanonical_next hs
  · refine endsCanonical_hostCommand (fun ref c u hu => ?_) hs
    exact State.checked_canonical _ _ _ _ (fun v hv => State.modPart_canonical _ _ _ hv) hu

@[simp] theorem execSaveComplete_canonical (part : Nat) (result : ImageWritten) (hs : s.canonical = true) :
    EndsCanonical (execSaveComplete part result s) := by
  unfold execSaveComplete
  have ht := foldl_canonical (fun t e => t.codewords part e.1 e.2) (fun t e ht => State.codewords_canonical _ _ _ _ ht) result.errs s hs
  refine endsCanonical_onUnit ?_
  dsimp only
  split
  · refine State.completeOpt_canonical _ _ _ _ (State.modPart_canonical _ _ _ ?_)
    split
    · exact State.writeSegs_canonical _ _ _ _ (State.tick_canonical _ ht)
    · exact ht
  · exact hs

@[simp] theorem execRestore_canonical (o : RingId) (hs : s.canonical = true) : EndsCanonical (execRestore o s) := by
  unfold execRestore
  refine endsCanonical_hostCommand (fun ref c u hu => ?_) hs
  exact State.checked_canonical _ _ _ _ (fun v hv => by grind [State.setPart_canonical, State.canonical_mk, State.canonical_tables]) hu

@[simp] theorem execRestoreComplete_canonical (part : Nat) (img : Option Image) (hs : s.canonical = true) :
    EndsCanonical (execRestoreComplete part img s) := by
  unfold execRestoreComplete
  exact endsCanonical_onUnit (by grind [State.setPart_canonical, State.completeOpt_canonical, State.install_canonical, State.canonical_mk,
    State.canonical_tables])

@[simp] theorem execBind_canonical (o : RingId) (hs : s.canonical = true) : EndsCanonical (execBind o s) := by
  unfold execBind
  refine endsCanonical_hostCommand (fun ref c u hu => ?_) hs
  exact State.checked_canonical _ _ _ _ (fun v hv => by grind [State.addHostOp_canonical]) hu

@[simp] theorem execUnbind_canonical (o : RingId) (hs : s.canonical = true) : EndsCanonical (execUnbind o s) := by
  unfold execUnbind
  refine endsCanonical_hostCommand (fun ref c u hu => ?_) hs
  exact State.checked_canonical _ _ _ _ (fun v hv => by grind [State.complete_canonical, State.canonical_mk, State.canonical_tables,
    SMap.filter_wf]) hu

@[simp] theorem execEnvCreate_canonical (o : RingId) (hs : s.canonical = true) : EndsCanonical (execEnvCreate o s) := by
  unfold execEnvCreate
  refine endsCanonical_hostCommand (fun ref c u hu => ?_) hs
  exact State.checked_canonical _ _ _ _ (fun v hv => by grind [State.setEnv_canonical, State.tick_canonical, State.complete_canonical,
    State.canonical_mk, State.canonical_tables]) hu

@[simp] theorem execEnvBind_canonical (o : RingId) (hs : s.canonical = true) : EndsCanonical (execEnvBind o s) := by
  unfold execEnvBind
  refine endsCanonical_hostCommand (fun ref c u hu => ?_) hs
  exact State.checked_canonical _ _ _ _ (fun v hv => by grind [State.setEnv_canonical, State.complete_canonical, State.canonical_mk,
    State.canonical_tables]) hu

@[simp] theorem execEnvDestroy_canonical (o : RingId) (hs : s.canonical = true) : EndsCanonical (execEnvDestroy o s) := by
  unfold execEnvDestroy
  refine endsCanonical_hostCommand (fun ref c u hu => ?_) hs
  exact State.checked_canonical _ _ _ _ (fun v hv => by grind [State.setEnv_canonical, State.complete_canonical]) hu

@[simp] theorem execImportTiles_canonical (o : RingId) (hs : s.canonical = true) : EndsCanonical (execImportTiles o s) := by
  unfold execImportTiles
  refine endsCanonical_hostCommand (fun ref c u hu => ?_) hs
  exact State.checked_canonical _ _ _ _ (fun v hv => by grind [State.addHostOp_canonical]) hu

@[simp] theorem execLock_canonical (o : RingId) (hs : s.canonical = true) : EndsCanonical (execLock o s) := by
  unfold execLock
  refine endsCanonical_hostCommand (fun ref c u hu => ?_) hs
  exact State.checked_canonical _ _ _ _ (fun v hv => by grind [State.modPart_canonical, State.complete_canonical, State.canonical_mk,
    State.canonical_tables]) hu

@[simp] theorem execImageBind_canonical (o : RingId) (hs : s.canonical = true) : EndsCanonical (execImageBind o s) := by
  unfold execImageBind
  refine endsCanonical_hostCommand (fun ref c u hu => ?_) hs
  exact State.checked_canonical _ _ _ _ (fun v hv => by grind [State.modPart_canonical, State.complete_canonical, State.canonical_mk,
    State.canonical_tables]) hu

@[simp] theorem execAttest_canonical (o : RingId) (hs : s.canonical = true) : EndsCanonical (execAttest o s) := by
  unfold execAttest
  refine endsCanonical_hostCommand (fun ref c u hu => ?_) hs
  refine State.checked_canonical _ _ _ _ (fun v hv => ?_) hu
  refine (ite_canonical _ _ _).mpr ⟨fun _ => State.complete_canonical _ _ _ _ hv, fun _ => ?_⟩
  simp [State.addHostOp, hv]

@[simp] theorem execHostMemoryAccessComplete_canonical (k : Nat) (result : HostReturn) (hs : s.canonical = true) :
    EndsCanonical (execHostMemoryAccessComplete k result s) := by
  unfold execHostMemoryAccessComplete
  exact endsCanonical_next (by grind [State.meetHostOp_canonical, State.endHostOp_canonical, State.canonical_mk, State.canonical_tables])

@[simp] theorem execReadingsWrite_canonical (part : Nat) (r : Readings) (hs : s.canonical = true) : EndsCanonical (execReadingsWrite part r s) := by
  unfold execReadingsWrite
  exact endsCanonical_onUnit (by grind [State.modPart_canonical, State.spanWrite_canonical, State.canonical_mk, State.canonical_tables,
    Mem.ofList_wf])

@[simp] theorem execSecEntropyFail_canonical (hs : s.canonical = true) : EndsCanonical (execSecEntropyFail s) := by
  unfold execSecEntropyFail
  exact endsCanonical_next (by grind [State.secEvent_canonical, State.canonical_mk, State.canonical_tables])

@[simp] theorem execSecEntropyRecover_canonical (hs : s.canonical = true) : EndsCanonical (execSecEntropyRecover s) := by
  unfold execSecEntropyRecover
  exact endsCanonical_next (by grind [State.canonical_mk, State.canonical_tables])

@[simp] theorem execOwnerProvision_canonical (smbus : Bool) (digest : BitVec 384) (hs : s.canonical = true) :
    EndsCanonical (execOwnerProvision smbus digest s) := by
  unfold execOwnerProvision
  exact endsCanonical_ownerRequest (fun u hu => by grind [State.canonical_mk, State.canonical_tables]) hs

@[simp] theorem execFloorAdvance_canonical (floor : Nat) (hs : s.canonical = true) : EndsCanonical (execFloorAdvance floor s) := by
  unfold execFloorAdvance
  exact endsCanonical_ownerRequest (fun u hu => by grind [State.canonical_mk, State.canonical_tables]) hs

@[simp] theorem execSetCertificate_canonical (slot : Nat) (chain : List Byte) (hs : s.canonical = true) :
    EndsCanonical (execSetCertificate slot chain s) := by
  unfold execSetCertificate
  exact endsCanonical_ownerRequest (fun u hu => by grind [State.modPort_canonical, foldl_canonical, State.canonical_mk, State.canonical_tables]) hs

@[simp] theorem execSpdmRequest_canonical (req : SpdmReq) (hs : s.canonical = true) : EndsCanonical (execSpdmRequest req s) := by
  unfold execSpdmRequest
  exact endsCanonical_next (by grind [State.spdm_canonical, State.tick_canonical, State.openSession_canonical, State.authFailed_canonical,
    State.canonical_mk, State.canonical_tables])

@[simp] theorem execQuery_canonical (fn : Nat) (hs : s.canonical = true) : EndsCanonical (execQuery fn s) := by
  unfold execQuery
  exact endsCanonical_ideKm (fun u hu => by grind) hs

@[simp] theorem execKeyProg_canonical (key : StreamKey) (hs : s.canonical = true) : EndsCanonical (execKeyProg key s) := by
  unfold execKeyProg
  exact endsCanonical_ideKm (fun u hu => by grind [State.setFunc_canonical, State.canonical_mk, State.canonical_tables]) hs

@[simp] theorem execKSetGo_canonical (fn : Nat) (hs : s.canonical = true) : EndsCanonical (execKSetGo fn s) := by
  unfold execKSetGo
  exact endsCanonical_ideKm (fun u hu => by grind [State.setFunc_canonical, State.canonical_mk, State.canonical_tables]) hs

@[simp] theorem execKSetStop_canonical (fn : Nat) (hs : s.canonical = true) : EndsCanonical (execKSetStop fn s) := by
  unfold execKSetStop
  exact endsCanonical_ideKm (fun u hu => by grind [State.leaveSecure_canonical, State.setFunc_canonical, State.canonical_mk,
    State.canonical_tables]) hs

@[simp] theorem execIdeLeaveSecure_canonical (fn : Nat) (hs : s.canonical = true) : EndsCanonical (execIdeLeaveSecure fn s) := by
  unfold execIdeLeaveSecure
  exact endsCanonical_onUnit (by grind [State.leaveSecure_canonical])

@[simp] theorem execLadder_canonical (o : RingId) (hs : s.canonical = true) : EndsCanonical (execLadder o s) := by
  unfold execLadder
  exact endsCanonical_hostCommand (fun ref c u hu => by grind [State.ladder_canonical]) hs

@[simp] theorem execLadderComplete_canonical (hs : s.canonical = true) : EndsCanonical (execLadderComplete s) := by
  unfold execLadderComplete
  exact endsCanonical_next (by grind [State.moveRung_canonical, State.answer_canonical, State.canonical_mk, State.canonical_tables])

@[simp] theorem execSelftest_canonical (o : RingId) (hs : s.canonical = true) : EndsCanonical (execSelftest o s) := by
  unfold execSelftest
  exact endsCanonical_hostCommand (fun ref c u hu => by grind [State.selfTest_canonical]) hs

@[simp] theorem execSelftestComplete_canonical (sig expd : W64) (fails : List TestUnit) (hs : s.canonical = true) :
    EndsCanonical (execSelftestComplete sig expd fails s) := by
  unfold execSelftestComplete
  exact endsCanonical_onUnit (by grind [State.logFails_canonical, State.testFailed_canonical, State.modPort_canonical, State.answer_canonical,
    State.canonical_mk, State.canonical_tables])

@[simp] theorem execSupplyStep_canonical (core : Nat) (up : Bool) (hs : s.canonical = true) : EndsCanonical (execSupplyStep core up s) := by
  unfold execSupplyStep
  exact endsCanonical_onUnit (by grind [State.modCore_canonical, State.fitSupply_canonical, State.canonical_mk, State.canonical_tables])

@[simp] theorem execCoreHot_canonical (core : Nat) (temp : Byte) (hs : s.canonical = true) : EndsCanonical (execCoreHot core temp s) := by
  unfold execCoreHot
  exact endsCanonical_onUnit (by grind [State.heat_canonical, State.modCore_canonical, State.pwrEvent_canonical, State.canonical_mk,
    State.canonical_tables])

@[simp] theorem execCeilingStep_canonical (core : Nat) (temp : Byte) (hs : s.canonical = true) : EndsCanonical (execCeilingStep core temp s) := by
  unfold execCeilingStep
  exact endsCanonical_onUnit (by grind [State.heat_canonical, State.modCore_canonical, State.canonical_mk, State.canonical_tables])

@[simp] theorem execCoreHold_canonical (core : Nat) (temp : Byte) (hs : s.canonical = true) : EndsCanonical (execCoreHold core temp s) := by
  unfold execCoreHold
  exact endsCanonical_onUnit (by grind [State.heat_canonical, State.modCore_canonical, State.pwrEvent_canonical, State.canonical_mk,
    State.canonical_tables])

@[simp] theorem execCoreHoldRelease_canonical (core : Nat) (temp : Byte) (hs : s.canonical = true) :
    EndsCanonical (execCoreHoldRelease core temp s) := by
  unfold execCoreHoldRelease
  exact endsCanonical_onUnit (by grind [State.heat_canonical, State.modCore_canonical, State.canonical_mk, State.canonical_tables])

@[simp] theorem execEngineGate_canonical (core eng : Nat) (hs : s.canonical = true) : EndsCanonical (execEngineGate core eng s) := by
  unfold execEngineGate
  exact endsCanonical_onUnit (by grind [State.modCore_canonical, State.canonical_mk, State.canonical_tables])

@[simp] theorem execHbmCalibration_canonical (stack : Nat) (hs : s.canonical = true) : EndsCanonical (execHbmCalibration stack s) := by
  unfold execHbmCalibration
  exact endsCanonical_onUnit (by grind)

@[simp] theorem execRegisterWrite_canonical (fn : Nat) (offset value : W32) (hs : s.canonical = true) :
    EndsCanonical (execRegisterWrite fn offset value s) := by
  unfold execRegisterWrite State.writeRingCfg
  (repeat' split)
  · exact fun _ h => by cases h
  · exact execRingEnable_canonical _ _ hs
  · exact execRingDisable_canonical _ _ hs
  · exact endsCanonical_next hs
  · exact endsCanonical_next (State.writePf_canonical _ _ _ hs)
  · exact endsCanonical_next (State.writeRing_canonical _ _ _ _ hs)

@[simp] theorem execRecal_canonical (value : W32) (hs : s.canonical = true) : EndsCanonical (execRecal value s) := by
  unfold execRecal
  exact endsCanonical_next (by grind [State.writePortCtl_canonical])

@[simp] theorem execPortHold_canonical (value : W32) (hs : s.canonical = true) : EndsCanonical (execPortHold value s) := by
  unfold execPortHold
  exact endsCanonical_next (by grind [State.writePortCtl_canonical])

@[simp] theorem execPortUnhold_canonical (value : W32) (hs : s.canonical = true) : EndsCanonical (execPortUnhold value s) := by
  unfold execPortUnhold
  exact endsCanonical_next (by grind [State.writePortCtl_canonical])

@[simp] theorem execMgtPClr_canonical (value : W32) (hs : s.canonical = true) : EndsCanonical (execMgtPClr value s) := by
  unfold execMgtPClr
  exact endsCanonical_next (by grind [State.clearCounts_canonical])

@[simp] theorem execMgtPCntLoRead_canonical (hs : s.canonical = true) : EndsCanonical (execMgtPCntLoRead s) := by
  unfold execMgtPCntLoRead
  exact endsCanonical_next (by grind [State.modPart_canonical, State.canonical_mk, State.canonical_tables])

@[simp] theorem execMctpControl_canonical (path : MctpPath) (req : MctpReq) (eid : Byte) (hs : s.canonical = true) :
    EndsCanonical (execMctpControl path req eid s) := by
  unfold execMctpControl
  exact endsCanonical_next (by grind [State.setEid_canonical, State.emit_canonical, State.pldm_canonical, State.vendor_canonical,
    State.canonical_mk, State.canonical_tables])

@[simp] theorem execGetStartup_canonical (hs : s.canonical = true) : EndsCanonical (execGetStartup s) := by
  unfold execGetStartup
  exact endsCanonical_whenAwake (by grind [State.vendor_canonical]) hs

@[simp] theorem execWake_canonical (hs : s.canonical = true) : EndsCanonical (execWake s) := by
  unfold execWake
  exact endsCanonical_whenAwake (by grind [State.vendor_canonical, State.canonical_mk, State.canonical_tables]) hs

@[simp] theorem execReset_canonical (hs : s.canonical = true) : EndsCanonical (execReset s) := by
  unfold execReset
  exact endsCanonical_whenAwake (by grind [State.vendor_canonical, State.modReset_canonical, State.modResetEnd_canonical]) hs

@[simp] theorem execMgmtLadder_canonical (body : W32) (hs : s.canonical = true) : EndsCanonical (execMgmtLadder body s) := by
  unfold execMgmtLadder
  exact endsCanonical_whenAwake (by grind [State.vendor_canonical, State.ladder_canonical]) hs

@[simp] theorem execMgmtSelftest_canonical (body : W32) (hs : s.canonical = true) : EndsCanonical (execMgmtSelftest body s) := by
  unfold execMgmtSelftest
  exact endsCanonical_whenAwake (by grind [State.vendor_canonical, State.selfTest_canonical]) hs

@[simp] theorem execLogRead_canonical (first : W32) (count : Byte) (hs : s.canonical = true) : EndsCanonical (execLogRead first count s) := by
  unfold execLogRead
  exact endsCanonical_whenAwake (by grind [State.vendor_canonical]) hs

@[simp] theorem execCounterClear_canonical (hs : s.canonical = true) : EndsCanonical (execCounterClear s) := by
  unfold execCounterClear
  exact endsCanonical_whenAwake (by grind [State.clearErrors_canonical, State.log_canonical, State.vendor_canonical, State.canonical_mk,
    State.canonical_tables]) hs

@[simp] theorem execRegRead_canonical (offset : W32) (hs : s.canonical = true) : EndsCanonical (execRegRead offset s) := by
  unfold execRegRead
  exact endsCanonical_whenAwake (by grind [State.vendor_canonical, State.tick_canonical]) hs

@[simp] theorem execGetSensorReading_canonical (ident : Nat) (hs : s.canonical = true) : EndsCanonical (execGetSensorReading ident s) := by
  unfold execGetSensorReading
  exact endsCanonical_whenAwake (by grind [State.emit_canonical, State.pldm_canonical, State.tick_canonical, State.canonical_mk,
    State.canonical_tables]) hs

@[simp] theorem execSetEventReceiver_canonical (eid : Byte) (hs : s.canonical = true) : EndsCanonical (execSetEventReceiver eid s) := by
  unfold execSetEventReceiver
  exact endsCanonical_whenAwake (by grind [State.emit_canonical, State.pldm_canonical, State.canonical_mk, State.canonical_tables]) hs

@[simp] theorem execEventResend_canonical (number : W32) (hs : s.canonical = true) : EndsCanonical (execEventResend number s) := by
  unfold execEventResend
  exact endsCanonical_next (by grind [State.emit_canonical, State.canonical_mk, State.canonical_tables, SMap.filter_wf])

@[simp] theorem execEventAcknowledge_canonical (number : W32) (hs : s.canonical = true) : EndsCanonical (execEventAcknowledge number s) := by
  unfold execEventAcknowledge
  exact endsCanonical_next (by grind [State.canonical_mk, State.canonical_tables, SMap.filter_wf])

@[simp] theorem execRequestUpdate_canonical (hs : s.canonical = true) : EndsCanonical (execRequestUpdate s) := by
  unfold execRequestUpdate
  exact endsCanonical_whenAwake (by grind [State.pldm_canonical, State.canonical_mk, State.canonical_tables]) hs

@[simp] theorem execFirmwareData_canonical (offset : Nat) (data : List Byte) (hs : s.canonical = true) :
    EndsCanonical (execFirmwareData offset data s) := by
  unfold execFirmwareData
  exact endsCanonical_whenAwake (by grind [State.pldm_canonical, State.canonical_mk, State.canonical_tables, Mem.splice_wf, Mem.ofList_wf]) hs

@[simp] theorem execTransferComplete_canonical (hs : s.canonical = true) : EndsCanonical (execTransferComplete s) := by
  unfold execTransferComplete
  exact endsCanonical_whenAwake (by grind [State.pldm_canonical, State.canonical_mk, State.canonical_tables]) hs

@[simp] theorem execVerifyComplete_canonical (hs : s.canonical = true) : EndsCanonical (execVerifyComplete s) := by
  unfold execVerifyComplete
  exact endsCanonical_whenAwake (by grind [State.log_canonical, State.pldm_canonical, State.endUpdate_canonical, State.canonical_mk,
    State.canonical_tables]) hs

@[simp] theorem execActivateFirmware_canonical (hs : s.canonical = true) : EndsCanonical (execActivateFirmware s) := by
  unfold execActivateFirmware
  exact endsCanonical_whenAwake (by grind [State.pldm_canonical, State.endUpdate_canonical, State.emit_canonical, State.canonical_mk,
    State.canonical_tables]) hs

@[simp] theorem execVrandReseed_canonical (core : Nat) (hs : s.canonical = true) : EndsCanonical (execVrandReseed core s) := by
  unfold execVrandReseed
  exact endsCanonical_onUnit (by grind [State.modCore_canonical, State.tick_canonical])

@[simp] theorem execCoreEntropyFail_canonical (core : Nat) (hs : s.canonical = true) : EndsCanonical (execCoreEntropyFail core s) := by
  unfold execCoreEntropyFail
  exact endsCanonical_onUnit (by grind [State.modCore_canonical, State.raise_canonical, State.canonical_mk, State.canonical_tables])

@[simp] theorem execCoreEntropyRecover_canonical (core : Nat) (hs : s.canonical = true) : EndsCanonical (execCoreEntropyRecover core s) := by
  unfold execCoreEntropyRecover
  exact endsCanonical_onUnit (by grind [State.modCore_canonical, State.canonical_mk, State.canonical_tables])

end

/-- No command leaves the canonical form. -/
theorem exec_canonical (i : Instr) {s : State} (hs : s.canonical = true) : EndsCanonical (exec i s) := by
  cases i
  case bridle | stream | drain | nop | rep | br | jmp | wait | swapBundle | sset | salu | sali | sld | sst | vld | vst | pld | seta | geta |
      setc | getc | rdx | clrf | tdef | tspn | tcopy | tinv | send | recv | vadd | vsub | vmul | vfma | vdiv | vsqrt | vmin | vmax | vcmp |
      vsel | vbcs | vred | vcvt | vfun | vrand | vupd =>
    exact endsCanonical_issueAt _ _ hs
  all_goals simp [exec, hs]

end Sys2Proof.Machine

open Sys2Proof Sys2Proof.Machine

/-- Settles O6: every operation of the model keeps the canonical form, and so does every command's row. -/
theorem tablesStayCanonical : Obligations.TablesStayCanonical := by
  unfold Obligations.TablesStayCanonical step
  intro s t hs h
  cases hp : s.pending with
  | nil =>
    rw [hp] at h
    cases h
    exact hs
  | cons c rest =>
    rw [hp] at h
    exact exec_canonical c (s := { s with pending := rest }) (by simp [hs]) t h
end

section
open Sys2Proof Sys2Proof.Machine

/-- Settles O5: the tables list nothing and nothing is powered. -/
theorem resetMeetsTheInvariants : Obligations.ResetMeetsTheInvariants := ⟨rfl, rfl⟩
end

section
/-! PROOFS. What every row keeps (O1, O3, O4, O7, O8): the queue, what is one-time,
    and the power order; that no row of a well-formed command stops. -/

namespace Sys2Proof.Machine

/-- Whatever next state a command ends in has the queue, the fuses, and power, pins and stage of `s`. -/
def KeepsAll (s : State) (r : Res) : Prop := ∀ t, r = .next t → t.pending = s.pending ∧ t.fuses = s.fuses ∧ t.su.power = s.su.power

theorem keepsAll_next {s t : State} (h : t.pending = s.pending ∧ t.fuses = s.fuses ∧ t.su.power = s.su.power) : KeepsAll s (.next t) :=
  fun _ ht => by cases ht; exact h

theorem keepsAll_onUnit {s t : State} {ok : Bool} (h : t.pending = s.pending ∧ t.fuses = s.fuses ∧ t.su.power = s.su.power) :
    KeepsAll s (onUnit ok t) := fun _ hu => by
  obtain ⟨-, rfl⟩ := onUnit_eq_next.mp hu; exact h

theorem keepsAll_hostCommand {o : RingId} {op : Nat} {s : State} {f : CmdRef → BitVec 512 → State → State}
    (hf : ∀ ref c u, (f ref c u).pending = u.pending ∧ (f ref c u).fuses = u.fuses ∧ (f ref c u).su.power = u.su.power) :
    KeepsAll s (hostCommand o op s f) := fun _ => hostCommand_keeps hf

theorem keepsAll_whenAwake {s t : State} (h : t.pending = s.pending ∧ t.fuses = s.fuses ∧ t.su.power = s.su.power) :
    KeepsAll s (s.whenAwake t) := keepsAll_next (by split <;> simp [h])

theorem keepsAll_ideKm {s : State} {fn code : Nat} {ok : Bool} {f : State → State}
    (hf : ∀ u, (f u).pending = u.pending ∧ (f u).fuses = u.fuses ∧ (f u).su.power = u.su.power) : KeepsAll s (s.ideKm fn code ok f) :=
  keepsAll_onUnit (by (repeat' split) <;> simp [hf])

theorem keepsAll_ownerRequest {s : State} {code : Nat} {ok : Bool} {f : State → State}
    (hf : ∀ u, (f u).pending = u.pending ∧ (f u).fuses = u.fuses ∧ (f u).su.power = u.su.power) : KeepsAll s (s.ownerRequest code ok f) :=
  keepsAll_next (by (repeat' split) <;> simp [hf])

@[simp] theorem keepsAll_issueAt (s : State) (k : Nat) (has : Bundle → Bool) : KeepsAll s (issueAt k has s) := fun _ => issueAt_keeps

@[simp] theorem State.arrayDone_keeps (s : State) (core bundle : Nat) (bad : W16) :
    (s.arrayDone core bundle bad).pending = s.pending ∧ (s.arrayDone core bundle bad).fuses = s.fuses
      ∧ (s.arrayDone core bundle bad).su.power = s.su.power := by
  unfold State.arrayDone
  split <;> simp

@[simp] theorem State.setEid_keeps (s : State) (p : MctpPath) (eid : Byte) :
    (s.setEid p eid).pending = s.pending ∧ (s.setEid p eid).fuses = s.fuses ∧ (s.setEid p eid).su.power = s.su.power := by
  unfold State.setEid
  split <;> simp

@[simp] theorem State.dropBatcher_keeps (s : State) (part : Nat) :
    (s.dropBatcher part).pending = s.pending ∧ (s.dropBatcher part).fuses = s.fuses ∧ (s.dropBatcher part).su.power = s.su.power :=
  State.modCores_keeps _ _ _

@[simp] theorem State.writeSegs_keeps (s : State) (fn : Nat) (segs : List (W64 × W64)) (l : List Byte) :
    (s.writeSegs fn segs l).pending = s.pending ∧ (s.writeSegs fn segs l).fuses = s.fuses ∧ (s.writeSegs fn segs l).su.power = s.su.power := by
  induction segs generalizing s l with
  | nil => simp [State.writeSegs]
  | cons e r ih =>
    simp only [State.writeSegs]
    split <;> simp [ih]

theorem State.postUnit_keeps {s t : State} {part : Nat} {p : TileData} (h : s.postUnit part p = .took t) :
    t.pending = s.pending ∧ t.fuses = s.fuses ∧ t.su.power = s.su.power := by
  obtain ⟨d, u, h⟩ | ⟨dst, l, h⟩ | ⟨q, rfl⟩ := State.postUnit_took h
  · exact State.contribute_keeps _ _ _ _ _ h
  · exact State.trySend_keeps _ _ _ _ _ _ _ h
  · simp

section
variable {s : State}

@[simp] theorem execInputRangeLow_keepsAll (cv : W16) : KeepsAll s (execInputRangeLow cv s) := by
  unfold execInputRangeLow
  exact keepsAll_next (by (repeat' split) <;> simp)

@[simp] theorem execBridleStart_keepsAll (core arr : Nat) : KeepsAll s (execBridleStart core arr s) := by
  unfold execBridleStart
  refine keepsAll_onUnit ?_
  dsimp only
  (repeat' split) <;> simp

@[simp] theorem execBridleComplete_keepsAll (core arr : Nat) : KeepsAll s (execBridleComplete core arr s) := by
  unfold execBridleComplete
  refine keepsAll_onUnit ?_
  dsimp only
  (repeat' split) <;> simp

@[simp] theorem execStreamStart_keepsAll (core arr : Nat) : KeepsAll s (execStreamStart core arr s) := by
  unfold execStreamStart
  refine keepsAll_onUnit ?_
  dsimp only
  (repeat' split) <;> simp

@[simp] theorem execStreamComplete_keepsAll (core arr : Nat) : KeepsAll s (execStreamComplete core arr s) := by
  unfold execStreamComplete
  refine keepsAll_onUnit ?_
  dsimp only
  (repeat' split) <;> simp

@[simp] theorem execProductsLanded_keepsAll (core arr : Nat) : KeepsAll s (execProductsLanded core arr s) := by
  unfold execProductsLanded
  refine keepsAll_onUnit ?_
  dsimp only
  (repeat' split) <;> simp

@[simp] theorem execDrainComplete_keepsAll (core arr : Nat) : KeepsAll s (execDrainComplete core arr s) := by
  unfold execDrainComplete
  refine keepsAll_onUnit ?_
  dsimp only
  (repeat' split) <;> simp

@[simp] theorem execSeqOpen_keepsAll (cmd : ReadCmd) : KeepsAll s (execSeqOpen cmd s) := by
  unfold execSeqOpen
  exact keepsAll_hostCommand fun ref c u => by simp

@[simp] theorem execSeqClose_keepsAll (o : RingId) : KeepsAll s (execSeqClose o s) := by
  unfold execSeqClose
  exact keepsAll_hostCommand fun ref c u => by simp

@[simp] theorem execSequenceScrubComplete_keepsAll (slot : Nat) : KeepsAll s (execSequenceScrubComplete slot s) := by
  unfold execSequenceScrubComplete
  exact keepsAll_onUnit (by (repeat' split) <;> simp)

@[simp] theorem execMap_keepsAll (o : RingId) : KeepsAll s (execMap o s) := by
  unfold execMap
  exact keepsAll_hostCommand fun ref c u => by simp

@[simp] theorem execUnmap_keepsAll (o : RingId) : KeepsAll s (execUnmap o s) := by
  unfold execUnmap
  exact keepsAll_hostCommand fun ref c u => by simp

@[simp] theorem execMode_keepsAll (cmd : ReadCmd) : KeepsAll s (execMode cmd s) := by
  unfold execMode
  exact keepsAll_hostCommand fun ref c u => by simp

@[simp] theorem execHint_keepsAll (cmd : ReadCmd) : KeepsAll s (execHint cmd s) := by
  unfold execHint
  exact keepsAll_hostCommand fun ref c u => by simp

@[simp] theorem execScrub_keepsAll (o : RingId) : KeepsAll s (execScrub o s) := by
  unfold execScrub
  exact keepsAll_hostCommand fun ref c u => by simp

@[simp] theorem execRehome_keepsAll (o : RingId) : KeepsAll s (execRehome o s) := by
  unfold execRehome
  exact keepsAll_hostCommand fun ref c u => by simp

@[simp] theorem execSpanWriteAccept_keepsAll (core k : Nat) : KeepsAll s (execSpanWriteAccept core k s) := by
  unfold execSpanWriteAccept
  exact keepsAll_onUnit (by (repeat' split) <;> simp)

@[simp] theorem execSpanReadComplete_keepsAll (core k : Nat) (cw : CodeErrs) : KeepsAll s (execSpanReadComplete core k cw s) := by
  unfold execSpanReadComplete
  exact keepsAll_onUnit (by (repeat' split) <;> simp)

@[simp] theorem execMigrationComplete_keepsAll (part slot : Nat) (cw : CodeErrs) : KeepsAll s (execMigrationComplete part slot cw s) := by
  unfold execMigrationComplete
  exact keepsAll_onUnit (by (repeat' split) <;> simp)

@[simp] theorem execLetSinkTimeout_keepsAll (part slot : Nat) : KeepsAll s (execLetSinkTimeout part slot s) := by
  unfold execLetSinkTimeout
  exact keepsAll_onUnit (by simp)

@[simp] theorem execUseCountHalving_keepsAll (part : Nat) : KeepsAll s (execUseCountHalving part s) := by
  unfold execUseCountHalving
  exact keepsAll_onUnit (by (repeat' split) <;> simp)

@[simp] theorem execPatrol_keepsAll (ev : PatrolEvent) : KeepsAll s (execPatrol ev s) := by
  unfold execPatrol
  exact keepsAll_next (by (repeat' split) <;> simp)

@[simp] theorem execImbalanceRaise_keepsAll (stack : Nat) (single : Bool) : KeepsAll s (execImbalanceRaise stack single s) := by
  unfold execImbalanceRaise
  exact keepsAll_onUnit (by (repeat' split) <;> simp)

@[simp] theorem execImbalanceClear_keepsAll : KeepsAll s (execImbalanceClear s) := by
  unfold execImbalanceClear
  exact keepsAll_next (by (repeat' split) <;> simp)

@[simp] theorem execStackThrottle_keepsAll (stack : Nat) : KeepsAll s (execStackThrottle stack s) := by
  unfold execStackThrottle
  exact keepsAll_onUnit (by (repeat' split) <;> simp)

@[simp] theorem execStackThrottleEnd_keepsAll (stack : Nat) : KeepsAll s (execStackThrottleEnd stack s) := by
  unfold execStackThrottleEnd
  exact keepsAll_onUnit (by simp)

@[simp] theorem execLoad_keepsAll (o : RingId) : KeepsAll s (execLoad o s) := by
  unfold execLoad
  exact keepsAll_hostCommand fun ref c u => by simp

@[simp] theorem execSpoolReadComplete_keepsAll (read : SpoolRead) : KeepsAll s (execSpoolReadComplete read s) := by
  unfold execSpoolReadComplete
  refine keepsAll_onUnit ?_
  dsimp only
  (repeat' split) <;> simp

@[simp] theorem execBroadcastEnd_keepsAll (part : Nat) : KeepsAll s (execBroadcastEnd part s) := by
  unfold execBroadcastEnd
  exact keepsAll_onUnit (by simp)

@[simp] theorem execStopNow_keepsAll (o : RingId) : KeepsAll s (execStopNow o s) := by
  unfold execStopNow
  exact keepsAll_hostCommand fun ref c u => by simp

@[simp] theorem execStopMarkHalt_keepsAll (core : Nat) : KeepsAll s (execStopMarkHalt core s) := by
  unfold execStopMarkHalt
  exact keepsAll_onUnit (by simp)

@[simp] theorem execSnapshotWrite_keepsAll (part : Nat) : KeepsAll s (execSnapshotWrite part s) := by
  unfold execSnapshotWrite
  exact keepsAll_onUnit (by grind [State.spanWrite_keeps, State.modPart_keeps, State.snapDone_keeps, State.take_keeps])

@[simp] theorem execAbort_keepsAll (o : RingId) : KeepsAll s (execAbort o s) := by
  unfold execAbort
  exact keepsAll_hostCommand fun ref c u => by simp

@[simp] theorem execMoor_keepsAll (cmd : ReadCmd) : KeepsAll s (execMoor cmd s) := by
  unfold execMoor
  exact keepsAll_hostCommand fun ref c u => by simp

@[simp] theorem execMoorComplete_keepsAll (g : Nat) : KeepsAll s (execMoorComplete g s) := by
  unfold execMoorComplete
  exact keepsAll_onUnit (by simp)

@[simp] theorem execSwap_keepsAll (cmd : ReadCmd) : KeepsAll s (execSwap cmd s) := by
  unfold execSwap
  exact keepsAll_hostCommand fun ref c u => by simp

@[simp] theorem execSwapComplete_keepsAll (g : Nat) : KeepsAll s (execSwapComplete g s) := by
  unfold execSwapComplete
  refine keepsAll_onUnit ?_
  dsimp only
  (repeat' split) <;> simp

@[simp] theorem execEvict_keepsAll (o : RingId) : KeepsAll s (execEvict o s) := by
  unfold execEvict
  exact keepsAll_hostCommand fun ref c u => by simp

@[simp] theorem execRevoke_keepsAll (o : RingId) : KeepsAll s (execRevoke o s) := by
  unfold execRevoke
  exact keepsAll_hostCommand fun ref c u => by simp

@[simp] theorem execBaseSet_keepsAll (o : RingId) : KeepsAll s (execBaseSet o s) := by
  unfold execBaseSet
  exact keepsAll_hostCommand fun ref c u => by simp

@[simp] theorem execRetiringRelease_keepsAll (g : Nat) : KeepsAll s (execRetiringRelease g s) := by
  unfold execRetiringRelease
  exact keepsAll_onUnit (by simp)

@[simp] theorem execGondolaReleaseComplete_keepsAll (g : Nat) : KeepsAll s (execGondolaReleaseComplete g s) := by
  unfold execGondolaReleaseComplete
  exact keepsAll_onUnit (by (repeat' split) <;> simp)

@[simp] theorem execReelOpen_keepsAll (o : RingId) : KeepsAll s (execReelOpen o s) := by
  unfold execReelOpen
  exact keepsAll_hostCommand fun ref c u => by simp

@[simp] theorem execReelClose_keepsAll (o : RingId) : KeepsAll s (execReelClose o s) := by
  unfold execReelClose
  exact keepsAll_hostCommand fun ref c u => by simp

@[simp] theorem execReelAppend_keepsAll (core k : Nat) : KeepsAll s (execReelAppend core k s) := by
  unfold execReelAppend
  exact keepsAll_onUnit (by (repeat' split) <;> simp)

@[simp] theorem execFeed_keepsAll (o : RingId) : KeepsAll s (execFeed o s) := by
  unfold execFeed
  exact keepsAll_hostCommand fun ref c u => by simp

@[simp] theorem execBatchCfg_keepsAll (o : RingId) : KeepsAll s (execBatchCfg o s) := by
  unfold execBatchCfg
  exact keepsAll_hostCommand fun ref c u => by simp

@[simp] theorem execWindowTimeExpiry_keepsAll (part : Nat) : KeepsAll s (execWindowTimeExpiry part s) := by
  unfold execWindowTimeExpiry
  exact keepsAll_onUnit (by (repeat' split) <;> simp)

@[simp] theorem execStepStart_keepsAll (part : Nat) : KeepsAll s (execStepStart part s) := by
  unfold execStepStart
  exact keepsAll_onUnit (by (repeat' split) <;> simp)

@[simp] theorem execStepDoneWrite_keepsAll (core k : Nat) : KeepsAll s (execStepDoneWrite core k s) := by
  unfold execStepDoneWrite
  exact keepsAll_onUnit (by (repeat' split) <;> simp)

@[simp] theorem execHostIn_keepsAll (o : RingId) : KeepsAll s (execHostIn o s) := by
  unfold execHostIn
  exact keepsAll_hostCommand fun ref c u => by simp

@[simp] theorem execHostOut_keepsAll (o : RingId) : KeepsAll s (execHostOut o s) := by
  unfold execHostOut
  exact keepsAll_hostCommand fun ref c u => by simp

@[simp] theorem execPerstAssert_keepsAll : KeepsAll s (execPerstAssert s) := by
  unfold execPerstAssert
  exact keepsAll_next (by simp)

@[simp] theorem execPerstRelease_keepsAll : KeepsAll s (execPerstRelease s) := by
  unfold execPerstRelease
  exact keepsAll_next (by simp)

@[simp] theorem execConfigRequest_keepsAll (fn : Nat) (op : ConfigOp) : KeepsAll s (execConfigRequest fn op s) := by
  unfold execConfigRequest
  exact keepsAll_onUnit (by (repeat' split) <;> simp)

@[simp] theorem execHostLinkActive_keepsAll (speed : BitVec 4) (width : BitVec 3) (flit : Bool) :
    KeepsAll s (execHostLinkActive speed width flit s) := by
  unfold execHostLinkActive
  exact keepsAll_next (by (repeat' split) <;> simp)

@[simp] theorem execHostLinkDown_keepsAll : KeepsAll s (execHostLinkDown s) := by
  unfold execHostLinkDown
  exact keepsAll_next (by simp)

@[simp] theorem execFunctionLevelReset_keepsAll (fn : Nat) : KeepsAll s (execFunctionLevelReset fn s) := by
  unfold execFunctionLevelReset
  exact keepsAll_onUnit (by (repeat' split) <;> simp)

@[simp] theorem execBusMasterDisable_keepsAll (fn : Nat) : KeepsAll s (execBusMasterDisable fn s) := by
  unfold execBusMasterDisable
  exact keepsAll_onUnit (by (repeat' split) <;> simp)

@[simp] theorem execBusMasterEnable_keepsAll (fn : Nat) : KeepsAll s (execBusMasterEnable fn s) := by
  unfold execBusMasterEnable
  exact keepsAll_onUnit (by (repeat' split) <;> simp)

@[simp] theorem execMsixUnmask_keepsAll (fn vec : Nat) : KeepsAll s (execMsixUnmask fn vec s) := by
  unfold execMsixUnmask
  exact keepsAll_onUnit (by (repeat' split) <;> simp)

@[simp] theorem execHifDbCmd_keepsAll (o : RingId) (value : W32) : KeepsAll s (execHifDbCmd o value s) := by
  unfold execHifDbCmd
  exact keepsAll_onUnit (by simp)

@[simp] theorem execHifDbCpl_keepsAll (o : RingId) (value : W32) : KeepsAll s (execHifDbCpl o value s) := by
  unfold execHifDbCpl
  exact keepsAll_onUnit (by simp)

@[simp] theorem execRingEnable_keepsAll (fn : Nat) (value : W32) : KeepsAll s (execRingEnable fn value s) := by
  unfold execRingEnable
  exact keepsAll_onUnit (by (repeat' split) <;> simp)

@[simp] theorem execRingDisable_keepsAll (fn : Nat) (value : W32) : KeepsAll s (execRingDisable fn value s) := by
  unfold execRingDisable
  exact keepsAll_onUnit (by (repeat' split) <;> simp)

@[simp] theorem execCommandFetch_keepsAll (o : RingId) (cmd : BitVec 512) : KeepsAll s (execCommandFetch o cmd s) := by
  unfold execCommandFetch
  exact keepsAll_onUnit (by (repeat' split) <;> simp)

@[simp] theorem execCoalesceTimerExpiry_keepsAll (o : RingId) : KeepsAll s (execCoalesceTimerExpiry o s) := by
  unfold execCoalesceTimerExpiry
  exact keepsAll_onUnit (by simp)

@[simp] theorem execPortPeerless_keepsAll (port : Nat) : KeepsAll s (execPortPeerless port s) := by
  unfold execPortPeerless
  exact keepsAll_onUnit (by (repeat' split) <;> simp)

@[simp] theorem execSignalDetect_keepsAll (port : Nat) : KeepsAll s (execSignalDetect port s) := by
  unfold execSignalDetect
  exact keepsAll_onUnit (by (repeat' split) <;> simp)

@[simp] theorem execPortTrained_keepsAll (port : Nat) (found : List LaneIn) (peer : W32) : KeepsAll s (execPortTrained port found peer s) := by
  unfold execPortTrained
  exact keepsAll_onUnit (by (repeat' split) <;> simp)

@[simp] theorem execIdentityMessage_keepsAll (port kind : Nat) (body : List Byte) : KeepsAll s (execIdentityMessage port kind body s) := by
  unfold execIdentityMessage
  refine keepsAll_onUnit ?_
  split
  · cases ht : s.takeIdentity port kind body with
    | none => simp
    | some t => simpa using State.takeIdentity_keeps _ _ _ _ _ ht
  · simp

@[simp] theorem execAuthTimeout_keepsAll (port : Nat) : KeepsAll s (execAuthTimeout port s) := by
  unfold execAuthTimeout
  exact keepsAll_onUnit (by (repeat' split) <;> simp)

@[simp] theorem execFrameReceive_keepsAll (port : Nat) (rx : FrameRx) : KeepsAll s (execFrameReceive port rx s) := by
  unfold execFrameReceive
  refine keepsAll_onUnit ?_
  dsimp only
  (repeat' split) <;> simp

@[simp] theorem execRetryTimeout_keepsAll (port : Nat) : KeepsAll s (execRetryTimeout port s) := by
  unfold execRetryTimeout
  exact keepsAll_onUnit (by simp)

@[simp] theorem execIdleFrameTimer_keepsAll (port : Nat) : KeepsAll s (execIdleFrameTimer port s) := by
  unfold execIdleFrameTimer
  exact keepsAll_onUnit (by (repeat' split) <;> simp)

@[simp] theorem execLinkWatchdogExpiry_keepsAll (port : Nat) : KeepsAll s (execLinkWatchdogExpiry port s) := by
  unfold execLinkWatchdogExpiry
  exact keepsAll_onUnit (by (repeat' split) <;> simp)

@[simp] theorem execCreditMessage_keepsAll (port cls freed : Nat) : KeepsAll s (execCreditMessage port cls freed s) := by
  unfold execCreditMessage
  exact keepsAll_onUnit (by (repeat' split) <;> simp)

@[simp] theorem execKeyRenewal_keepsAll (port : Nat) : KeepsAll s (execKeyRenewal port s) := by
  unfold execKeyRenewal
  refine keepsAll_onUnit ?_
  dsimp only
  (repeat' split) <;> simp

@[simp] theorem execRekeyMessage_keepsAll (port : Nat) (share : List Byte) (switchCount : W64) :
    KeepsAll s (execRekeyMessage port share switchCount s) := by
  unfold execRekeyMessage
  refine keepsAll_onUnit ?_
  dsimp only
  (repeat' split) <;> simp

@[simp] theorem execRefusalMessage_keepsAll (port : Nat) (status : W16) (bucket : Nat) (step : W32) (refused : RefusedTo) :
    KeepsAll s (execRefusalMessage port status bucket step refused s) := by
  unfold execRefusalMessage
  exact keepsAll_onUnit (by (repeat' split) <;> simp)

@[simp] theorem execCreditGrant_keepsAll (src dst : Nat) : KeepsAll s (execCreditGrant src dst s) := by
  unfold execCreditGrant
  exact keepsAll_onUnit (by (repeat' split) <;> simp)

@[simp] theorem execMessageArrive_keepsAll (src dst chan : Nat) : KeepsAll s (execMessageArrive src dst chan s) := by
  unfold execMessageArrive
  exact keepsAll_onUnit (by (repeat' split) <;> simp)

@[simp] theorem execOperationComplete_keepsAll (core : Nat) (op : OpEnd) : KeepsAll s (execOperationComplete core op s) := by
  unfold execOperationComplete
  refine keepsAll_onUnit ?_
  dsimp only
  (repeat' split) <;> simp

@[simp] theorem execChunkReceive_keepsAll (port : Nat) (u : ChunkUnit) : KeepsAll s (execChunkReceive port u s) := by
  unfold execChunkReceive
  exact keepsAll_onUnit (by (repeat' split) <;> simp)

@[simp] theorem execSumSend_keepsAll (bucket : Nat) (step : W32) (chunk stage : Nat) : KeepsAll s (execSumSend bucket step chunk stage s) := by
  unfold execSumSend
  refine keepsAll_next ?_
  split
  · split
    · split
      · simp
      · next t ht => simp [State.passAll_keeps _ _ _ _ _ _ _ _ ht]
    · split
      · split <;> simp
      · split
        · simp
        · next t ht => simp [State.trySend_keeps _ _ _ _ _ _ _ ht]
  · simp

@[simp] theorem execChunkDeliver_keepsAll (bucket : Nat) (step : W32) (chunk : Nat) : KeepsAll s (execChunkDeliver bucket step chunk s) := by
  unfold execChunkDeliver
  refine keepsAll_next ?_
  (repeat' split) <;> try simp
  next t ht => exact State.linkDeliver_keeps _ _ _ _ _ _ _ ht

@[simp] theorem execTransferDeliver_keepsAll (t : TransferUnit) : KeepsAll s (execTransferDeliver t s) := by
  unfold execTransferDeliver
  refine keepsAll_next ?_
  dsimp only
  (repeat' split) <;> simp
  · next t ht => exact State.trySend_keeps _ _ _ _ _ _ _ ht
  · next t ht => exact State.linkDeliver_keeps _ _ _ _ _ _ _ ht

@[simp] theorem execPostWrite_keepsAll (core k : Nat) : KeepsAll s (execPostWrite core k s) := by
  unfold execPostWrite
  refine keepsAll_onUnit ?_
  (repeat' split) <;> simp
  next t ht => exact State.postUnit_keeps ht

@[simp] theorem execBucketDefRetire_keepsAll (bucket : Nat) : KeepsAll s (execBucketDefRetire bucket s) := by
  unfold execBucketDefRetire
  exact keepsAll_onUnit (by (repeat' split) <;> simp)

@[simp] theorem execBktDef_keepsAll (o : RingId) : KeepsAll s (execBktDef o s) := by
  unfold execBktDef
  exact keepsAll_hostCommand fun ref c u => by simp

@[simp] theorem execBktDel_keepsAll (o : RingId) : KeepsAll s (execBktDel o s) := by
  unfold execBktDel
  exact keepsAll_hostCommand fun ref c u => by simp

@[simp] theorem execBktSubst_keepsAll (o : RingId) : KeepsAll s (execBktSubst o s) := by
  unfold execBktSubst
  exact keepsAll_hostCommand fun ref c u => by simp

@[simp] theorem execPostCfg_keepsAll (o : RingId) : KeepsAll s (execPostCfg o s) := by
  unfold execPostCfg
  exact keepsAll_hostCommand fun ref c u => by simp

@[simp] theorem execDigestRead_keepsAll (o : RingId) : KeepsAll s (execDigestRead o s) := by
  unfold execDigestRead
  exact keepsAll_hostCommand fun ref c u => by simp

@[simp] theorem execTrainCfg_keepsAll (o : RingId) : KeepsAll s (execTrainCfg o s) := by
  unfold execTrainCfg
  exact keepsAll_hostCommand fun ref c u => by simp

@[simp] theorem execStepRedo_keepsAll (o : RingId) : KeepsAll s (execStepRedo o s) := by
  unfold execStepRedo
  refine keepsAll_hostCommand fun ref c u => State.checked_keeps _ _ _ _ fun v => ?_
  split <;> simp

@[simp] theorem execStepRevert_keepsAll (o : RingId) : KeepsAll s (execStepRevert o s) := by
  unfold execStepRevert
  refine keepsAll_hostCommand fun ref c u => State.checked_keeps _ _ _ _ fun v => ?_
  split
  · simp
  · dsimp only
    split <;> simp

@[simp] theorem execTandemCfg_keepsAll (o : RingId) : KeepsAll s (execTandemCfg o s) := by
  unfold execTandemCfg
  refine keepsAll_hostCommand fun ref c u => State.checked_keeps _ _ _ _ fun v => ?_
  (repeat' split) <;> simp

@[simp] theorem execUpdateDoneMark_keepsAll (core k : Nat) : KeepsAll s (execUpdateDoneMark core k s) := by
  unfold execUpdateDoneMark
  exact keepsAll_onUnit (by (repeat' split) <;> simp)

@[simp] theorem execTandemCopyReceive_keepsAll (part : Nat) (pos tag version : W32) (index : Nat) (tile : TileData) :
    KeepsAll s (execTandemCopyReceive part pos tag version index tile s) := by
  unfold execTandemCopyReceive
  refine keepsAll_onUnit ?_
  dsimp only
  (repeat' split) <;> simp

@[simp] theorem execTandemAcknowledge_keepsAll (part : Nat) (pos version : W32) : KeepsAll s (execTandemAcknowledge part pos version s) := by
  unfold execTandemAcknowledge
  refine keepsAll_onUnit ?_
  dsimp only
  (repeat' split) <;> simp

@[simp] theorem execTandemRestore_keepsAll (o : RingId) : KeepsAll s (execTandemRestore o s) := by
  unfold execTandemRestore
  exact keepsAll_hostCommand fun ref c u => by simp

@[simp] theorem execTandemRestoreComplete_keepsAll (part : Nat) (tiles : Option (List TileData)) :
    KeepsAll s (execTandemRestoreComplete part tiles s) := by
  unfold execTandemRestoreComplete
  exact keepsAll_onUnit (by (repeat' split) <;> simp)

@[simp] theorem execReshard_keepsAll (cmd : ReadCmd) : KeepsAll s (execReshard cmd s) := by
  unfold execReshard
  exact keepsAll_hostCommand fun ref c u => by simp

@[simp] theorem execReserveSet_keepsAll (o : RingId) : KeepsAll s (execReserveSet o s) := by
  unfold execReserveSet
  exact keepsAll_hostCommand fun ref c u => by simp

@[simp] theorem execWinchSend_keepsAll (part : Nat) : KeepsAll s (execWinchSend part s) := by
  unfold execWinchSend
  refine keepsAll_onUnit ?_
  split
  · simp
  · next x r _ =>
    split
    · simp
    · next src dst pos _ =>
      dsimp only
      split
      · simp
      · next d _ =>
        split
        · generalize hp : State.placeTile _ _ _ _ _ = p
          match p, hp with
          | none, _ => simp
          | some (t, q), hp => simp [State.placeTile_keeps _ _ _ _ _ _ _ hp]
        · split
          · simp
          · next t ht => simp [State.sendWinch_keeps _ _ _ _ _ _ ht]

@[simp] theorem execWinchTileArrive_keepsAll (w : WinchTile) : KeepsAll s (execWinchTileArrive w s) := by
  unfold execWinchTileArrive
  refine keepsAll_onUnit ?_
  dsimp only
  (repeat' split) <;> simp
  all_goals next ht _ => simpa using State.placeTile_keeps _ _ _ _ _ _ _ ht

@[simp] theorem execWinchResend_keepsAll (part : Nat) : KeepsAll s (execWinchResend part s) := by
  unfold execWinchResend
  refine keepsAll_onUnit ?_
  (repeat' split) <;> simp
  · next t q ht => exact State.placeTile_keeps _ _ _ _ _ _ _ ht
  · next t ht => exact State.sendWinch_keeps _ _ _ _ _ _ ht

@[simp] theorem execReshardComplete_keepsAll (part : Nat) : KeepsAll s (execReshardComplete part s) := by
  unfold execReshardComplete
  refine keepsAll_onUnit ?_
  dsimp only
  (repeat' split) <;> simp

@[simp] theorem execPartCreate_keepsAll (o : RingId) : KeepsAll s (execPartCreate o s) := by
  unfold execPartCreate
  exact keepsAll_hostCommand fun ref c u => by simp

@[simp] theorem execPartResize_keepsAll (o : RingId) : KeepsAll s (execPartResize o s) := by
  unfold execPartResize
  exact keepsAll_hostCommand fun ref c u => by simp

@[simp] theorem execPartDelete_keepsAll (o : RingId) : KeepsAll s (execPartDelete o s) := by
  unfold execPartDelete
  exact keepsAll_hostCommand fun ref c u => by simp

@[simp] theorem execScrubComplete_keepsAll (job : Nat) : KeepsAll s (execScrubComplete job s) := by
  unfold execScrubComplete
  exact keepsAll_next (by (repeat' split) <;> simp)

@[simp] theorem execFreeze_keepsAll (o : RingId) : KeepsAll s (execFreeze o s) := by
  unfold execFreeze
  exact keepsAll_hostCommand fun ref c u => by simp

@[simp] theorem execFreezeComplete_keepsAll (part : Nat) : KeepsAll s (execFreezeComplete part s) := by
  unfold execFreezeComplete
  exact keepsAll_onUnit (by (repeat' split) <;> simp)

@[simp] theorem execThaw_keepsAll (o : RingId) : KeepsAll s (execThaw o s) := by
  unfold execThaw
  exact keepsAll_hostCommand fun ref c u => by simp

@[simp] theorem execSave_keepsAll (o : RingId) (segs : List (W64 × W64)) : KeepsAll s (execSave o segs s) := by
  unfold execSave
  split
  · exact keepsAll_next (by simp)
  · exact keepsAll_hostCommand fun ref c u => by simp

@[simp] theorem execSaveComplete_keepsAll (part : Nat) (result : ImageWritten) : KeepsAll s (execSaveComplete part result s) := by
  unfold execSaveComplete
  exact keepsAll_onUnit (by (repeat' split) <;> simp)

@[simp] theorem execRestore_keepsAll (o : RingId) : KeepsAll s (execRestore o s) := by
  unfold execRestore
  exact keepsAll_hostCommand fun ref c u => by simp

@[simp] theorem execRestoreComplete_keepsAll (part : Nat) (img : Option Image) : KeepsAll s (execRestoreComplete part img s) := by
  unfold execRestoreComplete
  refine keepsAll_onUnit ?_
  dsimp only
  (repeat' split) <;> simp

@[simp] theorem execBind_keepsAll (o : RingId) : KeepsAll s (execBind o s) := by
  unfold execBind
  exact keepsAll_hostCommand fun ref c u => by simp

@[simp] theorem execUnbind_keepsAll (o : RingId) : KeepsAll s (execUnbind o s) := by
  unfold execUnbind
  exact keepsAll_hostCommand fun ref c u => by simp

@[simp] theorem execEnvCreate_keepsAll (o : RingId) : KeepsAll s (execEnvCreate o s) := by
  unfold execEnvCreate
  exact keepsAll_hostCommand fun ref c u => by simp

@[simp] theorem execEnvBind_keepsAll (o : RingId) : KeepsAll s (execEnvBind o s) := by
  unfold execEnvBind
  exact keepsAll_hostCommand fun ref c u => by simp

@[simp] theorem execEnvDestroy_keepsAll (o : RingId) : KeepsAll s (execEnvDestroy o s) := by
  unfold execEnvDestroy
  exact keepsAll_hostCommand fun ref c u => by simp

@[simp] theorem execImportTiles_keepsAll (o : RingId) : KeepsAll s (execImportTiles o s) := by
  unfold execImportTiles
  exact keepsAll_hostCommand fun ref c u => by simp

@[simp] theorem execLock_keepsAll (o : RingId) : KeepsAll s (execLock o s) := by
  unfold execLock
  exact keepsAll_hostCommand fun ref c u => by simp

@[simp] theorem execImageBind_keepsAll (o : RingId) : KeepsAll s (execImageBind o s) := by
  unfold execImageBind
  exact keepsAll_hostCommand fun ref c u => by simp

@[simp] theorem execAttest_keepsAll (o : RingId) : KeepsAll s (execAttest o s) := by
  unfold execAttest
  exact keepsAll_hostCommand fun ref c u => by simp

@[simp] theorem execHostMemoryAccessComplete_keepsAll (k : Nat) (result : HostReturn) : KeepsAll s (execHostMemoryAccessComplete k result s) := by
  unfold execHostMemoryAccessComplete
  exact keepsAll_next (by (repeat' split) <;> simp)

@[simp] theorem execReadingsWrite_keepsAll (part : Nat) (r : Readings) : KeepsAll s (execReadingsWrite part r s) := by
  unfold execReadingsWrite
  refine keepsAll_onUnit ?_
  dsimp only
  (repeat' split) <;> simp

@[simp] theorem execSecEntropyFail_keepsAll : KeepsAll s (execSecEntropyFail s) := by
  unfold execSecEntropyFail
  exact keepsAll_next (by (repeat' split) <;> simp)

@[simp] theorem execSecEntropyRecover_keepsAll : KeepsAll s (execSecEntropyRecover s) := by
  unfold execSecEntropyRecover
  exact keepsAll_next (by (repeat' split) <;> simp)

@[simp] theorem execSetCertificate_keepsAll (slot : Nat) (chain : List Byte) : KeepsAll s (execSetCertificate slot chain s) := by
  unfold execSetCertificate
  exact keepsAll_ownerRequest fun u => by simp

@[simp] theorem execSpdmRequest_keepsAll (req : SpdmReq) : KeepsAll s (execSpdmRequest req s) := by
  unfold execSpdmRequest
  exact keepsAll_next (by (repeat' split) <;> simp)

@[simp] theorem execQuery_keepsAll (fn : Nat) : KeepsAll s (execQuery fn s) := by
  unfold execQuery
  exact keepsAll_ideKm fun u => by simp

@[simp] theorem execKeyProg_keepsAll (key : StreamKey) : KeepsAll s (execKeyProg key s) := by
  unfold execKeyProg
  exact keepsAll_ideKm fun u => by simp

@[simp] theorem execKSetGo_keepsAll (fn : Nat) : KeepsAll s (execKSetGo fn s) := by
  unfold execKSetGo
  exact keepsAll_ideKm fun u => by simp

@[simp] theorem execKSetStop_keepsAll (fn : Nat) : KeepsAll s (execKSetStop fn s) := by
  unfold execKSetStop
  exact keepsAll_ideKm fun u => by simp

@[simp] theorem execIdeLeaveSecure_keepsAll (fn : Nat) : KeepsAll s (execIdeLeaveSecure fn s) := by
  unfold execIdeLeaveSecure
  exact keepsAll_onUnit (by simp)

@[simp] theorem execLadder_keepsAll (o : RingId) : KeepsAll s (execLadder o s) := by
  unfold execLadder
  exact keepsAll_hostCommand fun ref c u => by simp

@[simp] theorem execSelftest_keepsAll (o : RingId) : KeepsAll s (execSelftest o s) := by
  unfold execSelftest
  exact keepsAll_hostCommand fun ref c u => by simp

@[simp] theorem execSupplyStep_keepsAll (core : Nat) (up : Bool) : KeepsAll s (execSupplyStep core up s) := by
  unfold execSupplyStep
  exact keepsAll_onUnit (by (repeat' split) <;> simp)

@[simp] theorem execCoreHot_keepsAll (core : Nat) (temp : Byte) : KeepsAll s (execCoreHot core temp s) := by
  unfold execCoreHot
  exact keepsAll_onUnit (by (repeat' split) <;> simp)

@[simp] theorem execCeilingStep_keepsAll (core : Nat) (temp : Byte) : KeepsAll s (execCeilingStep core temp s) := by
  unfold execCeilingStep
  exact keepsAll_onUnit (by (repeat' split) <;> simp)

@[simp] theorem execCoreHold_keepsAll (core : Nat) (temp : Byte) : KeepsAll s (execCoreHold core temp s) := by
  unfold execCoreHold
  exact keepsAll_onUnit (by simp)

@[simp] theorem execCoreHoldRelease_keepsAll (core : Nat) (temp : Byte) : KeepsAll s (execCoreHoldRelease core temp s) := by
  unfold execCoreHoldRelease
  exact keepsAll_onUnit (by (repeat' split) <;> simp)

@[simp] theorem execEngineGate_keepsAll (core eng : Nat) : KeepsAll s (execEngineGate core eng s) := by
  unfold execEngineGate
  exact keepsAll_onUnit (by (repeat' split) <;> simp)

@[simp] theorem execHbmCalibration_keepsAll (stack : Nat) : KeepsAll s (execHbmCalibration stack s) := by
  unfold execHbmCalibration
  exact keepsAll_onUnit (by simp)

@[simp] theorem execRegisterWrite_keepsAll (fn : Nat) (offset value : W32) : KeepsAll s (execRegisterWrite fn offset value s) := by
  unfold execRegisterWrite State.writeRingCfg
  (repeat' split)
  · exact fun _ h => by cases h
  · exact execRingEnable_keepsAll _ _
  · exact execRingDisable_keepsAll _ _
  · exact keepsAll_next (by simp)
  · exact keepsAll_next (by simp)
  · exact keepsAll_next (by simp)

@[simp] theorem execRecal_keepsAll (value : W32) : KeepsAll s (execRecal value s) := by
  unfold execRecal
  exact keepsAll_next (by (repeat' split) <;> simp)

@[simp] theorem execPortHold_keepsAll (value : W32) : KeepsAll s (execPortHold value s) := by
  unfold execPortHold
  exact keepsAll_next (by (repeat' split) <;> simp)

@[simp] theorem execPortUnhold_keepsAll (value : W32) : KeepsAll s (execPortUnhold value s) := by
  unfold execPortUnhold
  exact keepsAll_next (by (repeat' split) <;> simp)

@[simp] theorem execMgtPClr_keepsAll (value : W32) : KeepsAll s (execMgtPClr value s) := by
  unfold execMgtPClr
  exact keepsAll_next (by (repeat' split) <;> simp)

@[simp] theorem execMgtPCntLoRead_keepsAll : KeepsAll s (execMgtPCntLoRead s) := by
  unfold execMgtPCntLoRead
  exact keepsAll_next (by (repeat' split) <;> simp)

@[simp] theorem execMctpControl_keepsAll (path : MctpPath) (req : MctpReq) (eid : Byte) : KeepsAll s (execMctpControl path req eid s) := by
  unfold execMctpControl
  exact keepsAll_next (by (repeat' split) <;> simp)

@[simp] theorem execGetStartup_keepsAll : KeepsAll s (execGetStartup s) := by
  unfold execGetStartup
  exact keepsAll_whenAwake (by simp)

@[simp] theorem execMgmtLadder_keepsAll (body : W32) : KeepsAll s (execMgmtLadder body s) := by
  unfold execMgmtLadder
  exact keepsAll_whenAwake (by (repeat' split) <;> simp)

@[simp] theorem execMgmtSelftest_keepsAll (body : W32) : KeepsAll s (execMgmtSelftest body s) := by
  unfold execMgmtSelftest
  exact keepsAll_whenAwake (by (repeat' split) <;> simp)

@[simp] theorem execLogRead_keepsAll (first : W32) (count : Byte) : KeepsAll s (execLogRead first count s) := by
  unfold execLogRead
  exact keepsAll_whenAwake (by (repeat' split) <;> simp)

@[simp] theorem execCounterClear_keepsAll : KeepsAll s (execCounterClear s) := by
  unfold execCounterClear
  exact keepsAll_whenAwake (by simp)

@[simp] theorem execRegRead_keepsAll (offset : W32) : KeepsAll s (execRegRead offset s) := by
  unfold execRegRead
  exact keepsAll_whenAwake (by (repeat' split) <;> simp)

@[simp] theorem execGetSensorReading_keepsAll (ident : Nat) : KeepsAll s (execGetSensorReading ident s) := by
  unfold execGetSensorReading
  exact keepsAll_whenAwake (by (repeat' split) <;> simp)

@[simp] theorem execSetEventReceiver_keepsAll (eid : Byte) : KeepsAll s (execSetEventReceiver eid s) := by
  unfold execSetEventReceiver
  exact keepsAll_whenAwake (by (repeat' split) <;> simp)

@[simp] theorem execEventResend_keepsAll (number : W32) : KeepsAll s (execEventResend number s) := by
  unfold execEventResend
  exact keepsAll_next (by (repeat' split) <;> simp)

@[simp] theorem execEventAcknowledge_keepsAll (number : W32) : KeepsAll s (execEventAcknowledge number s) := by
  unfold execEventAcknowledge
  exact keepsAll_next (by simp)

@[simp] theorem execRequestUpdate_keepsAll : KeepsAll s (execRequestUpdate s) := by
  unfold execRequestUpdate
  exact keepsAll_whenAwake (by (repeat' split) <;> simp)

@[simp] theorem execFirmwareData_keepsAll (offset : Nat) (data : List Byte) : KeepsAll s (execFirmwareData offset data s) := by
  unfold execFirmwareData
  exact keepsAll_whenAwake (by (repeat' split) <;> simp)

@[simp] theorem execTransferComplete_keepsAll : KeepsAll s (execTransferComplete s) := by
  unfold execTransferComplete
  exact keepsAll_whenAwake (by (repeat' split) <;> simp)

@[simp] theorem execVerifyComplete_keepsAll : KeepsAll s (execVerifyComplete s) := by
  unfold execVerifyComplete
  exact keepsAll_whenAwake (by (repeat' split) <;> simp)

@[simp] theorem execActivateFirmware_keepsAll : KeepsAll s (execActivateFirmware s) := by
  unfold execActivateFirmware
  exact keepsAll_whenAwake (by (repeat' split) <;> simp)

@[simp] theorem execVrandReseed_keepsAll (core : Nat) : KeepsAll s (execVrandReseed core s) := by
  unfold execVrandReseed
  exact keepsAll_onUnit (by (repeat' split) <;> simp)

@[simp] theorem execCoreEntropyFail_keepsAll (core : Nat) : KeepsAll s (execCoreEntropyFail core s) := by
  unfold execCoreEntropyFail
  exact keepsAll_onUnit (by (repeat' split) <;> simp)

@[simp] theorem execCoreEntropyRecover_keepsAll (core : Nat) : KeepsAll s (execCoreEntropyRecover core s) := by
  unfold execCoreEntropyRecover
  exact keepsAll_onUnit (by simp)

end
end Sys2Proof.Machine
end

section
namespace Sys2Proof.Machine

/-- The power order, clause by clause. -/
theorem Startup.ordered_iff (u : Startup) : u.ordered = true ↔
    (u.awake = true → u.standby = true) ∧ (u.switchClosed = true → u.awake = true) ∧ (u.converters = true → u.switchClosed = true)
      ∧ (u.rails = true → u.converters = true) ∧ (railStage u.stage = true → u.rails = true)
      ∧ (u.switchClosed = true → u.thermalTrip = false ∧ u.currentTrip = false)
      ∧ (u.modResetN = false → u.awake = true → u.stage = 0x0f ∧ u.switchClosed = false) ∧ (u.packed = true → u.switchClosed = true) := by
  unfold Startup.ordered
  cases u.awake <;> cases u.switchClosed <;> cases u.converters <;> cases u.rails <;> cases u.modResetN <;> cases u.packed <;> simp <;> tauto

/-- The power order speaks of power, pins and stage alone. -/
theorem Startup.ordered_of_power {u v : Startup} (h : u.power = v.power) (hv : v.ordered = true) : u.ordered = true := by
  have hu : u.ordered = u.power.ordered := rfl
  rw [hu, h]
  exact hv

/-- A module with rails is woken and out of reset, and a stage behind the rails needs nothing more. -/
theorem Startup.toStage_ordered {u : Startup} (st : Byte) (ho : u.ordered = true) (hr : u.rails = true) :
    ({ u.power with stage := st } : Startup).ordered = true := by
  rw [Startup.ordered_iff] at ho ⊢
  grind [Startup.power]

/-- A module that is not held in reset may go to a stage before the rails. -/
theorem Startup.toEarlyStage_ordered {u : Startup} {st : Byte} (hst : railStage st = false) (ho : u.ordered = true) (hr : u.modResetN = true) :
    ({ u.power with stage := st } : Startup).ordered = true := by
  rw [Startup.ordered_iff] at ho ⊢
  grind [Startup.power]

theorem Startup.modResetN_of_rails {u : Startup} (ho : u.ordered = true) (hr : u.rails = true) : u.modResetN = true := by
  rw [Startup.ordered_iff] at ho
  grind

theorem Startup.rails_of_stage {u : Startup} (ho : u.ordered = true) (hst : railStage u.stage = true) : u.rails = true := by
  rw [Startup.ordered_iff] at ho
  grind

@[simp] theorem State.toStage_power (s : State) (st : Byte) : (s.toStage st).su.power = { s.su.power with stage := st } := rfl

@[simp] theorem State.dark_power (s : State) :
    s.dark.su.power = { s.su.power with switchClosed := false, converters := false, rails := false, packed := false } := rfl

@[simp] theorem State.halt_power (s : State) (st : Nat) : (s.halt st).su.power = { s.su.power with stage := 0x0e } := by
  unfold State.halt
  simp only [State.log_keeps]
  rfl

@[simp] theorem State.wantFlash_power (s : State) :
    s.wantFlash.su.power = { s.su.power with stage := if s.su.flashHoldN then 0x03 else 0x04 } := by
  unfold State.wantFlash
  split <;> rfl

@[simp] theorem State.finishStartup_power (s : State) : s.finishStartup.su.power = { s.su.power with stage := 0x0b } := by
  unfold State.finishStartup
  dsimp only
  (repeat' split) <;> simp

@[simp] theorem State.log_su (s : State) (e : Ev) (cls : Nat) : (s.log e cls).su = s.su := by
  unfold State.log
  dsimp only
  split <;> rfl

/-- A slot that failed leads to the flash again, to the wait for it, or to a halt. -/
theorem State.slotFailed_power (s : State) (st : Nat) :
    ∃ x, (s.slotFailed st).su.power = { s.su.power with stage := x } := by
  unfold State.slotFailed
  split
  · exact ⟨0x0e, by simp⟩
  · exact ⟨if s.su.flashHoldN then 0x03 else 0x04, by rw [State.wantFlash_power, State.log_su]; rfl⟩

/-- What is one-time stays where the fuses are the same. -/
theorem Fuses.grown_refl (f : Fuses) : f.grown f := ⟨rfl, rfl, rfl, rfl, rfl, rfl, rfl, fun h => ⟨h, rfl⟩, le_refl _⟩

/-- What every command keeps: the queue, what is one-time, and the power order. -/
def KeepsOrder (s : State) (r : Res) : Prop :=
  ∀ t, r = .next t → t.pending = s.pending ∧ s.fuses.grown t.fuses ∧ (s.su.ordered = true → t.su.ordered = true)

theorem KeepsAll.keepsOrder {s : State} {r : Res} (h : KeepsAll s r) : KeepsOrder s r := by
  intro t ht
  obtain ⟨hp, hf, hs⟩ := h t ht
  exact ⟨hp, hf ▸ Fuses.grown_refl _, fun ho => Startup.ordered_of_power hs ho⟩

/-- A row that keeps the queue and the fuses keeps the power order if it keeps what stands of it clause by clause. -/
theorem keepsOrder_next {s t : State} (hp : t.pending = s.pending) (hf : t.fuses = s.fuses) (ho : s.su.ordered = true → t.su.ordered = true) :
    KeepsOrder s (.next t) := fun _ ht => by cases ht; exact ⟨hp, hf ▸ Fuses.grown_refl _, ho⟩

theorem keepsOrder_onUnit {s t : State} {ok : Bool} (hp : t.pending = s.pending) (hf : t.fuses = s.fuses)
    (ho : s.su.ordered = true → t.su.ordered = true) : KeepsOrder s (onUnit ok t) := fun _ hu => by
  obtain ⟨-, rfl⟩ := onUnit_eq_next.mp hu
  exact ⟨hp, hf ▸ Fuses.grown_refl _, ho⟩

end Sys2Proof.Machine
end

section
namespace Sys2Proof.Machine

theorem Startup.ordered_of_power_eq {u v : Startup} (h : u.power = v) (hv : v.ordered = true) : u.ordered = true := by
  have hu : u.ordered = u.power.ordered := rfl
  rw [hu, h]
  exact hv

/-- A halted module and one in reset show stages before the rails. -/
theorem railStage_halted : railStage 0x0e = false ∧ railStage 0x0f = false ∧ railStage 0x01 = false ∧ railStage 0x02 = false := by decide

section
variable {s : State}

@[simp] theorem execStandbyOn_keepsOrder (cv : W16) : KeepsOrder s (execStandbyOn cv s) := by
  unfold execStandbyOn
  refine keepsOrder_next (by split <;> simp) (by split <;> simp) fun ho => ?_
  rw [Startup.ordered_iff] at ho ⊢
  grind [State.seeInput]

@[simp] theorem execManagementWake_keepsOrder (site board : BitVec 3) : KeepsOrder s (execManagementWake site board s) := by
  unfold execManagementWake
  refine keepsOrder_next (by split <;> simp) (by split <;> simp) fun ho => ?_
  rw [Startup.ordered_iff] at ho ⊢
  grind [State.tick, railStage]

@[simp] theorem execStandbyOff_keepsOrder (cv : W16) : KeepsOrder s (execStandbyOff cv s) := by
  unfold execStandbyOff
  refine keepsOrder_next (by split <;> simp) (by split <;> simp) fun ho => ?_
  rw [Startup.ordered_iff] at ho ⊢
  grind [State.dark, railStage]

@[simp] theorem execMainSwitchClose_keepsOrder (cv : W16) (mated : Bool) : KeepsOrder s (execMainSwitchClose cv mated s) := by
  unfold execMainSwitchClose
  refine keepsOrder_next (by (repeat' split) <;> simp) (by (repeat' split) <;> simp) fun ho => ?_
  rw [Startup.ordered_iff] at ho ⊢
  simp only [State.mayClose, Bool.and_eq_true]
  grind [State.toStage, State.seeInput, railStage]

@[simp] theorem execMainConvertersStart_keepsOrder (cv bulk : W16) : KeepsOrder s (execMainConvertersStart cv bulk s) := by
  unfold execMainConvertersStart
  refine keepsOrder_next (by split <;> simp) (by split <;> simp) fun ho => ?_
  rw [Startup.ordered_iff] at ho ⊢
  grind [State.seeInput]

@[simp] theorem execRailsSettled_keepsOrder : KeepsOrder s (execRailsSettled s) := by
  unfold execRailsSettled
  refine keepsOrder_next (by split <;> simp) (by split <;> simp) fun ho => ?_
  split
  next h =>
    refine Startup.ordered_of_power_eq (State.wantFlash_power _) ?_
    rw [Startup.ordered_iff] at ho ⊢
    grind [State.presentHx, State.tick, Startup.power]
  next => exact ho

theorem State.halt_ordered {s t : State} (st : Nat) (hp : t.su.power = s.su.power) (ho : s.su.ordered = true) (hr : s.su.modResetN = true) :
    (t.halt st).su.ordered = true :=
  Startup.ordered_of_power_eq ((t.halt_power st).trans (by rw [hp])) (Startup.toEarlyStage_ordered (st := 0x0e) (by decide) ho hr)

theorem State.toStage_ordered {s t : State} (st : Byte) (hp : t.su.power = s.su.power) (ho : s.su.ordered = true) (hr : s.su.rails = true) :
    (t.toStage st).su.ordered = true :=
  Startup.ordered_of_power_eq ((t.toStage_power st).trans (by rw [hp])) (Startup.toStage_ordered st ho hr)

/-- Converters run only on a module that is not held in reset. -/
theorem Startup.modResetN_of_converters {u : Startup} (ho : u.ordered = true) (hc : u.converters = true) : u.modResetN = true := by
  rw [Startup.ordered_iff] at ho
  grind

@[simp] theorem execRailSettleTimeout_keepsOrder : KeepsOrder s (execRailSettleTimeout s) := by
  unfold execRailSettleTimeout
  refine keepsOrder_next (by (repeat' split) <;> simp) (by (repeat' split) <;> simp) fun ho => ?_
  split
  next h =>
    exact State.halt_ordered _ (by split <;> simp) ho (Startup.modResetN_of_converters ho (by simp_all))
  next => exact ho

/-- Under a cut-off the switch is open, and the stage is the first or stays at halted or in reset. -/
theorem State.cutOff_ordered {s : State} (cv : W16) (st : Nat) (ho : s.su.ordered = true) : (s.cutOff cv st).su.ordered = true := by
  rw [Startup.ordered_iff] at ho
  unfold State.cutOff
  extract_lets t su u
  have ht : (t.su.awake = true → t.su.standby = true) ∧ t.su.switchClosed = false ∧ t.su.converters = false ∧ t.su.rails = false
      ∧ (t.su.modResetN = false → t.su.awake = true → t.su.stage = 0x0f) ∧ t.su.packed = false := by
    simp only [t]
    split <;> grind [State.dark]
  split
  next h =>
    have hst : railStage t.su.stage = false := by
      obtain h | h : t.su.stage = 0x0e ∨ t.su.stage = 0x0f := by simpa using h
      all_goals rw [h]; decide
    rw [State.log_su, Startup.ordered_iff]
    grind
  next h =>
    have hst : t.su.stage ≠ 0x0f := fun hf => h (by simp [u, su, hf])
    refine Startup.ordered_of_power (State.note_keeps _ st).2.2 ?_
    rw [Startup.ordered_iff]
    grind [railStage_halted, State.toStage]

@[simp] theorem execMainCutOff_keepsOrder (cv : W16) : KeepsOrder s (execMainCutOff cv s) := by
  unfold execMainCutOff
  exact keepsOrder_next (by split <;> simp) (by split <;> simp) fun ho => by grind [State.cutOff_ordered]

@[simp] theorem execOvervoltageCutOff_keepsOrder (cv : W16) : KeepsOrder s (execOvervoltageCutOff cv s) := by
  unfold execOvervoltageCutOff
  exact keepsOrder_next (by split <;> simp) (by split <;> simp) fun ho => by grind [State.cutOff_ordered]

@[simp] theorem State.trip_power (s : State) :
    s.trip.su.power = { s.su.power with switchClosed := false, converters := false, rails := false, packed := false, stage := 0x0e } := by
  unfold State.trip
  rw [State.halt_power, State.dark_power]


/-- A trip leaves the module dark and halted, whichever trip is then latched. -/
theorem State.trip_ordered {s : State} (ho : s.su.ordered = true) (hc : s.su.switchClosed = true) {u : Startup} (th cu : Bool)
    (hu : u.power = { s.trip.su.power with thermalTrip := th, currentTrip := cu }) : u.ordered = true := by
  refine Startup.ordered_of_power_eq (hu.trans (by rw [State.trip_power])) (v := { s.su.power with
    switchClosed := false, converters := false, rails := false, packed := false, stage := 0x0e, thermalTrip := th, currentTrip := cu }) ?_
  rw [Startup.ordered_iff] at ho ⊢
  grind [Startup.power, railStage]

@[simp] theorem execThermalTrip_keepsOrder (core : Nat) (temp : Byte) : KeepsOrder s (execThermalTrip core temp s) := by
  unfold execThermalTrip
  refine keepsOrder_onUnit (by split <;> simp) (by split <;> simp) fun ho => ?_
  split
  next h => exact State.trip_ordered ho (by simp_all) true s.trip.su.currentTrip rfl
  next => exact ho

theorem State.overcurrent_ordered {s : State} (ho : s.su.ordered = true) : s.overcurrent.su.ordered = true := by
  unfold State.overcurrent
  split
  next h => exact State.trip_ordered ho h s.trip.su.thermalTrip true rfl
  next => exact ho

@[simp] theorem execOvercurrentTripSlow_keepsOrder : KeepsOrder s (execOvercurrentTripSlow s) :=
  keepsOrder_next s.overcurrent_keeps.1 s.overcurrent_keeps.2 State.overcurrent_ordered

@[simp] theorem execOvercurrentTripFast_keepsOrder : KeepsOrder s (execOvercurrentTripFast s) :=
  keepsOrder_next s.overcurrent_keeps.1 s.overcurrent_keeps.2 State.overcurrent_ordered

@[simp] theorem execMateOkBreak_keepsOrder : KeepsOrder s (execMateOkBreak s) := by
  unfold execMateOkBreak
  refine keepsOrder_next (by (repeat' split) <;> simp) (by (repeat' split) <;> simp) fun ho => ?_
  rw [Startup.ordered_iff] at ho ⊢
  grind [State.dark, State.toStage, State.tick, railStage]

theorem State.modReset_ordered {s : State} (ho : s.su.ordered = true) : s.modReset.su.ordered = true := by
  rw [Startup.ordered_iff] at ho ⊢
  grind [State.modReset, State.dark, railStage]

theorem State.modResetEnd_ordered {s : State} (lowUs : Nat) (ho : s.su.ordered = true) (hn : s.su.modResetN = false) :
    (s.modResetEnd lowUs).su.ordered = true := by
  rw [Startup.ordered_iff] at ho ⊢
  grind [State.modResetEnd, railStage]

@[simp] theorem execModResetFall_keepsOrder : KeepsOrder s (execModResetFall s) := by
  unfold execModResetFall
  refine keepsOrder_next (by (repeat' split) <;> simp) (by (repeat' split) <;> simp) fun ho => ?_
  have hm := State.modReset_ordered ho
  rw [Startup.ordered_iff] at ho hm ⊢
  grind

@[simp] theorem execModResetRise_keepsOrder (lowUs : W32) : KeepsOrder s (execModResetRise lowUs s) := by
  unfold execModResetRise
  exact keepsOrder_next (by split <;> simp) (by split <;> simp) fun ho => by grind [State.modResetEnd_ordered]

@[simp] theorem execReset_keepsOrder : KeepsOrder s (execReset s) := by
  unfold execReset State.whenAwake
  refine keepsOrder_next (by (repeat' split) <;> simp) (by (repeat' split) <;> simp) fun ho => ?_
  have hv : (s.vendor 0x03 0 []).su.ordered = true := Startup.ordered_of_power (by simp) ho
  have hm := State.modReset_ordered hv
  dsimp only
  split
  · split
    · exact State.modResetEnd_ordered _ hm rfl
    · exact hm
  · exact ho

@[simp] theorem execWake_keepsOrder : KeepsOrder s (execWake s) := by
  unfold execWake State.whenAwake
  refine keepsOrder_next (by (repeat' split) <;> simp) (by (repeat' split) <;> simp) fun ho => ?_
  have hv : (s.vendor 0x02 0 []).su.power = s.su.power := by simp
  dsimp only
  (repeat' split)
  next hpacked =>
    refine Startup.ordered_of_power_eq (congrArg (fun u : Startup => { u with packed := false, converters := true, stage := 0x02 }) hv) ?_
    rw [Startup.ordered_iff] at ho ⊢
    grind [Startup.power, railStage]
  next => exact Startup.ordered_of_power hv ho
  next => exact ho

@[simp] theorem execFlashHoldAssert_keepsOrder : KeepsOrder s (execFlashHoldAssert s) := by
  unfold execFlashHoldAssert
  refine keepsOrder_next (by simp) (by simp) fun ho => ?_
  rw [Startup.ordered_iff] at ho ⊢
  grind [State.toStage, railStage]

@[simp] theorem execFlashHoldRelease_keepsOrder : KeepsOrder s (execFlashHoldRelease s) := by
  unfold execFlashHoldRelease
  refine keepsOrder_next (by simp) (by simp) fun ho => ?_
  rw [Startup.ordered_iff] at ho ⊢
  grind [State.toStage, railStage, State.wantFlash]

theorem State.slotFailed_ordered {s : State} (st : Nat) (ho : s.su.ordered = true) (hr : s.su.rails = true) :
    (s.slotFailed st).su.ordered = true := by
  obtain ⟨x, hx⟩ := s.slotFailed_power st
  exact Startup.ordered_of_power_eq hx (Startup.toStage_ordered x ho hr)

@[simp] theorem execFlashReadComplete_keepsOrder (ok : Bool) : KeepsOrder s (execFlashReadComplete ok s) := by
  unfold execFlashReadComplete
  dsimp only
  refine keepsOrder_next (by (repeat' split) <;> simp) (by (repeat' split) <;> simp) fun ho => ?_
  split
  next => exact ho
  next h =>
    have hr : s.su.rails = true := by simp_all
    (repeat' split)
    · exact State.halt_ordered _ rfl ho (Startup.modResetN_of_rails ho hr)
    · exact State.slotFailed_ordered _ ho hr
    · exact State.slotFailed_ordered _ ho hr
    · exact State.toStage_ordered _ rfl ho hr

@[simp] theorem execFuseMapRead_keepsOrder (readable : Bool) : KeepsOrder s (execFuseMapRead readable s) := by
  unfold execFuseMapRead
  refine keepsOrder_next (by (repeat' split) <;> simp) (by (repeat' split) <;> simp) fun ho => ?_
  split
  next => exact ho
  next h =>
    have hr : s.su.rails = true := Startup.rails_of_stage ho (by simp_all [railStage])
    have hn := Startup.modResetN_of_rails ho hr
    (repeat' split)
    · exact State.halt_ordered _ rfl ho hn
    · exact State.halt_ordered _ rfl ho hn
    · exact State.toStage_ordered _ (by simp) ho hr

@[simp] theorem execStartupSelfTestComplete_keepsOrder (fails : List TestUnit) : KeepsOrder s (execStartupSelfTestComplete fails s) := by
  unfold execStartupSelfTestComplete
  extract_lets full su t u su' v
  have ht : t.pending = s.pending ∧ t.fuses = s.fuses ∧ t.su.power = s.su.power := ⟨rfl, rfl, rfl⟩
  have hu : u.pending = s.pending ∧ u.fuses = s.fuses ∧ u.su.power = s.su.power :=
    ⟨foldl_pending _ (by simp) _ _, foldl_fuses _ (by simp) _ _, foldl_power _ (by simp) _ _⟩
  have hv : v.pending = s.pending ∧ v.fuses = s.fuses ∧ v.su.power = s.su.power := by
    refine ⟨(State.publishArrays_keeps _).1.trans hu.1, (State.publishArrays_keeps _).2.1.trans hu.2.1,
      (State.publishArrays_keeps _).2.2.trans hu.2.2⟩
  clear_value t u v
  refine keepsOrder_onUnit (by (repeat' split) <;> simp [hv, ht]) (by (repeat' split) <;> simp [hv, ht]) fun ho => ?_
  split
  next => exact ho
  next h =>
    have hr : s.su.rails = true := Startup.rails_of_stage ho (by simp_all [railStage])
    split
    · exact State.halt_ordered _ ht.2.2 ho (Startup.modResetN_of_rails ho hr)
    · split
      · exact State.toStage_ordered _ (by simp [ht]) ho hr
      · exact State.toStage_ordered _ (by simp [hv]) ho hr

@[simp] theorem execMemoryStageComplete_keepsOrder (stack : Option Nat) (ballast : Bool) : KeepsOrder s (execMemoryStageComplete stack ballast s) :=
    by
  unfold execMemoryStageComplete
  refine keepsOrder_onUnit (by (repeat' split) <;> simp) (by (repeat' split) <;> simp) fun ho => ?_
  split
  next => exact ho
  next h =>
    have hr : s.su.rails = true := Startup.rails_of_stage ho (by simp_all [railStage])
    have hn := Startup.modResetN_of_rails ho hr
    (repeat' split)
    · exact State.halt_ordered _ rfl ho hn
    · exact ho
    · exact State.halt_ordered _ rfl ho hn
    · exact ho
    · exact State.toStage_ordered _ (State.openPorts_keeps _).2.2 ho hr

theorem State.finishStartup_ordered {s t : State} (hp : t.su.power = s.su.power) (ho : s.su.ordered = true) (hr : s.su.rails = true) :
    t.finishStartup.su.ordered = true :=
  Startup.ordered_of_power_eq (t.finishStartup_power.trans (by rw [hp])) (Startup.toStage_ordered 0x0b ho hr)

@[simp] theorem execLinkStageEnd_keepsOrder : KeepsOrder s (execLinkStageEnd s) := by
  unfold execLinkStageEnd
  refine keepsOrder_next (by split <;> simp) (by split <;> simp) fun ho => ?_
  split
  next h => exact State.finishStartup_ordered rfl ho (Startup.rails_of_stage ho (by simp_all [railStage]))
  next => exact ho

@[simp] theorem execLinkStageTimeout_keepsOrder : KeepsOrder s (execLinkStageTimeout s) := by
  unfold execLinkStageTimeout
  refine keepsOrder_next (by split <;> simp) (by split <;> simp) fun ho => ?_
  split
  next h => exact State.finishStartup_ordered (by simp) ho (Startup.rails_of_stage ho (by simp_all [railStage]))
  next => exact ho

end
end Sys2Proof.Machine
end

section
namespace Sys2Proof.Machine

/-! #### One-time values that grow -/

theorem popCountTo_le_of_imp {w : Nat} {x y : BitVec w} (h : ∀ i, x.getLsbD i = true → y.getLsbD i = true) (n : Nat) :
    popCountTo x n ≤ popCountTo y n := by
  induction n with
  | zero => exact le_refl _
  | succ n ih =>
    have hn := h n
    simp only [popCountTo]
    split <;> split <;> simp_all <;> omega

/-- Setting bits clears none. -/
theorem popCount_le_or {w : Nat} (x y : BitVec w) : popCount x ≤ popCount (x ||| y) :=
  popCountTo_le_of_imp (fun i hi => by simp [hi]) w

/-- An owner request keeps the queue and the power order if what it does keeps them, and lets grow what that lets grow. -/
theorem keepsOrder_ownerRequest {s : State} {code : Nat} {ok : Bool} {f : State → State} (hp : (f s).pending = s.pending)
    (hf : ok = true → s.fuses.grown (f s).fuses) (ho : (f s).su = s.su) : KeepsOrder s (s.ownerRequest code ok f) := by
  rintro t ⟨⟩
  by_cases hr : s.responder <;> by_cases hk : ok = true <;> simp only [hr, hk, Bool.not_true, Bool.not_false, if_true, if_false, Bool.false_eq_true]
  · refine ⟨by simp [hp], by simpa using hf hk, fun h => Startup.ordered_of_power ?_ h⟩
    simp [ho]
  · exact ⟨by simp, by simpa using Fuses.grown_refl _, fun h => Startup.ordered_of_power (by simp) h⟩
  · exact ⟨trivial, Fuses.grown_refl _, id⟩
  · exact ⟨trivial, Fuses.grown_refl _, id⟩

section
variable {s : State}

@[simp] theorem execOwnerProvision_keepsOrder (smbus : Bool) (digest : BitVec 384) : KeepsOrder s (execOwnerProvision smbus digest s) := by
  refine keepsOrder_ownerRequest rfl (fun hk => ?_) rfl
  refine ⟨rfl, rfl, rfl, rfl, rfl, rfl, rfl, fun hl => ?_, le_refl _⟩
  simp [hl] at hk

@[simp] theorem execFloorAdvance_keepsOrder (floor : Nat) : KeepsOrder s (execFloorAdvance floor s) :=
  keepsOrder_ownerRequest rfl (fun _ => ⟨rfl, rfl, rfl, rfl, rfl, rfl, rfl, fun hl => ⟨hl, rfl⟩, popCount_le_or _ _⟩) rfl

/-! #### The ladder and the self-test -/

theorem State.enterPacked_ordered {s t : State} (hp : t.su.power = s.su.power) (ho : s.su.ordered = true) (hr : s.su.rails = true) :
    t.enterPacked.su.ordered = true := by
  refine Startup.ordered_of_power_eq (v := { t.dark.su.power with switchClosed := t.su.power.switchClosed, packed := true, stage := 0x01 }) rfl ?_
  rw [State.dark_power, hp]
  rw [Startup.ordered_iff] at ho ⊢
  grind [Startup.power, railStage_halted]

theorem State.moveRung_ordered {s : State} (target : Rung) (ho : s.su.ordered = true) (hr : s.su.rails = true) :
    (s.moveRung target).su.ordered = true := by
  unfold State.moveRung
  extract_lets low t1 t2 t3 t4 pwr t5
  have h1 : t1.su.power = s.su.power := by simp only [t1]; split <;> simp
  have h2 : t2.su.power = s.su.power := by simp only [t2]; split <;> simp [h1]
  have h3 : t3.su.power = s.su.power := by simp only [t3]; split <;> simp [h2]
  have h4 : t4.su.power = s.su.power := by simp only [t4]; split <;> simp [h3]
  split
  · exact State.enterPacked_ordered (t := t5) h4 ho hr
  · exact Startup.ordered_of_power (u := t5.su) h4 ho

@[simp] theorem execLadderComplete_keepsOrder : KeepsOrder s (execLadderComplete s) := by
  unfold execLadderComplete
  refine keepsOrder_next (by (repeat' split) <;> simp) (by (repeat' split) <;> simp) fun ho => ?_
  (repeat' split)
  next => exact ho
  next hr => exact Startup.ordered_of_power (State.answer_keeps _ _ _ _ _ _).2.2 (State.moveRung_ordered _ ho hr)
  next => exact ho

theorem State.testFailed_ordered {s t : State} (fails : List TestUnit) (hp : t.su.power = s.su.power) (ho : s.su.ordered = true)
    (hr : s.su.rails = true) : (t.testFailed fails).su.ordered = true := by
  have hu : (fails.foldl State.failUnit t).su.power = s.su.power := (foldl_power _ (by simp) _ _).trans hp
  unfold State.testFailed
  dsimp only
  (repeat' split)
  · exact State.halt_ordered _ hu ho (Startup.modResetN_of_rails ho hr)
  · exact Startup.ordered_of_power ((State.gradeCheck_keeps _).2.2.trans hu) ho
  · exact Startup.ordered_of_power hu ho

@[simp] theorem execSelftestComplete_keepsOrder (sig expd : W64) (fails : List TestUnit) : KeepsOrder s (execSelftestComplete sig expd fails s) := by
  unfold execSelftestComplete
  refine keepsOrder_onUnit (by (repeat' split) <;> simp) (by (repeat' split) <;> simp) fun ho => ?_
  split
  next => exact ho
  next x _ =>
    split
    next h =>
      have hr : s.su.rails = true := by grind
      refine Startup.ordered_of_power (State.answer_keeps _ _ _ _ _ _).2.2 ?_
      split
      · exact State.testFailed_ordered (s := s) fails (by split <;> simp) ho hr
      · exact Startup.ordered_of_power (by (repeat' split) <;> simp) ho
    next => exact ho

end

/-- What every command keeps. -/
theorem exec_keepsOrder (i : Instr) (s : State) : KeepsOrder s (exec i s) := by
  cases i
  case standbyOn | managementWake | standbyOff | mainSwitchClose | mainConvertersStart | railsSettled | railSettleTimeout | mainCutOff |
      overvoltageCutOff | thermalTrip | overcurrentTripSlow | overcurrentTripFast | mateOkBreak | modResetFall | modResetRise | flashHoldAssert |
      flashHoldRelease | flashReadComplete | fuseMapRead | startupSelfTestComplete | memoryStageComplete | linkStageEnd | linkStageTimeout |
      ownerProvision | floorAdvance | wake | reset | ladderComplete | selftestComplete =>
    simp [exec]
  case bridle | stream | drain | nop | rep | br | jmp | wait | swapBundle | sset | salu | sali | sld | sst | vld | vst | pld | seta | geta |
      setc | getc | rdx | clrf | tdef | tspn | tcopy | tinv | send | recv | vadd | vsub | vmul | vfma | vdiv | vsqrt | vmin | vmax | vcmp |
      vsel | vbcs | vred | vcvt | vfun | vrand | vupd =>
    exact (keepsAll_issueAt _ _ _).keepsOrder
  all_goals exact KeepsAll.keepsOrder (by simp [exec])

/-- What a step of the queue keeps: it takes the front, what is one-time stays, and power stays in order. -/
theorem step_keepsOrder {s t : State} (h : step s = .next t) :
    t.pending = s.pending.drop 1 ∧ s.fuses.grown t.fuses ∧ (s.su.ordered = true → t.su.ordered = true) := by
  unfold step at h
  cases hp : s.pending with
  | nil =>
    rw [hp] at h
    cases h
    exact ⟨hp, Fuses.grown_refl _, id⟩
  | cons c rest =>
    rw [hp] at h
    exact exec_keepsOrder c { s with pending := rest } t h

end Sys2Proof.Machine

open Sys2Proof Sys2Proof.Machine

/-- Settles O3: every row leaves the queue it is run on. -/
theorem stepTakesOnlyTheFront : Obligations.StepTakesOnlyTheFront := fun _ _ h => (step_keepsOrder h).1

/-- Settles O7: a row that moves power moves it in order, and every other row keeps power, pins and stage. -/
theorem powerOrderKept : Obligations.PowerOrderKept := fun _ _ ho h => (step_keepsOrder h).2.2 ho

/-- Settles O8: OWNER_PROVISION asks that the owner is not locked, FLOOR_ADVANCE only sets bits, and no other row changes the fuses. -/
theorem fusesOnlyGrow : Obligations.FusesOnlyGrow := fun _ _ h => (step_keepsOrder h).2.1

/-- Settles O1: both halves are the two cases of the step. -/
theorem stepRunsFrontCommand : Obligations.StepRunsFrontCommand :=
  ⟨fun s c rest hp => by unfold step; rw [hp], fun s hp => by unfold step; rw [hp]⟩

end

section
/-! ### Every row of a well-formed command runs -/

namespace Sys2Proof.Machine

/-- A row runs to a next state. -/
def Runs (r : Res) : Prop := ∃ t, r = .next t

theorem runs_next (t : State) : Runs (.next t) := ⟨t, rfl⟩

theorem runs_onUnit {ok : Bool} (t : State) (h : ok = true) : Runs (onUnit ok t) := ⟨t, by rw [onUnit, if_pos h]⟩

theorem execRegisterWrite_runs {fn : Nat} (offset value : W32) (s : State) (h : fnOk fn = true) : Runs (execRegisterWrite fn offset value s) := by
  have hring : Runs (s.writeRingCfg fn value) := by
    unfold State.writeRingCfg
    split <;> exact runs_onUnit _ h
  unfold execRegisterWrite
  rw [h, Bool.not_true, if_neg Bool.false_ne_true]
  split
  · exact hring
  · split
    · exact runs_next _
    · split <;> exact runs_next _

theorem execSave_runs {o : RingId} (segs : List (W64 × W64)) (s : State) (h : o.valid = true) : Runs (execSave o segs s) := by
  unfold execSave
  split
  · exact runs_next _
  · exact runs_onUnit _ h

/-- Where every unit that a command names exists, its row ends in a next state: it is one of `onUnit`'s, or has no unit to name. -/
theorem exec_runs {i : Instr} (s : State) (h : i.wf = true) : Runs (exec i s) := by
  cases i
  case registerWrite => exact execRegisterWrite_runs _ _ s h
  case save => exact execSave_runs _ s h
  case frameReceive | portTrained =>
    simp only [Instr.wf, Bool.and_eq_true, and_assoc] at h
    exact runs_onUnit _ h.1
  all_goals first
    | exact runs_next _
    | exact runs_onUnit _ h

theorem run_of_wf {l : List Instr} : ∀ s : State, s.pending = l → (∀ i ∈ l, i.wf = true) → ∃ t, core.run l.length s = .next t ∧ t.pending = [] := by
  induction l with
  | nil => exact fun s hp _ => ⟨s, rfl, hp⟩
  | cons c rest ih =>
    intro s hp hwf
    obtain ⟨t, ht⟩ := exec_runs { s with pending := rest } (hwf c (List.mem_cons_self ..))
    have hstep : step s = .next t := by unfold step; rw [hp]; exact ht
    have hcore : core.step s = .next t := hstep
    have hrest : t.pending = rest := by rw [(step_keepsOrder hstep).1, hp]; rfl
    obtain ⟨u, hu, hend⟩ := ih t hrest fun i hi => hwf i (List.mem_cons_of_mem _ hi)
    refine ⟨u, ?_, hend⟩
    simp only [List.length_cons, Host.Core.run, hcore]
    exact hu

end Sys2Proof.Machine

open Sys2Proof Sys2Proof.Machine

/-- Settles O4: by induction over the queue; a well-formed command runs, and leaves the rest of the queue. -/
theorem wellFormedQueuesRunToTheEnd : Obligations.WellFormedQueuesRunToTheEnd := fun s hwf => run_of_wf s rfl hwf

end

section
/-! PROOFS. Start-up's rows, the pins, the rings and the functions (O9 to O24). -/

/-! ### What logging leaves as it is -/

namespace Sys2Proof.Machine

section
variable (s : State) (e : Ev) (cls : Nat)

@[simp] theorem State.log_flash : (s.log e cls).flash = s.flash := by
  unfold State.log; dsimp only; split <;> rfl

@[simp] theorem State.log_hif : (s.log e cls).hif = s.hif := by
  unfold State.log; dsimp only; split <;> rfl

@[simp] theorem State.log_tetPsel : (s.log e cls).tetPsel = s.tetPsel := by
  unfold State.log; dsimp only; split <;> rfl

@[simp] theorem State.log_tetCsel : (s.log e cls).tetCsel = s.tetCsel := by
  unfold State.log; dsimp only; split <;> rfl

@[simp] theorem State.log_cores : (s.log e cls).cores = s.cores := by
  unfold State.log; dsimp only; split <;> rfl

@[simp] theorem State.log_mesh : (s.log e cls).mesh = s.mesh := by
  unfold State.log; dsimp only; split <;> rfl

@[simp] theorem State.log_parts : (s.log e cls).parts = s.parts := by
  unfold State.log; dsimp only; split <;> rfl

@[simp] theorem State.log_spn : (s.log e cls).spn = s.spn := by
  unfold State.log; dsimp only; split <;> rfl

@[simp] theorem State.log_lnk : (s.log e cls).lnk = s.lnk := by
  unfold State.log; dsimp only; split <;> rfl

@[simp] theorem State.log_gon : (s.log e cls).gon = s.gon := by
  unfold State.log; dsimp only; split <;> rfl

@[simp] theorem State.log_sec : (s.log e cls).sec = s.sec := by
  unfold State.log; dsimp only; split <;> rfl

@[simp] theorem State.log_pwr : (s.log e cls).pwr = s.pwr := by
  unfold State.log; dsimp only; split <;> rfl

@[simp] theorem State.log_free : (s.log e cls).free = s.free + 1 := by
  unfold State.log; dsimp only; split <;> rfl

end

end Sys2Proof.Machine
end

section
/-! ### Registers at reset, the log, power up and down -/

namespace Sys2Proof.Machine

/-- A cut-off leaves the stage to be looked at as it was. -/
theorem State.dark_or_same_stage (s : State) : (if s.su.switchClosed then s.dark else s).su.stage = s.su.stage := by
  split <;> rfl

theorem State.cutOff_running {s : State} (cv : W16) (st : Nat) (hhalted : s.su.stage ≠ 0x0e) (hreset : s.su.stage ≠ 0x0f) :
    s.cutOff cv st = State.log { (if s.su.switchClosed then s.dark else s) with
      su := { (if s.su.switchClosed then s.dark else s).su with
        pwrfailN := false, volts := cv, stage := 0x01, stageShown := none, status := BitVec.ofNat 16 st } } { status := st } (classOf st) := by
  unfold State.cutOff
  simp only [State.dark_or_same_stage, beq_eq_false_iff_ne.mpr hhalted, beq_eq_false_iff_ne.mpr hreset, Bool.or_self, Bool.false_eq_true, if_false]
  rfl

theorem State.cutOff_halted {s : State} (cv : W16) (st : Nat) (hstage : s.su.stage = 0x0e ∨ s.su.stage = 0x0f) :
    s.cutOff cv st = State.log { (if s.su.switchClosed then s.dark else s) with
      su := { (if s.su.switchClosed then s.dark else s).su with pwrfailN := false, volts := cv } } { status := st } (classOf st) := by
  have hstop : (s.su.stage == 0x0e || s.su.stage == 0x0f) = true := by simpa using hstage
  unfold State.cutOff
  simp only [State.dark_or_same_stage, hstop, if_true]

end Sys2Proof.Machine

open Sys2Proof Sys2Proof.Machine

/-- Settles O9: the register file of the reset state, read at every address listed. -/
theorem resetRegisters : Obligations.ResetRegisters := by
  unfold Obligations.ResetRegisters
  exact ⟨by decide +kernel, by decide +kernel, by decide +kernel, rfl, rfl, rfl, rfl, rfl, rfl⟩

/-- Settles O10: an entry is sent exactly if its class is Fault or above and a receiver is set. -/
theorem conditionsAreLogged : Obligations.ConditionsAreLogged := by
  intro s e cls
  refine ⟨{ number := s.mgt.logNext, wake := s.mgt.wakes, cls := BitVec.ofNat 8 cls, part := partByte e.part, status := BitVec.ofNat 16 e.status,
            time := Config.localTime s.free, detail := detailOf e.words }, rfl, rfl, rfl, rfl, rfl, rfl, ?_⟩
  by_cases hsent : 2 ≤ cls ∧ s.mgt.receiver.isSome = true
  · simp [State.log, State.tick, State.emit, hsent]
  · have hfalse : (decide (2 ≤ cls) && s.mgt.receiver.isSome) = false := by
      rw [Bool.eq_false_iff]; simpa using hsent
    simp only [State.log, State.tick, hfalse, if_neg hsent, Bool.false_eq_true, if_false, List.take_succ_cons]

/-- Settles O12: each row under its condition, and the switch's row with one of its conditions broken. -/
theorem powerComesUp : Obligations.PowerComesUp := by
  intro s
  refine ⟨?standby, ?controller, ?switch, ?converters, ?rails, ?timeout, ?stays⟩
  case standby =>
    intro cv hoff hcv
    simp [exec, execStandbyOn, State.seeInput, hoff, hcv]
  case controller =>
    intro site board hon hasleep
    simp [exec, execManagementWake, State.tick, hon, hasleep]
  case switch =>
    intro cv hawake hstage hreset hthermal hcurrent hopen hpacked hlow hhigh
    have hseen : 5100 ≤ cv.toNat ∧ cv.toNat ≤ 6600 := by omega
    simp [exec, execMainSwitchClose, State.mayClose, State.seeInput, State.toStage, *]
  case converters =>
    intro cv bulk hstage hclosed hidle hlow hhigh
    simp [exec, execMainConvertersStart, State.seeInput, *]
  case rails =>
    intro hstage hconv
    cases hhold : s.su.flashHoldN <;> simp [exec, execRailsSettled, State.wantFlash, State.presentHx, State.tick, State.toStage, *]
  case timeout =>
    intro hstage hconv
    cases hrail : Config.hostRail s.free <;> simp [exec, execRailSettleTimeout, State.presentHx, State.tick, *]
  case stays =>
    intro cv mated hbroken
    have hmay : (s.mayClose && decide (5300 ≤ cv.toNat) && decide (cv.toNat ≤ 6500) && mated) = false := by
      simp only [State.mayClose]
      grind
    simp only [exec, execMainSwitchClose, hmay, Bool.false_eq_true, if_false]
    rfl

/-- Settles O13: `dark` writes every field listed, or leaves it. -/
theorem lostRailsLoseTheBlocks : Obligations.LostRailsLoseTheBlocks := fun _ => by
  and_intros <;> rfl

/-- Settles O14: a cut-off in the stages that run and in the two that do not, and every other row under its condition. -/
theorem powerGoesDown : Obligations.PowerGoesDown := by
  intro s cv
  refine ⟨?off, ?cut, ?range, ?shown, ?halted, ?unpowered⟩
  case off =>
    intro hon hcv
    refine ⟨_, by simp only [exec, execStandbyOff, hon, hcv, decide_true, Bool.and_self, if_true]; rfl, ?_⟩
    and_intros <;> rfl
  case cut =>
    rintro hawake i st (⟨rfl, rfl, hcv⟩ | ⟨rfl, rfl, hcv⟩)
    · have hexec : exec (.mainCutOff cv) s = .next (s.cutOff cv 0x0806) := by
        simp only [exec, execMainCutOff, hawake, hcv, decide_true, Bool.and_self, if_true]
      exact ⟨fun hhalted hreset => by rw [hexec, State.cutOff_running cv _ hhalted hreset]; rfl,
        fun hstage => by rw [hexec, State.cutOff_halted cv _ hstage]; rfl⟩
    · have hexec : exec (.overvoltageCutOff cv) s = .next (s.cutOff cv 0x0807) := by
        simp only [exec, execOvervoltageCutOff, hawake, hcv, decide_true, Bool.and_self, if_true]
      exact ⟨fun hhalted hreset => by rw [hexec, State.cutOff_running cv _ hhalted hreset]; rfl,
        fun hstage => by rw [hexec, State.cutOff_halted cv _ hstage]; rfl⟩
  case range =>
    intro hawake hlow hhigh
    have hseen : 5100 ≤ cv.toNat ∧ cv.toNat ≤ 6600 := by omega
    refine ⟨fun hclosed => ⟨unlistedCode 0, ?_⟩, fun hopen => ?_⟩ <;> simp [exec, execInputRangeLow, State.seeInput, *]
  case shown =>
    intro hmated hclosed hstage
    have hlt : Config.mateStage s.free % stages.length < stages.length := Nat.mod_lt _ (by decide)
    refine ⟨stages[Config.mateStage s.free % stages.length], List.getElem_mem hlt, ?_⟩
    have hother : ¬(s.su.stage == 0x0e) = true := by simpa using hstage
    have hshown : stages[Config.mateStage s.free % stages.length]? = some stages[Config.mateStage s.free % stages.length] :=
      List.getElem?_eq_getElem hlt
    unfold exec execMateOkBreak
    simp only [hmated, hclosed, if_true]
    rw [← hshown]
    exact congrArg Host.Outcome.next (if_neg hother)
  case halted =>
    intro hmated hclosed hstage
    simp [exec, execMateOkBreak, *, State.dark]
  case unpowered =>
    intro hmated hopen
    simp [exec, execMateOkBreak, *]

/-- Settles O15: a trip is `dark`, then a halt, then the latch. -/
theorem tripsHaltAndLatch : Obligations.TripsHaltAndLatch := by
  refine ⟨fun _ _ => rfl, fun s hc => ⟨fun core temp hk ht => ?_, ?_⟩⟩
  · refine ⟨_, ?_, rfl, ?_⟩
    · simp [exec, execThermalTrip, onUnit, coreOk, hk, hc, ht, State.trip]
    · simp [State.halt, State.dark]
  · refine ⟨_, ?_, ?_, rfl, ?_⟩
    · simp [exec, execOvercurrentTripSlow, State.overcurrent, hc, State.trip]
    · simp [exec, execOvercurrentTripFast, State.overcurrent, hc, State.trip]
    · simp [State.halt, State.dark]

/-- Settles O16: each pin under the conditions of its row. -/
theorem pinsAct : Obligations.PinsAct := by
  intro s
  refine ⟨?fall, ?rise, rfl, ⟨?down, ?lost, ?bits⟩, ?hold, ?holdLater, ?go, ?release⟩
  case fall =>
    intro hhigh hawake
    simp [exec, execModResetFall, State.modReset, *]
  case rise =>
    intro lowUs hlow hawake
    by_cases hlong : 1000 ≤ lowUs.toNat <;> simp [exec, execModResetRise, State.modResetEnd, *]
  case down =>
    intro hlink
    simp [exec, execPerstAssert, State.hostLinkDown, *]
  case lost =>
    intro hlink
    simp [exec, execPerstAssert, State.hostLinkDown, *]
  case bits =>
    intro e he
    simp only [SMap.mapVals] at he
    obtain ⟨hmem, -⟩ := List.mem_filter.mp he
    obtain ⟨f, -, rfl⟩ := List.mem_map.mp hmem
    exact ⟨rfl, rfl⟩
  case hold =>
    intro hstage hbusy
    simp [exec, execFlashHoldAssert, State.toStage, *]
  case holdLater =>
    intro hbusy
    have hfree : (s.su.stage == 0x03 && !s.su.flashBusy) = false := by grind
    simp only [exec, execFlashHoldAssert, hfree, Bool.false_eq_true, if_false]
  case go =>
    intro hstage
    simp [exec, execFlashHoldRelease, State.wantFlash, State.toStage, *]
  case release =>
    intro hstage
    have hother : (s.su.stage == 0x04) = false := beq_eq_false_iff_ne.mpr hstage
    simp only [exec, execFlashHoldRelease, hother, Bool.false_eq_true, if_false]
    cases s.mgt.update.isSome <;> simp

end

section
/-! ### Rings, doorbells and the commands that the ladder turns away -/

namespace Sys2Proof.Machine

section
variable {s : State}

/-! #### A completion entry -/

@[simp] theorem State.fire_rings (s : State) (fn vec : Nat) : (s.fire fn vec).hif.rings = s.hif.rings := by
  unfold State.fire
  dsimp only
  (repeat' split) <;> rfl

/-- What has left the module stays among what has left it. -/
theorem State.mem_outbox_fire {x : Out} (fn vec : Nat) (h : x ∈ s.outbox) : x ∈ (s.fire fn vec).outbox := by
  unfold State.fire
  dsimp only
  (repeat' split)
  · exact h
  · exact h
  · exact List.mem_cons_of_mem _ h

theorem State.ring_eq_of_rings {t u : State} (h : t.hif.rings = u.hif.rings) (o : RingId) : t.ring o = u.ring o := by
  unfold State.ring; rw [h]

/-- The ring after an entry was written at its completion tail. -/
def Ring.put (r : Ring) (e : CplEntry) : Ring :=
  { r with
    entries := r.entries ++ [{ e with phase := r.phase }]
    cplTail := if r.cplTail.toNat + 1 = r.size then 0 else r.cplTail + 1
    phase := if r.cplTail.toNat + 1 = r.size then !r.phase else r.phase
    unsignalled := if decide (r.unsignalled + 1 ≥ max 1 r.coalCnt.toNat) then 0 else r.unsignalled + 1 }

/-- An entry is written into its ring and into host memory; then its vector may fire. -/
theorem State.putEntry_eq (s : State) (o : RingId) (e : CplEntry) :
    s.putEntry o e = if decide ((s.ring o).unsignalled + 1 ≥ max 1 (s.ring o).coalCnt.toNat) then
      ((s.setRing o ((s.ring o).put e)).emit (.cplWrite o.fn o.ring (s.ring o).cplTail.toNat { e with phase := (s.ring o).phase })).fire o.fn o.vector
    else (s.setRing o ((s.ring o).put e)).emit (.cplWrite o.fn o.ring (s.ring o).cplTail.toNat { e with phase := (s.ring o).phase }) := rfl

theorem State.putEntry_rings (s : State) (o : RingId) (e : CplEntry) :
    (s.putEntry o e).hif.rings = (s.setRing o ((s.ring o).put e)).hif.rings := by
  rw [State.putEntry_eq]
  split <;> simp

theorem State.mem_outbox_putEntry (s : State) (o : RingId) (e : CplEntry) :
    Out.cplWrite o.fn o.ring (s.ring o).cplTail.toNat { e with phase := (s.ring o).phase } ∈ (s.putEntry o e).outbox := by
  rw [State.putEntry_eq]
  split
  · exact State.mem_outbox_fire _ _ (List.mem_cons_self ..)
  · exact List.mem_cons_self ..

@[simp] theorem State.canPost_setRing (s : State) (o : RingId) (r : Ring) (fn : Nat) : (s.setRing o r).canPost fn = s.canPost fn := rfl

/-- A ring that may post and where one answer alone waits writes it. -/
theorem State.flush_single {o : RingId} {e : CplEntry} (hpost : s.canPost o.fn = true) (hon : (s.ring o).enable = true)
    (hwait : (s.ring o).waiting = [e]) (hkind : e.kind = 1) :
    s.flush o = (s.setRing o { s.ring o with waiting := [] }).putEntry o e := by
  simp [State.flush, hpost, hon, hwait, hkind]

theorem State.flush_none {o : RingId} (hpost : s.canPost o.fn = true) (hon : (s.ring o).enable = true) (hwait : (s.ring o).waiting = []) :
    s.flush o = s.setRing o { s.ring o with waiting := [] } := by
  simp [State.flush, hpost, hon, hwait]

/-- The kind 1 entry that answers a command. -/
def CmdRef.answer (ref : CmdRef) (status result : Nat) : CplEntry :=
  { kind := 1, status := BitVec.ofNat 16 status, tag := ref.tag, part := ref.part, opcode := ref.opcode, detail := BitVec.ofNat 384 (result % 2 ^ 64)
    }

/-- The ring of a command that has ended, nothing else having waited. -/
def Ring.ended (r : Ring) (epoch : Nat) : Ring := { r with running := r.running.erase epoch, waiting := [] }

theorem State.complete_of_live {ref : CmdRef} (status result : Nat) (hwf : SMap.wf Ring.blank s.hif.rings = true)
    (hpost : s.canPost ref.ring.fn = true) (hon : (s.ring ref.ring).enable = true) (hwait : (s.ring ref.ring).waiting = [])
    (hepoch : (s.ring ref.ring).epoch = ref.epoch) :
    ∃ u : State, s.complete ref status result = (u.setRing ref.ring ((s.ring ref.ring).ended ref.epoch)).putEntry ref.ring (ref.answer status result)
      ∧ SMap.wf Ring.blank u.hif.rings = true ∧ ∀ q : RingId, q.key ≠ ref.ring.key → u.ring q = s.ring q := by
  have hlive : ((s.ring ref.ring).enable && decide ((s.ring ref.ring).epoch = ref.epoch)) = true := by simp [hon, hepoch]
  let waits : Ring := { (s.ring ref.ring).ended ref.epoch with waiting := [ref.answer status result] }
  have hring : (s.setRing ref.ring waits).ring ref.ring = waits := State.ring_setRing _ _ _ hwf
  refine ⟨s.setRing ref.ring waits, ?_, State.setRing_wf _ _ _ hwf, fun q hq => State.ring_setRing_ne _ _ _ _ hwf hq⟩
  have hflush : s.complete ref status result = (s.setRing ref.ring waits).flush ref.ring := by
    unfold State.complete
    dsimp only
    rw [if_pos hlive, hwait]
    rfl
  rw [hflush, State.flush_single (s := s.setRing ref.ring waits) (e := ref.answer status result) hpost (by rw [hring]; exact hon) (by rw [hring])
    rfl, hring]
  rfl

theorem State.complete_of_closed {ref : CmdRef} (status result : Nat) (hwf : SMap.wf Ring.blank s.hif.rings = true)
    (hpost : s.canPost ref.ring.fn = true) (hon : (s.ring ref.ring).enable = true) (hwait : (s.ring ref.ring).waiting = [])
    (hepoch : (s.ring ref.ring).epoch ≠ ref.epoch) :
    s.complete ref status result
      = (s.setRing ref.ring ((s.ring ref.ring).ended ref.epoch)).setRing ref.ring ((s.ring ref.ring).ended ref.epoch) := by
  have hclosed : ((s.ring ref.ring).enable && decide ((s.ring ref.ring).epoch = ref.epoch)) = false := by simp [hepoch]
  have hring : (s.setRing ref.ring ((s.ring ref.ring).ended ref.epoch)).ring ref.ring = (s.ring ref.ring).ended ref.epoch :=
    State.ring_setRing _ _ _ hwf
  have hflush : s.complete ref status result = (s.setRing ref.ring ((s.ring ref.ring).ended ref.epoch)).flush ref.ring := by
    unfold State.complete
    dsimp only
    rw [hclosed, if_neg Bool.false_ne_true, hwait]
    rfl
  rw [hflush, State.flush_none (s := s.setRing ref.ring ((s.ring ref.ring).ended ref.epoch)) hpost (by rw [hring]; exact hon) (by rw [hring]; rfl),
    hring]
  rfl

/-! #### Host commands that are not carried out -/

theorem hostCommand_low {o : RingId} {op : Nat} {f : CmdRef → BitVec 512 → State → State} {ref : CmdRef} {c : BitVec 512}
    (hvalid : o.valid = true) (hfront : s.front o op = some (ref, c)) (hlow : (s.started o).lowLadder = true) (hop : op ∉ ladderOpcodes) :
    hostCommand o op s f = .next ((s.started o).complete ref 0x0711) := by
  have hturned : ((s.setRing o (s.ring o).begin).lowLadder && !decide (op ∈ ladderOpcodes)) = true := by
    rw [show (s.setRing o (s.ring o).begin).lowLadder = true from hlow]; simpa using hop
  simp only [hostCommand, onUnit, hvalid, hfront, hturned, if_true]
  rfl

theorem hostCommand_not_next {o : RingId} {op : Nat} {f : CmdRef → BitVec 512 → State → State} (hvalid : o.valid = true)
    (hfront : s.front o op = none) : hostCommand o op s f = .next s := by
  simp only [hostCommand, onUnit, hvalid, hfront, if_true]

/-- What the ladder and the order of a ring do to a host command's row. -/
structure TurnsAway (s : State) (o : RingId) (op : Nat) (r : Res) : Prop where
  low : ∀ ref c, s.front o op = some (ref, c) → (s.started o).lowLadder = true → op ∉ ladderOpcodes → r = .next ((s.started o).complete ref 0x0711)
  notNext : s.front o op = none → r = .next s

theorem turnsAway_hostCommand {o : RingId} (op : Nat) (f : CmdRef → BitVec 512 → State → State) (hvalid : o.valid = true) :
    TurnsAway s o op (hostCommand o op s f) :=
  ⟨fun _ _ hfront hlow hop => hostCommand_low hvalid hfront hlow hop, hostCommand_not_next hvalid⟩

/-- SAVE waits for host memory only where the ladder does not turn it away. -/
theorem turnsAway_save {o : RingId} (segs : List (W64 × W64)) (hvalid : o.valid = true) : TurnsAway s o 0x21 (execSave o segs s) := by
  unfold execSave
  split
  next hwaits =>
    refine ⟨fun _ _ _ hlow _ => ?_, fun _ => rfl⟩
    have : s.lowLadder = true := hlow
    simp [this] at hwaits
  next => exact turnsAway_hostCommand _ _ hvalid

end

end Sys2Proof.Machine

open Sys2Proof Sys2Proof.Machine

/-- Settles O11: the answer is the only entry that waits, so flushing the ring writes it and nothing else; without a live epoch nothing waits. -/
theorem completionEntryWritten : Obligations.CompletionEntryWritten := by
  intro s ref status result hwf hpost hon hwait
  constructor
  · intro hepoch r t e
    obtain ⟨u, ht, huwf, hother⟩ := State.complete_of_live status result hwf hpost hon hwait hepoch
    have hv : (u.setRing ref.ring (r.ended ref.epoch)).ring ref.ring = r.ended ref.epoch := State.ring_setRing _ _ _ huwf
    have hvwf := State.setRing_wf u ref.ring (r.ended ref.epoch) huwf
    have hrings : t.hif.rings = ((u.setRing ref.ring (r.ended ref.epoch)).setRing ref.ring ((r.ended ref.epoch).put (ref.answer status
      result))).hif.rings := by
      show (s.complete ref status result).hif.rings = _
      rw [ht, State.putEntry_rings, hv]
    have hring : t.ring ref.ring = (r.ended ref.epoch).put (ref.answer status result) :=
      (State.ring_eq_of_rings hrings _).trans (State.ring_setRing _ _ _ hvwf)
    refine ⟨by rw [hring]; rfl, by rw [hring]; rfl, by rw [hring]; rfl, ?tail, by rw [hring]; rfl, ?written, fun q hq => ?_⟩
    case tail =>
      rw [hring]
      show (if r.cplTail.toNat + 1 = r.size then (0 : W16) else r.cplTail + 1).toNat = _
      split <;> simp
    case written =>
      show _ ∈ (s.complete ref status result).outbox
      rw [ht]
      have hmem := State.mem_outbox_putEntry (u.setRing ref.ring (r.ended ref.epoch)) ref.ring (ref.answer status result)
      rw [hv] at hmem
      exact hmem
    · rw [State.ring_eq_of_rings hrings, State.ring_setRing_ne _ _ _ _ hvwf hq, State.ring_setRing_ne _ _ _ _ huwf hq, hother q hq]
  · intro hepoch
    rw [State.complete_of_closed status result hwf hpost hon hwait hepoch]
    exact ⟨rfl, by rw [State.ring_setRing _ _ _ (State.setRing_wf _ _ _ hwf)]; rfl⟩

/-- Settles O21: each doorbell within an enabled ring, and the three ways it is discarded. -/
theorem doorbellsMoveRings : Obligations.DoorbellsMoveRings := by
  intro s o value hvalid
  have hindex : (bits value 0 16).toNat = value.toNat % 65536 := by simp [bits]
  refine ⟨fun hreach hon hlt => ?_, fun hnot => ?_⟩
  · simp [exec, execHifDbCmd, execHifDbCpl, onUnit, Ring.returned, *]
  · have hoff : (s.hostReach o.fn && (s.ring o).enable && decide (value.toNat % 65536 < (s.ring o).size)) = false := by grind
    simp only [exec, execHifDbCmd, execHifDbCpl, onUnit, hvalid, hindex, hoff, if_true, Bool.false_eq_true, if_false, and_self]

/-- Settles O22: the write's ENABLE bit and the ring's state give the four cases. -/
theorem ringsEnableAndDisable : Obligations.RingsEnableAndDisable := by
  intro s fn value hfn hreach
  refine ⟨fun hbit hon => ?_, fun hbit hon => ?_, fun hbit hon => ?_, fun hbit hon => ?_⟩
  all_goals simp [exec, execRingEnable, execRingDisable, onUnit, fnOk, Ring.cfgFields, Ring.opened, Ring.closed, *]

/-- Settles O23: a command that nothing refuses waits its turn, one that is refused is answered once it is next, and without room nothing is
fetched. -/
theorem commandsAreFetched : Obligations.CommandsAreFetched := by
  intro s o cmd hvalid r head
  refine ⟨fun hpost hon hmore hroom => ?_, fun hnot => ?_, fun hon hcoal hcount => ?_⟩
  · have hmay : (s.canPost o.fn && r.enable && r.cmdHead != r.cmdTail && r.room) = true := by simp [hpost, hon, hmore, hroom]
    refine ⟨fun hop hhead hvf => ?_, fun hbad hnone hfence => ?_, fun hop hhead hvf hnone hfence => ?_⟩
    · have hfault : fetchFault o.fn cmd = none := by simp [fetchFault, firstFail, hop, hhead, hvf]
      simp only [exec, execCommandFetch, onUnit, hvalid, if_true]
      rw [if_pos hmay, hfault]
    · have hfault : fetchFault o.fn cmd = some 0x0101 := by
        have : (!decide (cmdOp cmd ∈ opcodes) || headerBad cmd) = true := by simpa using hbad
        simp [fetchFault, firstFail, this]
      have hnext : (r.fetched.isEmpty && (!bit cmd 8 || r.running.isEmpty)) = true := by simpa [hnone] using hfence
      simp only [exec, execCommandFetch, onUnit, hvalid, if_true]
      rw [if_pos hmay, hfault]
      exact congrArg _ (if_pos hnext)
    · have hfault : fetchFault o.fn cmd = some 0x0103 := by simp [fetchFault, firstFail, hop, hhead, hvf]
      have hnext : (r.fetched.isEmpty && (!bit cmd 8 || r.running.isEmpty)) = true := by simpa [hnone] using hfence
      simp only [exec, execCommandFetch, onUnit, hvalid, if_true]
      rw [if_pos hmay, hfault]
      exact congrArg _ (if_pos hnext)
  · have hmay : ¬(s.canPost o.fn && r.enable && r.cmdHead != r.cmdTail && r.room) = true := by grind
    simp only [exec, execCommandFetch, onUnit, hvalid, if_true]
    rw [if_neg hmay]
  · have hdue : (r.enable && r.coalUs != 0 && decide (0 < r.unsignalled)) = true := by simpa [hon, hcount] using hcoal
    simp only [exec, execCoalesceTimerExpiry, onUnit, hvalid, if_true]
    rw [if_pos hdue]

/-- Settles O24: every row listed is a host command with the opcode beside it. -/
theorem lowLadderTurnsCommandsAway : Obligations.LowLadderTurnsCommandsAway := by
  intro s o segs errs hvalid
  have hrows : ∀ e ∈ hostRows segs errs, TurnsAway s o e.2 (exec (e.1 o) s) := by
    simp only [hostRows, List.forall_mem_cons, List.not_mem_nil, false_imp_iff, implies_true, and_true]
    and_intros
    all_goals unfold exec
    all_goals first
      | exact turnsAway_hostCommand _ _ hvalid
      | exact turnsAway_save segs hvalid
  exact fun e he => ⟨(hrows e he).low, (hrows e he).notNext⟩

end

section
/-! ### The host link and the functions; the stages of start-up -/

namespace Sys2Proof.Machine

section
variable {s : State}

/-- A function number exists. -/
theorem fnOk_of_le {fn : Nat} (h : fn ≤ 32) : fnOk fn = true := decide_eq_true h

theorem vecOk_of_lt {fn vec : Nat} (hfn : fn ≤ 32) (hvec : vec < (if fn = 0 then 17 else 4)) : vecOk fn vec = true := by
  simp [vecOk, fnOk_of_le hfn, hvec]

theorem onUnit_of_ok {ok : Bool} (t : State) (h : ok = true) : onUnit ok t = .next t := if_pos h

/-! #### The launch image and the fuse map -/

theorem State.wantFlash_eq (s : State) : s.wantFlash = { s with su := { s.su with
    flashBusy := s.su.flashHoldN, stage := if s.su.flashHoldN then 0x03 else 0x04, stageShown := none } } := by
  unfold State.wantFlash
  cases s.su.flashHoldN <;> rfl

theorem State.slotFailed_last {slot : Bool} (st : Nat) (htries : s.su.tries = [slot]) : s.slotFailed st = s.halt st := by
  simp [State.slotFailed, htries]

theorem State.slotFailed_next {slot r : Bool} {rest : List Bool} (st : Nat) (htries : s.su.tries = slot :: r :: rest) :
    s.slotFailed st = (({ s with su := { s.su with tries := r :: rest } }).log { status := st } 2).wantFlash := by
  simp [State.slotFailed, htries]

theorem Fuses.gradeSpare_eq (g : BitVec 2) : gradeSpare g = if g = 0 then none else some (32 * (g.toNat - 1)) := by
  revert g; decide

/-- A core has one array at least: it is not so that both are off. -/
theorem bothOff_eq_false_iff (m : BitVec 512) (k : Nat) : (!bothOff m k) = true ↔ ¬(bit m (2 * k) = true ∧ bit m (2 * k + 1) = true) := by
  unfold bothOff
  cases bit m (2 * k) <;> cases bit m (2 * k + 1) <;> simp

theorem Fuses.consistent_iff (f : Fuses) : f.consistent = true ↔ f.grade ≠ 0 ∧ popCount f.arrayOff ≤ 32 * (f.grade.toNat - 1)
    ∧ ∀ k < 256, ¬(bit f.arrayOff (2 * k) = true ∧ bit f.arrayOff (2 * k + 1) = true) := by
  unfold Fuses.consistent
  have hspare := Fuses.gradeSpare_eq f.grade
  by_cases hgrade : f.grade = 0
  · rw [if_pos hgrade] at hspare
    simp only [hspare]
    simp [hgrade]
  · rw [if_neg hgrade] at hspare
    simp only [hspare, Bool.and_eq_true, decide_eq_true_eq, List.all_eq_true, List.mem_range, bothOff_eq_false_iff, hgrade, ne_eq,
      not_false_eq_true, true_and]

/-! #### Every port in turn -/

/-- A pass whose every step touches the port table alone touches no more. -/
theorem foldl_ports_only {f : State → Nat → State} (hf : ∀ t p, f t p = { t with lnk := { t.lnk with ports := (f t p).lnk.ports } })
    (l : List Nat) (s : State) : l.foldl f s = { s with lnk := { s.lnk with ports := (l.foldl f s).lnk.ports } } := by
  induction l generalizing s with
  | nil => rfl
  | cons p rest ih =>
    rw [List.foldl_cons, ih, hf s p]

theorem State.modPort_wf {s : State} (p : Nat) (f : Port → Port) (hwf : SMap.wf Port.blank s.lnk.ports = true) :
    SMap.wf Port.blank (s.modPort p f).lnk.ports = true := State.setPort_wf _ _ _ hwf

/-- What each port becomes in a pass over ports that names none of them twice. -/
theorem State.port_foldl_modPort (f : Nat → Port → Port) {l : List Nat} (hl : l.Nodup) {s : State}
    (hwf : SMap.wf Port.blank s.lnk.ports = true) (q : Nat) :
    (l.foldl (fun s p => s.modPort p (f p)) s).port q = if q ∈ l then f q (s.port q) else s.port q := by
  induction l generalizing s with
  | nil => rfl
  | cons p rest ih =>
    obtain ⟨hp, hrest⟩ := List.nodup_cons.mp hl
    rw [List.foldl_cons, ih hrest (State.modPort_wf p (f p) hwf)]
    by_cases hq : q = p
    · subst hq
      rw [if_neg hp, if_pos (List.mem_cons_self ..)]
      exact State.port_setPort _ _ _ hwf
    · have hport : (s.modPort p (f p)).port q = s.port q := State.port_setPort_ne _ _ _ _ hwf hq
      simp only [hport, List.mem_cons, hq, false_or]

/-! #### The start-up self-test -/

/-- More arrays are off than the grade may lack. -/
def State.short (s : State) : Bool := decide (popCount s.arraysOff > (gradeSpare s.fuses.grade).getD 0)

theorem State.gradeCheck_su (s : State) :
    s.gradeCheck.su = { s.su with belowGrade := s.short, status := if s.short then 0x0703 else s.su.status } := by
  unfold State.gradeCheck
  cases hshort : s.short <;> simp only [State.short] at hshort <;> simp [State.note, hshort]

@[simp] theorem State.gradeCheck_lnk (s : State) : s.gradeCheck.lnk = s.lnk := by
  unfold State.gradeCheck
  dsimp only
  split <;> simp [State.note]

/-- Start-up after its test took failing units out: degraded, published again, and checked against the grade. -/
def State.tested (s : State) : State :=
  ((((({ s with su := { s.su with degraded := true } } : State).publishArrays).note 0x0702).gradeCheck).toStage 0x08)

theorem State.tested_su (s : State) : s.tested.su = { s.su with
    degraded := true, published := some (512 - popCount s.arraysOff, s.arraysOff), belowGrade := s.short
    status := if s.short then 0x0703 else 0x0702, stage := 0x08, stageShown := none } := by
  have hshort (u : State) (hf : u.fuses = s.fuses) (ht : u.su.testedOff = s.su.testedOff) : u.short = s.short := by
    simp [State.short, State.arraysOff, hf, ht]
  unfold State.tested State.toStage
  dsimp only
  rw [State.gradeCheck_su, hshort _ (by simp [State.note, State.publishArrays]) (by simp [State.note, State.publishArrays])]
  simp [State.note, State.publishArrays, State.arraysOff]

@[simp] theorem State.tested_fuses (s : State) : s.tested.fuses = s.fuses := by simp [State.tested]

@[simp] theorem State.tested_lnk (s : State) : s.tested.lnk = s.lnk := by
  simp [State.tested, State.toStage, State.note, State.publishArrays]

theorem State.tested_arraysOff (s : State) : s.tested.arraysOff = s.arraysOff := by
  simp [State.arraysOff, State.tested_su]

@[simp] theorem State.takeOut_fullTest (s : State) (u : TestUnit) : (s.takeOut u).su.fullTest = s.su.fullTest := by
  unfold State.takeOut
  dsimp only
  (repeat' split) <;> rfl

theorem foldl_takeOut_fullTest (fails : List TestUnit) (s : State) : (fails.foldl State.takeOut s).su.fullTest = s.su.fullTest := by
  induction fails generalizing s with
  | nil => rfl
  | cons u rest ih => rw [List.foldl_cons, ih, State.takeOut_fullTest]

theorem State.takeOut_array_su (s : State) (k j : Nat) : (s.takeOut (.array k j)).su = { s.su with
    testedOff := setBit s.su.testedOff (2 * k + j)
    withheld := if bothOff (s.takeOut (.array k j)).arraysOff k then setBit s.su.withheld (k / 8) else s.su.withheld } := by
  have hoff : (s.takeOut (.array k j)).arraysOff = s.fuses.arrayOff ||| setBit s.su.testedOff (2 * k + j) := by
    simp only [State.takeOut, State.arraysOff]
    split <;> rfl
  rw [hoff]
  simp only [State.takeOut]
  split <;> rfl

/-- The full test is asked for by the owner's configuration. -/
def State.fullAsked (s : State) : Bool := (s.siteConfig.map fun m => m.byte 2 == 1).getD false

/-- Start-up with its test's depth noted. -/
def State.testing (s : State) : State := { s with su := { s.su with fullTest := s.fullAsked } }

theorem execStartupSelfTestComplete_eq {fails : List TestUnit} (hstage : s.su.stage = 0x07) (hvalid : fails.all TestUnit.valid = true)
    (htest : fails.all s.testable = true) : execStartupSelfTestComplete fails s = .next (
      if fails.any TestUnit.moduleWide then s.testing.halt 0x0701
      else if fails.isEmpty then s.testing.gradeCheck.toStage 0x08
      else (fails.foldl State.takeOut s.testing).tested) := by
  have hdue : ¬(s.su.stage != 0x07 || !fails.all s.testable) = true := by simp [hstage, htest]
  unfold execStartupSelfTestComplete
  extract_lets full
  have hfull : full = s.fullAsked := by
    simp only [full, State.fullAsked]
    cases s.siteConfig <;> rfl
  clear_value full
  subst hfull
  rw [onUnit_of_ok _ hvalid, if_neg hdue]
  rfl

/-! #### The memory stage and the entry to Ready -/

theorem execMemoryStageComplete_stack {k : Nat} (ballast : Bool) (hk : k < 12) (hstage : s.su.stage = 0x08) :
    execMemoryStageComplete (some k) ballast s = .next (if s.su.retriedStacks.contains k then s.halt 0x0301
      else { s with su := { s.su with retriedStacks := k :: s.su.retriedStacks } }) := by
  have hdue : ¬(s.su.stage != 0x08) = true := by simp [hstage]
  unfold execMemoryStageComplete
  rw [onUnit_of_ok _ (show decide ((some k).getD 0 < 12) = true from decide_eq_true hk), if_neg hdue]

theorem execMemoryStageComplete_ballast (hstage : s.su.stage = 0x08) :
    execMemoryStageComplete none true s = .next (if s.su.retriedBallast then s.halt 0x0302
      else { s with su := { s.su with retriedBallast := true } }) := by
  have hdue : ¬(s.su.stage != 0x08) = true := by simp [hstage]
  unfold execMemoryStageComplete
  rw [onUnit_of_ok _ (by decide), if_neg hdue]
  rfl

theorem execMemoryStageComplete_trained (hstage : s.su.stage = 0x08) :
    execMemoryStageComplete none false s = .next (({ s with
      su := { s.su with linksDriven := true }
      spn := { s.spn with ready := true, tiles := [], hashKey := (Config.freshKey s.free).truncate 128 } } : State).openPorts.toStage 0x09).tick := by
  have hdue : ¬(s.su.stage != 0x08) = true := by simp [hstage]
  unfold execMemoryStageComplete
  rw [onUnit_of_ok _ (by decide), if_neg hdue]
  rfl

theorem State.openPorts_eq (s : State) : s.openPorts = { s with lnk := { s.lnk with ports := s.openPorts.lnk.ports } } :=
  foldl_ports_only (fun _ _ => rfl) _ _

@[simp] theorem State.modCores_gon (s : State) (l : List Nat) (f : Nat → Core → Core) : (s.modCores l f).gon = s.gon := by
  unfold State.modCores
  induction l generalizing s with
  | nil => rfl
  | cons k rest ih => exact ih _

@[simp] theorem State.createDefaults_gon (s : State) (n : Nat) (l : List (W32 × Byte × Byte × Byte)) : (s.createDefaults n l).gon = s.gon := by
  induction l generalizing s n with
  | nil => rfl
  | cons e r ih =>
    unfold State.createDefaults
    dsimp only
    rw [ih]
    split
    · simp [State.note]
    · simp [State.createPartition]

@[simp] theorem State.fire_gon (s : State) (fn vec : Nat) : (s.fire fn vec).gon = s.gon := by
  unfold State.fire
  dsimp only
  (repeat' split) <;> rfl

@[simp] theorem State.fire_su (s : State) (fn vec : Nat) : (s.fire fn vec).su = s.su := by
  unfold State.fire
  dsimp only
  (repeat' split) <;> rfl

@[simp] theorem State.fire_parts (s : State) (fn vec : Nat) : (s.fire fn vec).parts = s.parts := by
  unfold State.fire
  dsimp only
  (repeat' split) <;> rfl

@[simp] theorem State.fire_cores (s : State) (fn vec : Nat) : (s.fire fn vec).cores = s.cores := by
  unfold State.fire
  dsimp only
  (repeat' split) <;> rfl

@[simp] theorem State.fire_vfsEnabled (s : State) (fn vec : Nat) : (s.fire fn vec).hif.vfsEnabled = s.hif.vfsEnabled := by
  unfold State.fire
  dsimp only
  (repeat' split) <;> rfl

theorem State.finishStartup_gon (s : State) : s.finishStartup.gon = { s.gon with ready := true } := by
  unfold State.finishStartup
  dsimp only
  (repeat' split) <;> simp [State.toStage, State.note]

theorem State.finishStartup_vfsEnabled (s : State) : s.finishStartup.hif.vfsEnabled = true := by
  unfold State.finishStartup
  dsimp only
  (repeat' split) <;> simp

theorem State.finishStartup_invalid (hinvalid : tableValid s.defaultTable = false) :
    s.finishStartup.su.status = 0x0201 ∧ s.finishStartup.parts = s.parts ∧ s.finishStartup.cores = s.cores := by
  have htable (g : Gon) : tableValid ({ s.toStage 0x0a with gon := g } : State).defaultTable = false := hinvalid
  unfold State.finishStartup
  dsimp only
  rw [htable, if_neg Bool.false_ne_true]
  (repeat' split) <;> simp [State.toStage, State.note]

end

end Sys2Proof.Machine

open Sys2Proof Sys2Proof.Machine

/-- Settles O20: each row with the function in reach and out of it. -/
theorem hostLinkAndFunctions : Obligations.HostLinkAndFunctions := by
  intro s
  refine ⟨fun fn hfn hreach => ⟨?read, fun on => ?enable, fun vec hvec => ?mask⟩, ?trained, ?down, ?downAlready, ?reach, ?unseen, ?seen, ?unmask,
    ?sent,
    ?held, ?disabled⟩
  case read => simp [exec, execConfigRequest, onUnit, fnOk_of_le hfn, hreach]
  case enable =>
    simp only [exec, execConfigRequest, onUnit, fnOk_of_le hfn, hreach, if_true]
    rfl
  case mask =>
    simp only [exec, execConfigRequest, onUnit, vecOk_of_lt hfn hvec, hreach, if_true]
    rfl
  case trained =>
    intro speed width flit hrail hout hlink hlow hhigh hwidth
    have hokw : (width == 1 || width == 2 || width == 4) = true := by grind
    simp only [exec, execHostLinkActive, hrail, hout, hlink, hlow, hhigh, hokw, decide_true, Bool.not_false, Bool.and_self, if_true]
  case down => exact fun hlink => ⟨unlistedCode 1, by simp only [exec, execHostLinkDown, State.hostLinkDown, hlink, if_true]⟩
  case downAlready => exact fun hlink => by simp [exec, execHostLinkDown, State.hostLinkDown, hlink]
  case reach => intro fn; simp [State.configReach, and_assoc]
  case unseen =>
    intro fn hfn hreach
    refine ⟨fun op hvec => ?_, ?_, ?_, ?_, fun vec hvec => ?_⟩
    · show execConfigRequest fn op s = .next s
      unfold execConfigRequest
      rw [hreach]
      cases op with
      | msixMask vec => exact onUnit_of_ok s (vecOk_of_lt hfn (hvec vec rfl))
      | read => exact onUnit_of_ok s (fnOk_of_le hfn)
      | msixEnable => exact onUnit_of_ok s (fnOk_of_le hfn)
    all_goals simp [exec, execFunctionLevelReset, execBusMasterDisable, execBusMasterEnable, execMsixUnmask, onUnit, fnOk_of_le hfn, hreach]
    exact vecOk_of_lt hfn hvec
  case seen =>
    intro fn hfn hreach
    refine ⟨?_, ?_, ?_⟩ <;>
      simp [exec, execFunctionLevelReset, execBusMasterDisable, execBusMasterEnable, onUnit, fnOk_of_le hfn, hreach, Func.pcieReset]
  case unmask =>
    intro fn vec hfn hreach hvec hwf
    let f : Func := { s.func fn with masked := clearBit (s.func fn).masked vec }
    have hpost : (s.setFunc fn f).canPost fn = s.canPost fn := by
      unfold State.canPost
      rw [State.func_setFunc _ _ _ hwf]
      rfl
    show onUnit (vecOk fn vec) (if s.configReach fn then (s.setFunc fn f).firePending fn vec else s) = _
    rw [onUnit_of_ok _ (vecOk_of_lt hfn hvec), hreach, if_pos rfl]
    unfold State.firePending
    rw [State.func_setFunc _ _ _ hwf, hpost]
    simp only [Bool.and_eq_true, Bool.not_eq_true', and_assoc]
    rfl
  case sent => exact fun fn vec hon hmask hpost => by simp [State.fire, hon, hmask, hpost]
  case held => exact fun fn vec hon hheld => by cases hheld <;> simp [State.fire, *]
  case disabled => exact fun fn vec hoff => by simp [State.fire, hoff]

/-- Settles O17: each row with its checks, and the consistent fuse map grade by grade. -/
theorem imageAndFuseStages : Obligations.ImageAndFuseStages := by
  intro s
  refine ⟨?read, ?noCandidate, fun st slot => State.slotFailed_last st, ?next, ?unreadable, ?inconsistent, ?fuses, Fuses.consistent_iff _⟩
  case read =>
    intro slot rest hbusy hrails hstage htries
    have hdue : ¬(!(s.su.flashBusy && s.su.rails && s.su.stage == 0x03)) = true := by simp [hbusy, hrails, hstage]
    refine ⟨?_, ?_⟩
    all_goals
      simp only [exec, execFlashReadComplete]
      rw [if_neg hdue, htries]
    · rfl
    · show Host.Outcome.next (match imageFault s.fuses (slotImage s.flash slot) with
        | some st => s.slotFailed st
        | none => _) = _
      cases imageFault s.fuses (slotImage s.flash slot) <;> rfl
  case noCandidate =>
    intro ok hbusy hrails hstage htries
    have hdue : ¬(!(s.su.flashBusy && s.su.rails && s.su.stage == 0x03)) = true := by simp [hbusy, hrails, hstage]
    simp only [exec, execFlashReadComplete]
    rw [if_neg hdue, htries]
    rfl
  case next =>
    intro st slot r rest htries
    refine ⟨_, rfl, ?_⟩
    rw [State.slotFailed_next st htries, State.wantFlash_eq, State.log_su]
  case unreadable => exact fun hstage => by simp [exec, execFuseMapRead, hstage]
  case inconsistent => exact fun hstage hbad => by simp [exec, execFuseMapRead, hstage, hbad]
  case fuses =>
    intro hstage hgood
    simp [exec, execFuseMapRead, hstage, hgood, State.publishArrays, State.arraysOff, State.emit, State.toStage]

/-- Settles O18: what the failing units take out, and then what a test that found any leaves. -/
theorem startupSelfTest : Obligations.StartupSelfTest := by
  intro s hstage full v short
  have hv : s.testing = v := rfl
  have hexec {fails : List TestUnit} (hvalid : fails.all TestUnit.valid = true) (htest : fails.all s.testable = true) :=
    execStartupSelfTestComplete_eq hstage hvalid htest
  have hwide {fails : List TestUnit} (hvalid : fails.all TestUnit.valid = true) (htest : fails.all s.testable = true)
      (h : fails.any TestUnit.moduleWide = true) : exec (.startupSelfTestComplete fails) s = .next (v.halt 0x0701) :=
    (hexec hvalid htest).trans (by rw [if_pos h]; rfl)
  have hsome {fails : List TestUnit} (hvalid : fails.all TestUnit.valid = true) (htest : fails.all s.testable = true)
      (h : fails.any TestUnit.moduleWide = false) (hne : fails ≠ []) :
      exec (.startupSelfTestComplete fails) s = .next (fails.foldl State.takeOut v).tested :=
    (hexec hvalid htest).trans (by rw [h, if_neg Bool.false_ne_true, if_neg (by simpa using hne)]; rfl)
  have hnone : exec (.startupSelfTestComplete []) s = .next (v.gradeCheck.toStage 0x08) := hexec rfl rfl
  refine ⟨fun hshort => ?fine, fun hshort => ⟨_, hnone, ?below⟩, fun fails => hwide, fun fails hvalid htest hnot hne => ⟨_,
    hsome hvalid htest hnot hne, ?failed⟩,
    ?blocks, ?router, ?tether, ?core, ?array, ?port⟩
  case fine =>
    have hs : decide (popCount v.arraysOff > (gradeSpare v.fuses.grade).getD 0) = false := hshort
    rw [hnone]
    unfold State.gradeCheck
    rw [hs]
    rfl
  case below =>
    have hs : v.short = true := hshort
    show ({ v.gradeCheck.su with stage := 0x08, stageShown := none } : Startup) = _
    rw [State.gradeCheck_su, hs]
    rfl
  case failed =>
    have hfuses : (fails.foldl State.takeOut v).fuses = s.fuses := foldl_fuses _ (by simp) _ _
    have hshort : short (fails.foldl State.takeOut v).tested = (fails.foldl State.takeOut v).short := by
      simp only [short, State.short, State.tested_arraysOff, hfuses]
    have hfull : (fails.foldl State.takeOut v).su.fullTest = full := foldl_takeOut_fullTest _ _
    rw [hshort, State.tested_arraysOff, State.tested_su, State.tested_fuses]
    exact ⟨rfl, rfl, hfull, rfl, rfl, rfl, hfuses⟩
  case blocks =>
    intro u hu
    have hu : u = .spanCtl ∨ u = .security ∨ u = .hostIf := by simpa using hu
    rcases hu with rfl | rfl | rfl <;> exact hwide rfl rfl rfl
  case router => exact fun k hk => hwide (by simpa [TestUnit.valid] using hk) rfl rfl
  case tether => exact fun n hn => hwide (by simpa [TestUnit.valid] using hn) rfl rfl
  case core =>
    intro k hk u hu
    have hu : u = .vector k ∨ u = .coreStore k ∨ u = .instrStore k := by simpa using hu
    have hvalid : [u].all TestUnit.valid = true := by rcases hu with rfl | rfl | rfl <;> simpa [TestUnit.valid] using hk
    refine ⟨_, hsome hvalid (by rcases hu with rfl | rfl | rfl <;> rfl) (by rcases hu with rfl | rfl | rfl <;> rfl) (List.cons_ne_nil _ _), ?_⟩
    rw [State.tested_su]
    rcases hu with rfl | rfl | rfl <;> exact ⟨rfl, rfl, rfl, rfl⟩
  case array =>
    intro k j hk hj hon
    refine ⟨_, hsome (by simp [TestUnit.valid, hk, hj]) (by simp [State.testable, hon]) rfl (List.cons_ne_nil _ _), ?_⟩
    rw [State.tested_arraysOff, State.tested_su]
    have hsu := State.takeOut_array_su v k j
    show _ ∧ _ ∧ (v.takeOut (.array k j)).su.testedOff = _ ∧ (_ → (v.takeOut (.array k j)).su.withheld = _)
      ∧ (_ → (v.takeOut (.array k j)).su.withheld = _)
    rw [hsu]
    exact ⟨rfl, rfl, rfl, fun hboth => if_pos hboth, fun hboth => if_neg (Bool.eq_false_iff.mp hboth)⟩
  case port =>
    intro p hp hwf
    refine ⟨_, hsome (by simpa [TestUnit.valid] using hp) rfl rfl (List.cons_ne_nil _ _), ?_⟩
    have hport (q : Nat) : ([TestUnit.link p].foldl State.takeOut v).tested.port q
        = (v.setPort p { v.port p with testHold := true, st := .held, status := 0x0702 }).port q := by
      simp only [State.port, State.tested_lnk]
      rfl
    rw [State.tested_su]
    refine ⟨rfl, rfl, rfl, ?_, fun q hq => ?_⟩
    · exact (hport p).trans (State.port_setPort v p _ hwf)
    · exact (hport q).trans (State.port_setPort_ne v p q _ hwf hq)

/-- Settles O19: the memory stage's four outcomes, the link stage's two ends, and what the entry to Ready leaves. -/
theorem memoryAndLinkStages : Obligations.MemoryAndLinkStages := by
  intro s
  refine ⟨fun k hk hstage hnew b => ?retry, fun k hk hstage hnew b => ?stackFails, fun hstage hnew => ?retryBallast, fun hstage hnew => ?ballastFails,
    fun hstage => ⟨_, execMemoryStageComplete_trained hstage, ?trained⟩, fun hstage hall => ?settled, fun hstage => ?late, ?ready,
      State.finishStartup_gon s,
    State.finishStartup_vfsEnabled s, State.finishStartup_invalid⟩
  case retry => exact (execMemoryStageComplete_stack b hk hstage).trans (by simp only [hnew, Bool.false_eq_true, if_false])
  case stackFails => exact (execMemoryStageComplete_stack b hk hstage).trans (by simp only [hnew, if_true])
  case retryBallast => exact (execMemoryStageComplete_ballast hstage).trans (by simp only [hnew, Bool.false_eq_true, if_false])
  case ballastFails => exact (execMemoryStageComplete_ballast hstage).trans (by simp only [hnew, if_true])
  case trained =>
    rw [State.openPorts_eq]
    exact ⟨rfl, rfl, rfl⟩
  case settled =>
    have hdone : (s.su.stage == 0x09 && (List.range 18).all fun p => (s.port p).settled) = true := by
      simpa [hstage] using hall
    simp only [exec, execLinkStageEnd]
    rw [if_pos hdone]
  case late =>
    refine ⟨_, by simp only [exec, execLinkStageTimeout]; rw [if_pos (by simp [hstage])], ?_, fun hwf p hp => ?_⟩
    · exact foldl_ports_only (fun _ _ => rfl) _ _
    · have hport := State.port_foldl_modPort (fun _ x => if x.settled then x else { x with wasAway := true }) (l := List.range 18) List.nodup_range
          hwf p
      rw [if_pos (List.mem_range.mpr hp)] at hport
      exact hport
  case ready => exact congrArg Startup.stage (State.finishStartup_power s)

end

section
/-! PROOFS. Registers (O25, O26): the rule of a register written, addresses that no write acts on, supplies brought into their range. -/

/-! ### Registers: what a write leaves as it was, what a read of another address shows -/

namespace Sys2Proof.Machine

/-! #### Fields of a register -/

theorem setWidth_bits (n : Nat) (v : W32) : (bits v 0 n).setWidth 32 = v &&& BitVec.ofNat 32 (2 ^ n - 1) := by
  apply BitVec.eq_of_getLsbD_eq
  intro i hi
  have hmask : (BitVec.ofNat 32 (2 ^ n - 1)).getLsbD i = decide (i < n) := by
    rw [BitVec.getLsbD_ofNat, Nat.testBit_two_pow_sub_one]
    simp [hi]
  rw [BitVec.getLsbD_and, hmask]
  simp [bits, hi]
  cases decide (i < n) <;> simp

/-- Bits written 1 leave an event register. -/
theorem setWidth_clear {n : Nat} (x : BitVec n) (v : W32) : (x &&& ~~~(bits v 0 n)).setWidth 32 = x.setWidth 32 &&& ~~~v := by
  apply BitVec.eq_of_getLsbD_eq
  intro i hi
  simp only [BitVec.getLsbD_setWidth, BitVec.getLsbD_and, BitVec.getLsbD_not, bits, BitVec.getLsbD_extractLsb']
  by_cases hin : i < n
  · simp [hi, hin]
  · simp [BitVec.getLsbD_of_ge x i (by omega)]

/-! #### Addresses that no row acts on -/

section
variable {s : State} (v : W32)

theorem State.writeRing_other {fn off : Nat} (h : off ∉ [0x40, 0x44, 0x48, 0x4c, 0x50]) : s.writeRing fn off v = s := by
  simp only [List.mem_cons, List.not_mem_nil, or_false, not_or] at h
  simp only [State.writeRing, h, if_false, ite_self]

theorem State.writeHif_other {off : Nat} (h : off ∉ [0x0c, 0x10, 0x14, 0x40, 0x44, 0x48, 0x4c, 0x50]) : s.writeHif off v = s := by
  simp only [List.mem_cons, List.not_mem_nil, or_false, not_or] at h
  simp only [State.writeHif, State.writeRing, h, if_false, ite_self]

theorem State.writeTet_other {off : Nat} (h : off ∉ [0x40, 0x80]) : s.writeTet off v = s := by
  simp only [List.mem_cons, List.not_mem_nil, or_false, not_or] at h
  simp only [State.writeTet, h, if_false]

theorem State.writeSpn_other {off : Nat} (h : off ∉ [0x08, 0x0c, 0x24, 0x40, 0x54, 0x58]) : s.writeSpn off v = s := by
  simp only [List.mem_cons, List.not_mem_nil, or_false, not_or] at h
  simp only [State.writeSpn, h, if_false]

theorem State.writeLnk_other {off : Nat} (h : off ∉ [0x08, 0x0c, 0x10, 0x40, 0x5c]) : s.writeLnk off v = s := by
  simp only [List.mem_cons, List.not_mem_nil, or_false, not_or] at h
  simp only [State.writeLnk, h, if_false]

theorem State.writeGon_other {off : Nat} (h : off ∉ [0x08, 0x0c, 0x80]) : s.writeGon off v = s := by
  simp only [List.mem_cons, List.not_mem_nil, or_false, not_or] at h
  simp only [State.writeGon, h, if_false]

theorem State.writeSec_other {off : Nat} (h : off ∉ [0x08, 0x0c, 0x40]) : s.writeSec off v = s := by
  simp only [List.mem_cons, List.not_mem_nil, or_false, not_or] at h
  simp only [State.writeSec, h, if_false]

theorem State.writePwr_other {off : Nat} (h : off ∉ [0x08, 0x0c, 0x14, 0x40, 0x44, 0x80]) : s.writePwr off v = s := by
  simp only [List.mem_cons, List.not_mem_nil, or_false, not_or] at h
  simp only [State.writePwr, h, if_false]

theorem State.writeMgt_other {off : Nat} (h : off ∉ [0x0c, 0x40, 0x44, 0x50, 0x54]) : s.writeMgt off v = s := by
  simp only [List.mem_cons, List.not_mem_nil, or_false, not_or] at h
  simp only [State.writeMgt, h, if_false]

/-- The addresses that a write acts on. -/
def actedRegs : List Nat := writableRegs.map (·.1) ++ eventRegs ++ ringRegs ++ selectedRegs

/-- The offset in its block of an address that is not among those that matter is not among the block's. -/
theorem offset_not_mem {a b : Nat} {all l : List Nat} (ha : a ∉ all) (hb : a / 0x10000 = b) (hl : ∀ off ∈ l, 0x10000 * b + off ∈ all) :
    a % 0x10000 ∉ l := fun hoff => ha (by
  have hmem := hl _ hoff
  rwa [← hb, Nat.div_add_mod] at hmem)

/-- A write of an address that is no register's, or only shows something, changes nothing. -/
theorem State.writePf_other {a : Nat} (ha : a ∉ actedRegs) : s.writePf a v = s := by
  unfold State.writePf
  dsimp only
  (repeat' split)
  · exact State.writeHif_other v (offset_not_mem ha ‹_› (by decide))
  · exact State.writeTet_other v (offset_not_mem ha ‹_› (by decide))
  · exact State.writeSpn_other v (offset_not_mem ha ‹_› (by decide))
  · exact State.writeLnk_other v (offset_not_mem ha ‹_› (by decide))
  · exact State.writeGon_other v (offset_not_mem ha ‹_› (by decide))
  · exact State.writeSec_other v (offset_not_mem ha ‹_› (by decide))
  · exact State.writePwr_other v (offset_not_mem ha ‹_› (by decide))
  · exact State.writeMgt_other v (offset_not_mem ha ‹_› (by decide))
  · rfl

theorem State.hifReg_other {off : Nat} (h : off ∉ [0x00, 0x04, 0x08, 0x0c, 0x10, 0x14, 0x18, 0x40, 0x44, 0x48, 0x4c, 0x50, 0x54,
    0x58]) : s.hifReg off = 0 := by
  simp only [List.mem_cons, List.not_mem_nil, or_false, not_or] at h
  simp only [State.hifReg, State.ringReg, h, if_false]

theorem State.tetReg_other {off : Nat} (h : off ∉ [0x00, 0x40, 0x44, 0x48, 0x4c, 0x50, 0x80, 0x84]) : s.tetReg off = 0 := by
  simp only [List.mem_cons, List.not_mem_nil, or_false, not_or] at h
  simp only [State.tetReg, h, if_false]

theorem State.spnReg_other {off : Nat} (h : off ∉ [0x00, 0x04, 0x08, 0x0c, 0x10, 0x14, 0x18, 0x1c, 0x20, 0x24, 0x40, 0x44, 0x48, 0x4c, 0x50, 0x54,
    0x58]) : s.spnReg off = 0 := by
  simp only [List.mem_cons, List.not_mem_nil, or_false, not_or] at h
  simp only [State.spnReg, h, if_false]

theorem State.lnkReg_other {off : Nat} (h : off ∉ [0x00, 0x04, 0x08, 0x0c, 0x10, 0x14, 0x18, 0x40, 0x44, 0x48, 0x4c, 0x50, 0x54, 0x58,
    0x5c]) : s.lnkReg off = 0 := by
  simp only [List.mem_cons, List.not_mem_nil, or_false, not_or] at h
  simp only [State.lnkReg, h, if_false, ite_self]

theorem State.gonReg_other {off : Nat} (h : off ∉ [0x00, 0x04, 0x08, 0x0c, 0x10, 0x14, 0x18,
    0x80]) (h1 : ¬(0x40 ≤ off ∧ off ≤ 0x6c)) (h2 : ¬(0x100 ≤ off ∧ off ≤ 0x1fc)) : s.gonReg off = 0 := by
  simp only [List.mem_cons, List.not_mem_nil, or_false, not_or] at h
  simp only [State.gonReg, h, h1, h2, if_false]

theorem State.secReg_other {off : Nat} (h : off ∉ [0x00, 0x04, 0x08, 0x0c, 0x10, 0x14, 0x18, 0x1c, 0x20, 0x24, 0x28, 0x2c, 0x40, 0x44, 0x48, 0x4c,
    0x50, 0x54]) : s.secReg off = 0 := by
  simp only [List.mem_cons, List.not_mem_nil, or_false, not_or] at h
  simp only [State.secReg, h, if_false]

theorem State.pwrReg_other {off : Nat} (h : off ∉ [0x00, 0x04, 0x08, 0x0c, 0x10, 0x14, 0x18, 0x1c, 0x20, 0x24, 0x28, 0x2c, 0x40, 0x44, 0x80,
    0x84]) : s.pwrReg off = 0 := by
  simp only [List.mem_cons, List.not_mem_nil, or_false, not_or] at h
  simp only [State.pwrReg, h, if_false]

theorem State.mgtReg_other {off : Nat} (h : off ∉ [0x00, 0x04, 0x08, 0x0c, 0x10, 0x40, 0x44, 0x48, 0x4c,
    0x50]) (h1 : ¬(0x100 ≤ off ∧ off ≤ 0x13c)) : s.mgtReg off = 0 := by
  simp only [List.mem_cons, List.not_mem_nil, or_false, not_or] at h
  simp only [State.mgtReg, h, h1, if_false]

/-- An address that is no register's reads 0. -/
theorem State.pfReg_other {a : Nat} (ha : a ∉ actedRegs ++ readOnlyRegs) (hbase : ¬(0x40040 ≤ a ∧ a ≤ 0x4006c))
    (hgon : ¬(0x40100 ≤ a ∧ a ≤ 0x401fc)) (hlog : ¬(0x70100 ≤ a ∧ a ≤ 0x7013c)) : s.pfReg a = 0 := by
  unfold State.pfReg
  dsimp only
  (repeat' split)
  · exact State.hifReg_other (offset_not_mem ha ‹_› (by decide))
  · exact State.tetReg_other (offset_not_mem ha ‹_› (by decide))
  · exact State.spnReg_other (offset_not_mem ha ‹_› (by decide))
  · exact State.lnkReg_other (offset_not_mem ha ‹_› (by decide))
  · exact State.gonReg_other (offset_not_mem ha ‹_› (by decide)) (by omega) (by omega)
  · exact State.secReg_other (offset_not_mem ha ‹_› (by decide))
  · exact State.pwrReg_other (offset_not_mem ha ‹_› (by decide))
  · exact State.mgtReg_other (offset_not_mem ha ‹_› (by decide)) (by omega)
  · rfl

end

end Sys2Proof.Machine
end

section
namespace Sys2Proof.Machine

section
variable {s : State} (v : W32)

/-! #### Supplies brought into their range -/

/-- A core with its supply brought into the range of its policy. -/
def State.fitted (s : State) (k : Nat) (c : Core) : Core :=
  { c with supply := BitVec.ofNat 6 (max (s.floorOf k) (min (s.ceilingOf k) c.supply.toNat)) }

theorem State.fitSupply_eq (s : State) (k : Nat) : s.fitSupply k = s.setCore k (s.fitted k (s.core k)) := rfl

/-- What brings a core's supply into range reads the partitions, the power block and, of the core, no supply. -/
theorem State.range_congr {t u : State} {k : Nat} (hparts : t.parts = u.parts) (haloft : (t.core k).aloft = (u.core k).aloft) :
    t.policyOf k = u.policyOf k ∧ t.floorOf k = u.floorOf k := by
  have hpart (n : Nat) : t.part n = u.part n := by simp only [State.part, hparts]
  have hpolicy : t.policyOf k = u.policyOf k := by simp only [State.policyOf, State.partOf, hpart, haloft]
  exact ⟨hpolicy, by simp only [State.floorOf, hpolicy]⟩

theorem State.ceilingOf_congr {t u : State} {k : Nat} (hparts : t.parts = u.parts) (hpwr : t.pwr = u.pwr)
    (haloft : (t.core k).aloft = (u.core k).aloft) (hcut : (t.core k).ceilingCut = (u.core k).ceilingCut) : t.ceilingOf k = u.ceilingOf k := by
  obtain ⟨hpolicy, hfloor⟩ := State.range_congr hparts haloft
  simp only [State.ceilingOf, hpolicy, hfloor, hpwr, hcut]

theorem State.foldl_fitSupply_eq (l : List Nat) (s : State) :
    l.foldl State.fitSupply s = { s with cores := (l.foldl State.fitSupply s).cores } := by
  induction l generalizing s with
  | nil => rfl
  | cons k rest ih => exact ih _

theorem State.core_foldl_fitSupply {l : List Nat} (hl : l.Nodup) {s : State} (hwf : SMap.wf Core.blank s.cores = true) {j : Nat} (hj : j ∈ l) :
    (l.foldl State.fitSupply s).core j = s.fitted j (s.core j) := by
  have hout {l : List Nat} {s : State} (hwf : SMap.wf Core.blank s.cores = true) (hj : j ∉ l) : (l.foldl State.fitSupply s).core j = s.core j := by
    induction l generalizing s with
    | nil => rfl
    | cons k rest ih =>
      obtain ⟨hjk, hrest⟩ := not_or.mp (List.mem_cons.not.mp hj)
      have hwf' : SMap.wf Core.blank (s.fitSupply k).cores = true := State.setCore_wf _ _ _ hwf
      rw [List.foldl_cons, ih hwf' hrest]
      exact State.core_setCore_ne _ _ _ _ hwf hjk
  induction l generalizing s with
  | nil => cases hj
  | cons k rest ih =>
    obtain ⟨hk, hrest⟩ := List.nodup_cons.mp hl
    have hwf' : SMap.wf Core.blank (s.fitSupply k).cores = true := State.setCore_wf _ _ _ hwf
    rw [List.foldl_cons]
    by_cases hjk : j = k
    · subst hjk
      rw [hout hwf' hk]
      exact State.core_setCore _ _ _ hwf
    · have hcore : (s.fitSupply k).core j = s.core j := State.core_setCore_ne _ _ _ _ hwf hjk
      have hrange := State.range_congr (t := s.fitSupply k) (u := s) (k := j) rfl (by rw [hcore])
      have hceiling := State.ceilingOf_congr (t := s.fitSupply k) (u := s) (k := j) rfl rfl (by rw [hcore]) (by rw [hcore])
      rw [ih hrest hwf' ((List.mem_cons.mp hj).resolve_left hjk), hcore]
      simp only [State.fitted, hrange.2, hceiling]

/-! #### A write of a register that holds what is written -/

theorem execRegisterWrite_pf (hreach : s.hostReach 0 = true) {a : W32} (hcfg : a ≠ 0x54) :
    exec (.registerWrite 0 a v) s = .next (s.writePf a.toNat v) := by
  simp only [exec, execRegisterWrite, fnOk, State.mmio, hreach]
  rw [if_neg (by decide), if_neg hcfg, if_neg (by decide)]
  exact if_pos trivial

/-- The registers that a write holds or clears bits of. -/
def plainRegs : List Nat := writableRegs.map (·.1) ++ eventRegs

/-- What a write of such a register leaves as it was, its core's supplies apart. -/
structure RegKept (s t : State) : Prop where
  parts : t.parts = s.parts
  ports : t.lnk.ports = s.lnk.ports
  tiles : t.spn.tiles = s.spn.tiles
  gondolas : t.gon.table = s.gon.table
  rings : t.hif.rings = s.hif.rings
  fuses : t.fuses = s.fuses
  flash : t.flash = s.flash
  su : t.su = s.su
  outbox : t.outbox = s.outbox

/-- The registers that a write holds or clears bits of, with what each shows. -/
def State.plainList (s : State) : List (Nat × W32) :=
  [(0x00010, s.hif.eventEn.setWidth 32), (0x00014, s.hif.evtRing.setWidth 32), (0x10040, s.tetPsel.setWidth 32), (0x10080, s.tetCsel.setWidth 32),
    (0x2000c, s.spn.eventEn.setWidth 32), (0x20024, s.spn.period.setWidth 32), (0x20040, s.spn.psel.setWidth 32), (0x3000c,
      s.lnk.eventEn.setWidth 32), (0x30010, s.lnk.wdog.setWidth 32), (0x30040, s.lnk.psel.setWidth 32), (0x4000c, s.gon.eventEn.setWidth 32),
        (0x40080, s.gon.sel.setWidth 32), (0x5000c, s.sec.eventEn.setWidth 32), (0x50040, s.sec.psel.setWidth 32), (0x6000c,
          s.pwr.eventEn.setWidth 32), (0x60014, s.pwr.vmax.setWidth 32), (0x60040, s.pwr.psel.setWidth 32), (0x60080, s.pwr.csel.setWidth 32),
            (0x7000c, s.mgt.logSel), (0x70040, s.mgt.psel.setWidth 32), (0x0000c, s.hif.event.setWidth 32), (0x20008, s.spn.event.setWidth 32),
              (0x30008, s.lnk.event.setWidth 32), (0x40008, s.gon.event.setWidth 32), (0x50008, s.sec.event.setWidth 32), (0x60008,
                s.pwr.event.setWidth 32)]

theorem State.plainList_keys (s : State) : s.plainList.map (·.1) = plainRegs := rfl

theorem State.pfReg_of_mem_plainList {s : State} : ∀ e ∈ s.plainList, s.pfReg e.1 = e.2 := by
  simp only [State.plainList, List.forall_mem_cons, List.not_mem_nil, false_imp_iff, implies_true, and_true]
  and_intros <;> rfl

/-- `x` is the value that register `a` shows after a write that changes this register alone. -/
def RegSet (s t : State) (a : Nat) (x : W32) : Prop := t.plainList = s.plainList.map fun e => if e.1 = a then (a, x) else e

theorem RegSet.shows {t : State} {a : Nat} {x : W32} (h : RegSet s t a x) (ha : a ∈ plainRegs) : t.pfReg a = x := by
  rw [← State.plainList_keys s] at ha
  obtain ⟨e, he, rfl⟩ := List.mem_map.mp ha
  refine State.pfReg_of_mem_plainList (e.1, x) ?_
  rw [h]
  exact List.mem_map.mpr ⟨e, he, if_pos rfl⟩

theorem RegSet.others {t : State} {a : Nat} {x : W32} (h : RegSet s t a x) {a' : Nat} (ha : a' ∈ plainRegs) (hne : a' ≠ a) :
    t.pfReg a' = s.pfReg a' := by
  rw [← State.plainList_keys s] at ha
  obtain ⟨e, he, rfl⟩ := List.mem_map.mp ha
  rw [State.pfReg_of_mem_plainList e he]
  refine State.pfReg_of_mem_plainList e ?_
  rw [h]
  exact List.mem_map.mpr ⟨e, he, if_neg hne⟩

/-- A write that changes one register, brings no supply into range, and keeps the rest. -/
structure RegWritten (s t : State) (a : Nat) (x : W32) : Prop where
  set : RegSet s t a x
  cores : t.cores = s.cores
  kept : RegKept s t

theorem execRegisterWrite_field (hreach : s.hostReach 0 = true) : ∀ e ∈ writableRegs, e.1 ≠ 0x60014 →
    ∃ t, exec (.registerWrite 0 (BitVec.ofNat 32 e.1) v) s = .next t ∧ RegWritten s t e.1 (v &&& BitVec.ofNat 32 e.2) := by
  have written {a : W32} {n : Nat} (hcfg : a ≠ 0x54) (hset : RegSet s (s.writePf a.toNat v) a.toNat ((bits v 0 n).setWidth 32))
      (hcores : (s.writePf a.toNat v).cores = s.cores) (hkept : RegKept s (s.writePf a.toNat v)) :
      ∃ t, exec (.registerWrite 0 a v) s = .next t ∧ RegWritten s t a.toNat (v &&& BitVec.ofNat 32 (2 ^ n - 1)) := by
    refine ⟨_, execRegisterWrite_pf v hreach hcfg, ?_, hcores, hkept⟩
    rwa [← setWidth_bits]
  simp only [writableRegs, List.forall_mem_cons, List.not_mem_nil, false_imp_iff, implies_true, and_true]
  and_intros
  · exact fun _ => written (a := 0x00010) (n := 2) (by decide) rfl rfl ⟨rfl, rfl, rfl, rfl, rfl, rfl, rfl, rfl, rfl⟩
  · exact fun _ => written (a := 0x00014) (n := 4) (by decide) rfl rfl ⟨rfl, rfl, rfl, rfl, rfl, rfl, rfl, rfl, rfl⟩
  · exact fun _ => written (a := 0x10040) (n := 5) (by decide) rfl rfl ⟨rfl, rfl, rfl, rfl, rfl, rfl, rfl, rfl, rfl⟩
  · exact fun _ => written (a := 0x10080) (n := 8) (by decide) rfl rfl ⟨rfl, rfl, rfl, rfl, rfl, rfl, rfl, rfl, rfl⟩
  · exact fun _ => written (a := 0x2000c) (n := 5) (by decide) rfl rfl ⟨rfl, rfl, rfl, rfl, rfl, rfl, rfl, rfl, rfl⟩
  · exact fun _ => written (a := 0x20024) (n := 5) (by decide) rfl rfl ⟨rfl, rfl, rfl, rfl, rfl, rfl, rfl, rfl, rfl⟩
  · exact fun _ => written (a := 0x20040) (n := 5) (by decide) rfl rfl ⟨rfl, rfl, rfl, rfl, rfl, rfl, rfl, rfl, rfl⟩
  · exact fun _ => written (a := 0x3000c) (n := 6) (by decide) rfl rfl ⟨rfl, rfl, rfl, rfl, rfl, rfl, rfl, rfl, rfl⟩
  · exact fun _ => written (a := 0x30010) (n := 10) (by decide) rfl rfl ⟨rfl, rfl, rfl, rfl, rfl, rfl, rfl, rfl, rfl⟩
  · exact fun _ => written (a := 0x30040) (n := 5) (by decide) rfl rfl ⟨rfl, rfl, rfl, rfl, rfl, rfl, rfl, rfl, rfl⟩
  · exact fun _ => written (a := 0x4000c) (n := 4) (by decide) rfl rfl ⟨rfl, rfl, rfl, rfl, rfl, rfl, rfl, rfl, rfl⟩
  · exact fun _ => written (a := 0x40080) (n := 14) (by decide) rfl rfl ⟨rfl, rfl, rfl, rfl, rfl, rfl, rfl, rfl, rfl⟩
  · exact fun _ => written (a := 0x5000c) (n := 4) (by decide) rfl rfl ⟨rfl, rfl, rfl, rfl, rfl, rfl, rfl, rfl, rfl⟩
  · exact fun _ => written (a := 0x50040) (n := 5) (by decide) rfl rfl ⟨rfl, rfl, rfl, rfl, rfl, rfl, rfl, rfl, rfl⟩
  · exact fun _ => written (a := 0x6000c) (n := 3) (by decide) rfl rfl ⟨rfl, rfl, rfl, rfl, rfl, rfl, rfl, rfl, rfl⟩
  · exact fun h => absurd rfl h
  · exact fun _ => written (a := 0x60040) (n := 5) (by decide) rfl rfl ⟨rfl, rfl, rfl, rfl, rfl, rfl, rfl, rfl, rfl⟩
  · exact fun _ => written (a := 0x60080) (n := 8) (by decide) rfl rfl ⟨rfl, rfl, rfl, rfl, rfl, rfl, rfl, rfl, rfl⟩
  · exact fun _ => ⟨_, execRegisterWrite_pf v hreach (by decide), show RegSet s _ _ (v &&& BitVec.allOnes 32) by rw [BitVec.and_allOnes]; rfl, rfl,
      ⟨rfl, rfl, rfl, rfl, rfl, rfl, rfl, rfl, rfl⟩⟩
  · exact fun _ => written (a := 0x70040) (n := 5) (by decide) rfl rfl ⟨rfl, rfl, rfl, rfl, rfl, rfl, rfl, rfl, rfl⟩

/-- A write of PWR_VMAX, which also brings every core's supply into its range. -/
theorem execRegisterWrite_vmax (hreach : s.hostReach 0 = true) :
    ∃ t, exec (.registerWrite 0 0x60014 v) s = .next t ∧ RegSet s t 0x60014 (v &&& 0x7f) ∧ RegKept s t
      ∧ (SMap.wf Core.blank s.cores = true → ∀ k < 256, t.core k = { s.core k with
            supply := BitVec.ofNat 6 (max (s.floorOf k) (min (t.ceilingOf k) (s.core k).supply.toNat)) }) := by
  let u : State := { s with pwr := { s.pwr with vmax := bits v 0 7 } }
  have ht : s.writePf (0x60014 : W32).toNat v = (List.range 256).foldl State.fitSupply u := rfl
  refine ⟨_, (execRegisterWrite_pf v hreach (by decide)).trans (by rw [ht]), ?_, ?_, fun hwf k hk => ?_⟩
  · show RegSet s _ _ (v &&& BitVec.ofNat 32 (2 ^ 7 - 1))
    rw [State.foldl_fitSupply_eq, ← setWidth_bits]
    rfl
  · rw [State.foldl_fitSupply_eq]
    exact ⟨rfl, rfl, rfl, rfl, rfl, rfl, rfl, rfl, rfl⟩
  · have hcore := State.core_foldl_fitSupply (s := u) List.nodup_range hwf (List.mem_range.mpr hk)
    have heq := State.foldl_fitSupply_eq (List.range 256) u
    have hceiling : ((List.range 256).foldl State.fitSupply u).ceilingOf k = u.ceilingOf k :=
      State.ceilingOf_congr (by rw [heq]) (by rw [heq]) (by rw [hcore]; rfl) (by rw [hcore]; rfl)
    have hfloor : u.floorOf k = s.floorOf k := (State.range_congr (t := u) (u := s) rfl rfl).2
    rw [hcore, hceiling, ← hfloor]
    rfl

theorem execRegisterWrite_event (hreach : s.hostReach 0 = true) : ∀ a ∈ eventRegs,
    ∃ t, exec (.registerWrite 0 (BitVec.ofNat 32 a) v) s = .next t ∧ RegWritten s t a (s.pfReg a &&& ~~~v) := by
  have cleared {a : W32} {n : Nat} {x : BitVec n} (hcfg : a ≠ 0x54) (hshown : s.pfReg a.toNat = x.setWidth 32)
      (hset : RegSet s (s.writePf a.toNat v) a.toNat ((x &&& ~~~(bits v 0 n)).setWidth 32))
      (hcores : (s.writePf a.toNat v).cores = s.cores) (hkept : RegKept s (s.writePf a.toNat v)) :
      ∃ t, exec (.registerWrite 0 a v) s = .next t ∧ RegWritten s t a.toNat (s.pfReg a.toNat &&& ~~~v) := by
    refine ⟨_, execRegisterWrite_pf v hreach hcfg, ?_, hcores, hkept⟩
    rwa [hshown, ← setWidth_clear]
  simp only [eventRegs, List.forall_mem_cons, List.not_mem_nil, false_imp_iff, implies_true, and_true]
  and_intros
  · exact cleared (a := 0x0000c) (n := 2) (by decide) rfl rfl rfl ⟨rfl, rfl, rfl, rfl, rfl, rfl, rfl, rfl, rfl⟩
  · exact cleared (a := 0x20008) (n := 5) (by decide) rfl rfl rfl ⟨rfl, rfl, rfl, rfl, rfl, rfl, rfl, rfl, rfl⟩
  · exact cleared (a := 0x30008) (n := 6) (by decide) rfl rfl rfl ⟨rfl, rfl, rfl, rfl, rfl, rfl, rfl, rfl, rfl⟩
  · exact cleared (a := 0x40008) (n := 4) (by decide) rfl rfl rfl ⟨rfl, rfl, rfl, rfl, rfl, rfl, rfl, rfl, rfl⟩
  · exact cleared (a := 0x50008) (n := 4) (by decide) rfl rfl rfl ⟨rfl, rfl, rfl, rfl, rfl, rfl, rfl, rfl, rfl⟩
  · exact cleared (a := 0x60008) (n := 3) (by decide) rfl rfl rfl ⟨rfl, rfl, rfl, rfl, rfl, rfl, rfl, rfl, rfl⟩

end

end Sys2Proof.Machine

open Sys2Proof Sys2Proof.Machine

/-- Settles O25: a write out of reach, one of a register that holds or clears bits, and one of any other address. -/
theorem registerWritesAct : Obligations.RegisterWritesAct := by
  intro s v
  refine ⟨fun fn hfn hout a => ?out, fun fn => ?reach, fun fn hpos hfn a ha => ?vf, fun hreach => ⟨fun e he => ?field, fun a ha => ?event,
    fun a ha => ?readOnly,
    fun a hw he hr hs => ?other⟩, fun a h4 hw he hr hs hro hbase hgon hlog => ?unassigned⟩
  case out =>
    show execRegisterWrite fn a v s = .next s
    unfold execRegisterWrite
    rw [fnOk_of_le hfn, if_neg (by decide)]
    split
    · unfold State.writeRingCfg execRingEnable execRingDisable
      simp only [onUnit_of_ok _ (fnOk_of_le hfn), hout, Bool.false_and, Bool.false_eq_true, if_false, ite_self]
    · rw [if_pos (by simp [State.mmio, hout])]
  case reach => simp [State.hostReach, and_assoc]
  case vf =>
    have hcfg : a ≠ 0x54 := fun h => ha (by rw [h]; decide)
    have hring : a.toNat ∉ [0x40, 0x44, 0x48, 0x4c, 0x50] := fun h => ha (List.mem_append_left [0x54] h)
    show execRegisterWrite fn a v s = .next s
    unfold execRegisterWrite
    rw [fnOk_of_le hfn, if_neg (by decide), if_neg hcfg, if_neg (by omega : ¬fn = 0), State.writeRing_other v hring]
    exact ite_self _
  case field =>
    have hmem : e.1 ∈ plainRegs := List.mem_append_left _ (List.mem_map_of_mem he)
    have others {t : State} {x : W32} (hset : RegSet s t e.1 x) : (∀ e' ∈ writableRegs, e'.1 ≠ e.1 → t.pfReg e'.1 = s.pfReg e'.1)
        ∧ ∀ a ∈ eventRegs, t.pfReg a = s.pfReg a := by
      have hevent : ∀ e ∈ writableRegs, ∀ a ∈ eventRegs, a ≠ e.1 := by decide
      exact ⟨fun e' he' => hset.others (List.mem_append_left _ (List.mem_map_of_mem he')),
        fun a ha => hset.others (List.mem_append_right _ ha) (hevent e he a ha)⟩
    by_cases hvmax : e.1 = 0x60014
    · have hmask : ∀ e ∈ writableRegs, e.1 = 0x60014 → e = (0x60014, 0x7f) := by decide
      obtain rfl := hmask e he hvmax
      obtain ⟨t, hexec, hset, hkept, hcores⟩ := execRegisterWrite_vmax v hreach
      exact ⟨t, hexec, hset.shows hmem, (others hset).1, (others hset).2, fun h => absurd rfl h, fun _ => hcores, hkept.parts, hkept.ports,
        hkept.tiles,
        hkept.gondolas, hkept.rings, hkept.fuses, hkept.flash, hkept.su, hkept.outbox⟩
    · obtain ⟨t, hexec, hset, hcores, hkept⟩ := execRegisterWrite_field v hreach e he hvmax
      exact ⟨t, hexec, hset.shows hmem, (others hset).1, (others hset).2, fun _ => hcores, fun h => absurd h hvmax, hkept.parts, hkept.ports,
        hkept.tiles,
        hkept.gondolas, hkept.rings, hkept.fuses, hkept.flash, hkept.su, hkept.outbox⟩
  case event =>
    have hwritable : ∀ a ∈ eventRegs, ∀ e ∈ writableRegs, e.1 ≠ a := by decide
    obtain ⟨t, hexec, hset, hcores, hkept⟩ := execRegisterWrite_event v hreach a ha
    exact ⟨t, hexec, hset.shows (List.mem_append_right _ ha),
      fun e he => hset.others (List.mem_append_left _ (List.mem_map_of_mem he)) (hwritable a ha e he),
      fun a' ha' => hset.others (List.mem_append_right _ ha'), hcores, hkept.parts, hkept.ports, hkept.tiles, hkept.gondolas, hkept.rings,
        hkept.fuses,
      hkept.flash, hkept.su, hkept.outbox⟩
  case readOnly =>
    have hplace : ∀ a ∈ readOnlyRegs, (BitVec.ofNat 32 a).toNat ∉ actedRegs ∧ BitVec.ofNat 32 a ≠ 0x54 := by decide +kernel
    rw [execRegisterWrite_pf v hreach (hplace a ha).2, State.writePf_other v (hplace a ha).1]
  case other =>
    have hcfg : a ≠ 0x54 := fun h => hr (by rw [h]; decide)
    rw [execRegisterWrite_pf v hreach hcfg, State.writePf_other v (by simp only [actedRegs, List.mem_append]; tauto)]
  case unassigned =>
    exact State.pfReg_other (by simp only [actedRegs, List.mem_append]; tauto) (by omega) (by omega) (by omega)

end

section
namespace Sys2Proof.Machine

section
variable {s : State} (v : W32)

/-! #### Registers of a selected ring, partition or port -/

theorem execRegisterWrite_ring {fn : Nat} (hfn : fn ≤ 32) (hreach : s.hostReach fn = true) {a : W32} (hcfg : a ≠ 0x54)
    (hpf : s.writePf a.toNat v = s.writeRing 0 a.toNat v) : exec (.registerWrite fn a v) s = .next (s.writeRing fn a.toNat v) := by
  by_cases h0 : fn = 0
  · subst h0
    rw [execRegisterWrite_pf v hreach hcfg, hpf]
  · simp only [exec, execRegisterWrite, fnOk_of_le hfn, State.mmio, hreach]
    rw [if_neg (by decide), if_neg hcfg, if_neg (by decide), if_neg h0]

theorem State.writeRing_of_enable {fn off : Nat} (hon : (s.ring (s.selected fn)).enable = true) (hsel : off ≠ 0x40) : s.writeRing fn off v = s := by
  unfold State.writeRing
  dsimp only
  rw [if_neg hsel, if_pos hon]

theorem Part.foldl_clearCount_perf (l : List Nat) (v : W32) (p : Part) (hwf : SMap.wf 0 p.perf = true) (k : Nat) :
    SMap.get 0 (l.foldl (fun p k => if bit v k then p.clearCount k else p) p).perf k
      = if k ∈ l ∧ bit v k = true then 0 else SMap.get 0 p.perf k := by
  induction l generalizing p with
  | nil => simp
  | cons j rest ih =>
    rw [List.foldl_cons]
    by_cases hj : bit v j = true
    · rw [if_pos hj, ih _ (SMap.set_wf _ _ _ _ hwf)]
      by_cases hkj : k = j
      · subst hkj
        have hsame : SMap.get 0#64 (SMap.set 0#64 p.perf k 0#64) k = 0#64 := SMap.get_set_same _ _ _ _ hwf
        simp [hj, Part.clearCount, hsame]
      · have hother : SMap.get 0#64 (SMap.set 0#64 p.perf j 0#64) k = SMap.get 0#64 p.perf k := SMap.get_set_ne _ _ _ _ _ hwf hkj
        simp [Part.clearCount, hother, hkj]
    · rw [if_neg hj, ih _ hwf]
      by_cases hkj : k = j
      · subst hkj; simp [hj]
      · simp [hkj]

theorem bit_clearBit {w : Nat} (x : BitVec w) (i j : Nat) : bit (clearBit x j) i = (bit x i && !decide (i = j)) := by
  unfold bit clearBit
  rw [BitVec.getLsbD_and, BitVec.getLsbD_not, BitVec.getLsbD_shiftLeft, BitVec.getLsbD_one]
  by_cases hi : i < w
  · by_cases hlt : i < j
    · simp [hi, hlt, Nat.ne_of_lt hlt]
    · have heq : (i - j = 0) ↔ i = j := by omega
      simp [hi, hlt, heq, Nat.zero_lt_of_lt hi]
  · simp [BitVec.getLsbD_of_ge x i (by omega)]

theorem Part.foldl_clearCount_ovf (l : List Nat) (v : W32) (p : Part) (k : Nat) :
    bit (l.foldl (fun p k => if bit v k then p.clearCount k else p) p).ovf k = (bit p.ovf k && !(decide (k ∈ l) && bit v k)) := by
  induction l generalizing p with
  | nil => simp
  | cons j rest ih =>
    rw [List.foldl_cons]
    by_cases hj : bit v j = true
    · rw [if_pos hj, ih]
      by_cases hkj : k = j
      · subst hkj; simp [hj, Part.clearCount, bit_clearBit]
      · simp [Part.clearCount, bit_clearBit, hkj]
    · rw [if_neg hj, ih]
      by_cases hkj : k = j
      · subst hkj; simp [hj]
      · simp [hkj]

theorem Part.foldl_clearCount_eq (l : List Nat) (v : W32) (p : Part) :
    l.foldl (fun p k => if bit v k then p.clearCount k else p) p = { p with
      perf := (l.foldl (fun p k => if bit v k then p.clearCount k else p) p).perf
      ovf := (l.foldl (fun p k => if bit v k then p.clearCount k else p) p).ovf } := by
  induction l generalizing p with
  | nil => rfl
  | cons j rest ih =>
    rw [List.foldl_cons, ih]
    by_cases hj : bit v j = true <;> simp [hj, Part.clearCount]

end

end Sys2Proof.Machine

open Sys2Proof Sys2Proof.Machine

/-- Settles O26: each address's branch of the write, and the port's own rules. -/
theorem selectedRegisterWritesAct : Obligations.SelectedRegisterWritesAct := by
  intro s v
  refine ⟨fun fn hfn hreach => ?ring, fun fn hfn => ?cfg, fun hreach => ?selected⟩
  case ring =>
    have hwrite {a : W32} (hcfg : a ≠ 0x54) (hpf : s.writePf a.toNat v = s.writeRing 0 a.toNat v) :=
      execRegisterWrite_ring v hfn hreach hcfg hpf
    have hindex : (bits v 0 4).toNat = v.toNat % 16 := by simp [bits]
    intro o r
    refine ⟨fun hoff => ⟨?_, ?_, ?_, ?_⟩, fun hon a ha => ?_, fun hsel => ?_, fun hvf hsel => ?_⟩
    · rw [hwrite (by decide) rfl]
      exact congrArg _ (if_neg (by rw [hoff]; decide))
    · rw [hwrite (by decide) rfl]
      exact congrArg _ (if_neg (by rw [hoff]; decide))
    · rw [hwrite (by decide) rfl]
      exact congrArg _ (if_neg (by rw [hoff]; decide))
    · rw [hwrite (by decide) rfl]
      exact congrArg _ (if_neg (by rw [hoff]; decide))
    · simp only [List.mem_cons, List.not_mem_nil, or_false] at ha
      obtain rfl | rfl | rfl | rfl := ha
      all_goals rw [hwrite (by decide) rfl, State.writeRing_of_enable v hon (by decide)]
    · rw [hwrite (by decide) rfl]
      exact congrArg _ (if_neg (by rw [hindex]; omega))
    · rw [hwrite (by decide) rfl]
      exact congrArg _ (if_pos (by rw [hindex]; exact ⟨hvf, hsel⟩))
  case cfg =>
    show execRegisterWrite fn 0x54 v s = _
    unfold execRegisterWrite
    rw [fnOk_of_le hfn, if_neg (by decide), if_pos rfl]
    rfl
  case selected =>
    have hwrite {a : W32} (hcfg : a ≠ 0x54) := execRegisterWrite_pf (s := s) v hreach hcfg
    refine ⟨hwrite (by decide), hwrite (by decide), hwrite (by decide), hwrite (by decide), ?clear, ?port, hwrite (by decide), ?latch, ?clears,
      ?ports⟩
    case clear =>
      rw [hwrite (by decide)]
      simp only [exec, execMgtPClr, State.mmio, hreach, if_true]
      rfl
    case port =>
      rw [hwrite (by decide)]
      show Host.Outcome.next (s.writePortCtl v) = _
      cases h0 : bit v 0 <;> cases h1 : bit v 1 <;> simp [exec, execRecal, execPortHold, execPortUnhold, State.mmio, hreach, h0, h1]
    case latch =>
      simp only [exec, execMgtPCntLoRead, State.mmio, hreach, if_true]
      rfl
    case clears =>
      refine ⟨(List.range 8).foldl (fun p k => if bit v k then p.clearCount k else p) (s.part s.mgt.psel.toNat), ?_, Part.foldl_clearCount_eq _ _ _,
        fun hwf k hk => ?_⟩
      · simp only [exec, execMgtPClr, State.mmio, hreach, if_true]
        rfl
      · rw [Part.foldl_clearCount_perf _ _ _ hwf, Part.foldl_clearCount_ovf]
        simp [hk]
    case ports =>
      intro hport
      have hctl : s.writePortCtl v = (if bit v 1 then (if bit v 0 then s.holdDown s.lnk.psel.toNat else s.unhold s.lnk.psel.toNat).recal
        s.lnk.psel.toNat
          else if bit v 0 then s.holdDown s.lnk.psel.toNat else s.unhold s.lnk.psel.toNat) := if_pos hport
      refine ⟨fun h0 h1 hheld => ?_, fun h0 h1 hheld => ⟨unlistedCode 3, ?_⟩, fun h0 h1 hheld hladder htest hdriven hrack => ?_,
        fun h0 h1 hwf hup => ?_⟩
      · simp [exec, execPortHold, State.mmio, hreach, hctl, h0, h1, State.holdDown, hheld]
      · simp [exec, execPortHold, State.mmio, hreach, hctl, h0, h1, State.holdDown, hheld]
      · have hstays : ((s.port s.lnk.psel.toNat).ladderHold || s.portTested s.lnk.psel.toNat
            || (decide (14 ≤ s.lnk.psel.toNat) && s.siteConfig.isNone) || !s.su.linksDriven) = false := by
          have hplace : (decide (14 ≤ s.lnk.psel.toNat) && s.siteConfig.isNone) = false := by
            cases hrack with
            | inl hlow => simp [Nat.not_le.mpr hlow]
            | inr hsome => simp [Option.isNone_eq_false_iff, Option.isSome_iff_ne_none, hsome]
          simp [hladder, State.portTested, htest, hdriven, hplace]
        simp [exec, execPortUnhold, State.mmio, hreach, hctl, h0, h1, State.unhold, hheld, hstays]
      · have hunhold : s.unhold s.lnk.psel.toNat = s.setPort s.lnk.psel.toNat { s.port s.lnk.psel.toNat with hold := false } :=
          if_neg (by simp [hup])
        have hport : (s.setPort s.lnk.psel.toNat { s.port s.lnk.psel.toNat with hold := false }).port s.lnk.psel.toNat
            = { s.port s.lnk.psel.toNat with hold := false } := State.port_setPort _ _ _ hwf
        have hlive : (s.setPort s.lnk.psel.toNat { s.port s.lnk.psel.toNat with hold := false }).live s.lnk.psel.toNat = true := by
          simp only [State.live, hport]
          simp [Port.live, hup]
        simp only [exec, execRecal, State.mmio, hreach, hctl, h0, h1, Bool.and_self, if_true, Bool.false_eq_true, if_false, hunhold, State.recal,
          hlive,
          State.modPort, hport]

end

section
/-! PROOFS. Host copies, loads and stops, banks and bundle words (O27 to O32): a host command by its list of checks; bytes of a slice; what the
    exchange of the banks leaves. -/

namespace Sys2Proof.Machine

/-- What `State.starts` says: the ring exists, the command is its next, and the ladder lets it through. -/
theorem starts_iff {s : State} {o : RingId} {op : Nat} {ref : CmdRef} {c : BitVec 512} :
    s.starts o op ref c = true ↔ o.valid = true ∧ s.front o op = some (ref, c)
      ∧ ((s.started o).lowLadder && !(op ∈ ladderOpcodes)) = false := by
  unfold State.starts
  rw [Bool.and_eq_true, Bool.and_eq_true, decide_eq_true_iff, Bool.not_eq_true', and_assoc]

section Started
variable {s : State} {o : RingId} {op : Nat} {ref : CmdRef} {c : BitVec 512} {i : Instr} {f : CmdRef → BitVec 512 → State → State}

/-- A command that starts has its effect, on the state in which it has started. -/
theorem exec_of_starts (h : s.starts o op ref c = true) (hi : exec i s = hostCommand o op s f) :
    exec i s = .next (f ref c (s.started o)) := by
  obtain ⟨hv, hf, hl⟩ := starts_iff.mp h
  rw [hi, hostCommand_runs hv hf hl]
  rfl

/-- A command whose effect is a list of checks and what it does where they pass. -/
theorem carriesOut_of_checked {L : List (Bool × Nat)} {E : State → State} (h : s.starts o op ref c = true)
    (hi : exec i s = hostCommand o op s f) (hf : f ref c (s.started o) = (s.started o).checked ref L E) : s.carriesOut o i ref L E :=
  ⟨fun hL => by rw [exec_of_starts h hi, hf, checked_runs hL], fun st hL => by rw [exec_of_starts h hi, hf, checked_fails hL]⟩

/-- The same where the effect is spoken of in the started state alone. -/
theorem carriesOut_of_checked_started {L : List (Bool × Nat)} {E : State → State} (h : s.starts o op ref c = true)
    (hi : exec i s = hostCommand o op s f) (hf : f ref c (s.started o) = (s.started o).checked ref L fun _ => E (s.started o)) :
    s.carriesOut o i ref L E :=
  ⟨fun hL => by rw [exec_of_starts h hi, hf, checked_runs hL], fun st hL => by rw [exec_of_starts h hi, hf, checked_fails hL]⟩

/-- A command that reads tiles, from the state `u` in which it has met their codewords. -/
theorem readsAndCarriesOut_of_checked {u : State} {part met : Nat} {bad : List Nat} {L : List (Bool × Nat)} {E : State → State}
    (h : s.starts o op ref c = true) (hi : exec i s = hostCommand o op s f)
    (hf : f ref c (s.started o) = u.checkedMeeting ref part met bad L E) : s.readsAndCarriesOut u i ref part met bad L E :=
  ⟨fun hL => by rw [exec_of_starts h hi, hf, State.checkedMeeting, hL],
    fun st hL => by rw [exec_of_starts h hi, hf, State.checkedMeeting, hL]⟩

end Started

/-! Host copies: what a host-memory access that ends leaves. -/

/-- A host-memory access in progress ends, if its function may send and host memory returned as many bytes as it reads. -/
theorem exec_hostMemoryAccessComplete {s : State} {k : Nat} {x : HostOp} {r : HostReturn} (h : s.hif.hostOps[k]? = some x)
    (hp : s.canPost x.fn = true) (hl : r.bytes.all x.lengthOk = true) :
    exec (.hostMemoryAccessComplete k r) s = .next
      ((({ s with hif := { s.hif with hostOps := listDrop s.hif.hostOps k } } : State).meetHostOp x r.errs).endHostOp x r.bytes) := by
  show execHostMemoryAccessComplete k r s = _
  unfold execHostMemoryAccessComplete
  rw [h]
  dsimp only
  rw [hp, hl]
  rfl

theorem State.copyEnds_of_part {s : State} {part : Nat} (h : s.hasPart part = true) (addr len : Nat) (write : Bool) :
    s.copyEnds part addr len write = s.bytesFault part addr len write := if_pos h

theorem State.copyEnds_of_noPart {s : State} {part : Nat} (h : s.hasPart part = false) (addr len : Nat) (write : Bool) :
    s.copyEnds part addr len write = some 0x0223 := if_neg (by simp [h])

theorem State.endCopyIn_of_fault {s : State} {ref : CmdRef} {part addr st : Nat} {l : List Byte}
    (h : s.copyEnds part addr l.length true = some st) : s.endCopyIn ref part addr l = s.complete ref st := by
  unfold State.endCopyIn
  rw [h]

theorem State.endCopyIn_of_none {s : State} {ref : CmdRef} {part addr : Nat} {l : List Byte}
    (h : s.copyEnds part addr l.length true = none) :
    s.endCopyIn ref part addr l = ((s.spanWrite part addr l.length (Mem.ofList l)).count (some part) 6 l.length).complete ref 0 := by
  unfold State.endCopyIn
  rw [h]

theorem State.endCopyOut_of_fault {s : State} {ref : CmdRef} {part addr len st : Nat} {host : W64}
    (h : s.copyEnds part addr len false = some st) :
    s.endCopyOut ref part addr host len =
      (if st = 0x0318 then (s.poisonedIn part addr len).foldl (fun t slot => t.poisonRead part slot) s else s).complete ref st := by
  unfold State.endCopyOut
  rw [h]
  rfl

theorem State.endCopyOut_of_none {s : State} {ref : CmdRef} {part addr len : Nat} {host : W64}
    (h : s.copyEnds part addr len false = none) :
    s.endCopyOut ref part addr host len =
      (((s.countReads part addr len).writeHost ref.ring.fn host (s.spanRead part addr len) len).count (some part) 6 len).complete ref 0 := by
  unfold State.endCopyOut
  rw [h]
  rfl

theorem State.writeHost_plain {s : State} {fn : Nat} (h : (s.func fn).ideKey = none ∨ (s.func fn).ideSecure = false ∨ fn = 0)
    (addr : W64) (m : Mem) (len : Nat) : s.writeHost fn addr m len = s.emit (.hostWrite fn addr m len) := by
  unfold State.writeHost
  dsimp only
  cases hk : (s.func fn).ideKey with
  | none => rfl
  | some k =>
    have hb : ((s.func fn).ideSecure && fn != 0) = false := by
      rcases h with h | h | h
      · rw [h] at hk; cases hk
      · rw [h]; rfl
      · simp [h]
    dsimp only
    rw [hb]
    rfl

theorem State.writeHost_secure {s : State} {fn : Nat} {k : BitVec 256} (hk : (s.func fn).ideKey = some k)
    (hs : (s.func fn).ideSecure = true) (h0 : fn ≠ 0) (addr : W64) (m : Mem) (len : Nat) :
    s.writeHost fn addr m len = (s.setFunc fn { s.func fn with ideCount := (s.func fn).ideCount + 1 }).emit
      (.ideWrite fn addr len (gcmCrypt (wordBytes k) (bytesBE (s.func fn).ideCount 12) (m.toList 0 len))
        (gcmTag (wordBytes k) (bytesBE (s.func fn).ideCount 12) []
          (gcmCrypt (wordBytes k) (bytesBE (s.func fn).ideCount 12) (m.toList 0 len)))) := by
  unfold State.writeHost
  dsimp only
  have hb : ((s.func fn).ideSecure && fn != 0) = true := by rw [hs, bne_iff_ne.mpr h0]; rfl
  rw [hk]
  dsimp only
  rw [hb]
  rfl

end Sys2Proof.Machine

open Sys2Proof Sys2Proof.Machine

/-- Settles O27: the two commands by their lists of checks, and the end of an access by the fault that it meets. -/
theorem hostCopies : Obligations.HostCopies := by
  intro s
  refine ⟨fun o ref c h => ?_, fun o ref c h => ?_, ?_, ?_, ?_, ?_⟩
  · exact carriesOut_of_checked h (Eq.refl (execHostIn o s)) rfl
  · exact readsAndCarriesOut_of_checked h (Eq.refl (execHostOut o s)) rfl
  · intro k ref part addr host len l errs h hp hl t
    subst hl
    have hx : exec (.hostMemoryAccessComplete k ⟨some l, errs⟩) s = .next (t.endCopyIn ref part addr.toNat l) :=
      exec_hostMemoryAccessComplete h hp (decide_eq_true rfl)
    refine ⟨fun hh hf => ?_, fun hh => ?_, fun st hh hf => ?_⟩
    · rw [hx, State.endCopyIn_of_none ((State.copyEnds_of_part hh _ _ _).trans hf)]
    · rw [hx, State.endCopyIn_of_fault (State.copyEnds_of_noPart hh _ _ _)]
    · rw [hx, State.endCopyIn_of_fault ((State.copyEnds_of_part hh _ _ _).trans hf)]
  · intro k ref part addr host len h hp l errs t
    have hx : exec (.hostMemoryAccessComplete k ⟨some l, errs⟩) s = .next (t.endCopyOut ref part addr.toNat host len) :=
      exec_hostMemoryAccessComplete h hp rfl
    refine ⟨fun hh hf => ?_, fun hh => ?_, fun st hh hf => ?_⟩
    · rw [hx, State.endCopyOut_of_none ((State.copyEnds_of_part hh _ _ _).trans hf)]
    · rw [hx, State.endCopyOut_of_fault (State.copyEnds_of_noPart hh _ _ _)]
      rfl
    · rw [hx, State.endCopyOut_of_fault ((State.copyEnds_of_part hh _ _ _).trans hf)]
  · intro k x errs h hp
    exact exec_hostMemoryAccessComplete h hp rfl
  · intro fn addr m len
    exact ⟨fun h => State.writeHost_plain h addr m len, fun key hk hs h0 => State.writeHost_secure hk hs h0 addr m len⟩
end

section
namespace Sys2Proof.Machine

theorem partOk_of_lt {n : Nat} (h : n < 32) : partOk n = true := decide_eq_true h

theorem coreOk_of_lt {k : Nat} (h : k < 256) : coreOk k = true := decide_eq_true h

theorem State.loadDone_of_loads {s : State} {n : Nat} {l : Load} {rest : List Load} (h : (s.part n).loads = l :: rest) (st res : Nat) :
    s.loadDone n st res = (s.setPart n { s.part n with
      loads := rest, phase := if rest = [] then .idle else .reading, image := [], imageLen := 0 }).complete l.ref st res := by
  unfold State.loadDone State.modPart Part.nextLoad
  rw [h]
  cases rest <;> rfl

/-! The end of a spool's read (R121, R125 to R127). -/

section
variable {s : State} {n : Nat} {l : Load} {rest : List Load} {errs : List (Nat × CodeErrs)} {st : Nat}

/-- A read that meets poison or a missing slot. -/
theorem spoolRead_bytesFault (hn : n < 32) (hp : (s.part n).phase = .reading) (hl : (s.part n).loads = l :: rest)
    (hf : (s.meetCodewords n l.addr.toNat l.len.toNat errs).bytesFault n l.addr.toNat l.len.toNat false = some st) :
    execSpoolReadComplete ⟨n, errs⟩ s = .next
      ((((s.meetCodewords n l.addr.toNat l.len.toNat errs).poisonedIn n l.addr.toNat l.len.toNat).foldl (fun u slot => u.poisonRead n slot)
        (s.meetCodewords n l.addr.toNat l.len.toNat errs)).loadDone n 0x0213 0) := by
  unfold execSpoolReadComplete
  rw [onUnit_of_ok _ (partOk_of_lt hn), hp, hl]
  dsimp only
  rw [hf]

/-- A read image that the tether refuses. -/
theorem spoolRead_spoolFault (hn : n < 32) (hp : (s.part n).phase = .reading) (hl : (s.part n).loads = l :: rest)
    (hf : (s.meetCodewords n l.addr.toNat l.len.toNat errs).bytesFault n l.addr.toNat l.len.toNat false = none)
    (hs : ((s.meetCodewords n l.addr.toNat l.len.toNat errs).countReads n l.addr.toNat l.len.toNat).spoolFault n
      ((s.meetCodewords n l.addr.toNat l.len.toNat errs).spanRead n l.addr.toNat l.len.toNat) l.len.toNat = some st) :
    execSpoolReadComplete ⟨n, errs⟩ s = .next
      (((s.meetCodewords n l.addr.toNat l.len.toNat errs).countReads n l.addr.toNat l.len.toNat).loadDone n st 0) := by
  unfold execSpoolReadComplete
  rw [onUnit_of_ok _ (partOk_of_lt hn), hp, hl]
  dsimp only
  rw [hf]
  dsimp only
  rw [hs]

end

end Sys2Proof.Machine

open Sys2Proof Sys2Proof.Machine

/-- Settles O28: LOAD by its list of checks, the read's end by the fault that it meets, the broadcast's end by its phase. -/
theorem loadsBecomeSpools : Obligations.LoadsBecomeSpools := by
  intro s
  refine ⟨fun o ref c h => ?_, fun n hn l rest errs hp hl => ⟨fun st hf => ?_, fun hf => ⟨fun hs => ?_, fun st hs => ?_⟩⟩, fun n hn hp => ?_,
    fun n l rest st res h => State.loadDone_of_loads h st res⟩
  · exact carriesOut_of_checked h (Eq.refl (execLoad o s)) rfl
  · exact spoolRead_bytesFault hn hp hl hf
  · show execSpoolReadComplete _ s = _
    unfold execSpoolReadComplete
    rw [onUnit_of_ok _ (partOk_of_lt hn), hp, hl]
    dsimp only
    rw [hf]
    dsimp only
    rw [hs]
    rfl
  · exact spoolRead_spoolFault hn hp hl hf hs
  · refine ⟨_, _, rfl, rfl, ?_⟩
    show execBroadcastEnd n s = _
    unfold execBroadcastEnd
    rw [onUnit_of_ok _ (partOk_of_lt hn)]
    dsimp only
    rw [if_pos hp]
    rfl
end

section
namespace Sys2Proof.Machine

/-! Bytes of a slice and of joined memories. -/

/-- The keys of a slice that was moved to `b`. -/
theorem Mem.mem_slice_shift {m : Mem} {a n b : Nat} {e : Host.Cell} (h : e ∈ (m.slice a n).map fun x => (x.1 + b, x.2)) :
    b ≤ e.1 ∧ e.1 < b + n := by
  obtain ⟨x, hx, rfl⟩ := List.mem_map.mp h
  obtain ⟨y, hy, rfl⟩ := List.mem_map.mp hx
  have hb := (List.mem_filter.mp hy).2
  rw [Bool.and_eq_true, decide_eq_true_iff, decide_eq_true_iff] at hb
  dsimp only
  omega

theorem Mem.byte_slice (m : Mem) (a n i : Nat) (h : i < n) : (m.slice a n).byte i = m.byte (a + i) := by
  unfold Mem.slice Mem.byte
  induction m with
  | nil => rfl
  | cons e r ih =>
    obtain ⟨k, v⟩ := e
    by_cases hk : a ≤ k ∧ k < a + n
    · have hi : k - a = i ↔ k = a + i := by omega
      simp only [List.filter_cons, hk, decide_true, Bool.and_self, if_true, List.map_cons, SMap.get, hi]
      rw [ih]
    · have hi : k ≠ a + i := by omega
      have hb : (decide (a ≤ k) && decide (k < a + n)) = false := by simpa using fun h => by omega
      rw [List.filter_cons, hb]
      simpa [SMap.get, hi] using ih

/-- A slice moved to `b`, read there. -/
theorem Mem.byte_slice_shift (m : Mem) (a n b i : Nat) (h : i < n) :
    Mem.byte ((m.slice a n).map fun x => (x.1 + b, x.2)) (b + i) = m.byte (a + i) := by
  unfold Mem.byte
  rw [SMap.get_shift _ _ _ _ (Nat.le_add_right b i), Nat.add_sub_cancel_left]
  exact Mem.byte_slice m a n i h

theorem Mem.byte_eq_zero {m : Mem} {i : Nat} (h : ∀ e ∈ m, e.1 ≠ i) : m.byte i = 0 := by
  have := SMap.get_append (0#8) m [] i h
  rwa [List.append_nil] at this

/-- The three parts of a bank: header and routine table, parameter block, bundles. -/
theorem bankOf_eq (m : Mem) (rank : Nat) (h : spoolFixed m ≤ m.readNat 0x014 4) :
    bankOf m rank = (m.slice 0 512).map (fun e => (e.1 + 0, e.2))
      ++ (m.slice (512 + if spoolPerCore m then rank * spoolParam m else 0) (spoolParam m)).map (fun e => (e.1 + 0x200, e.2))
      ++ (m.slice (m.readNat 0x014 4 - 16 * m.readNat 0x00c 2) (16 * m.readNat 0x00c 2)).map (fun e => (e.1 + 0x1000, e.2)) := by
  have hb : 512 + (m.readNat 0x014 4 - spoolFixed m) = m.readNat 0x014 4 - 16 * m.readNat 0x00c 2 := by
    unfold spoolFixed at *
    omega
  unfold bankOf
  dsimp only
  rw [hb]
  simp only [Nat.add_zero, Prod.mk.eta, List.map_id_fun', id]

end Sys2Proof.Machine

open Sys2Proof Sys2Proof.Machine

/-- Settles O29: the bank is three slices of the image, each read where it was moved to. -/
theorem bankLayout : Obligations.BankLayout := by
  intro m rank hp _ hf
  have hp : spoolParam m ≤ 3584 := by unfold spoolParam; omega
  dsimp only
  rw [bankOf_eq m rank hf]
  refine ⟨fun i hi => ?_, fun i hi => ?_, fun i hi => ?_, fun i h1 h2 => ?_, fun i h1 => ?_⟩
  · unfold Mem.byte
    rw [SMap.get_append_left, SMap.get_append_left]
    · simpa [Mem.byte] using Mem.byte_slice_shift m 0 512 0 i hi
    · intro e he
      have := Mem.mem_slice_shift he
      omega
    · intro e he
      have := Mem.mem_slice_shift he
      omega
  · unfold Mem.byte
    rw [SMap.get_append_left, SMap.get_append]
    · exact Mem.byte_slice_shift m _ _ _ i hi
    · intro e he
      have := Mem.mem_slice_shift he
      omega
    · intro e he
      have := Mem.mem_slice_shift he
      omega
  · unfold Mem.byte
    rw [SMap.get_append]
    · exact Mem.byte_slice_shift m _ _ _ i hi
    · intro e he
      rcases List.mem_append.mp he with he | he <;> have := Mem.mem_slice_shift he <;> omega
  · refine Mem.byte_eq_zero fun e he => ?_
    rcases List.mem_append.mp he with he | he
    · rcases List.mem_append.mp he with he | he <;> have := Mem.mem_slice_shift he <;> omega
    · have := Mem.mem_slice_shift he
      omega
  · refine Mem.byte_eq_zero fun e he => ?_
    rcases List.mem_append.mp he with he | he
    · rcases List.mem_append.mp he with he | he <;> have := Mem.mem_slice_shift he <;> omega
    · have := Mem.mem_slice_shift he
      omega

/-- Settles O32: each word decoded. -/
theorem bundlesDecode : Obligations.BundlesDecode := by
  unfold Obligations.BundlesDecode
  refine ⟨?_, ?_, ?_, ?_, ?_, ?_, ?_, ?_⟩ <;> decide +kernel
end

section
namespace Sys2Proof.Machine

/-! A core that takes a spool (R130, R131, R144). -/

/-- An entry equal to what an unlisted key reads as may be left out. -/
theorem SMap.get_filter_ne {α : Type} [DecidableEq α] (d : α) (m : SMap α) (hk : m.Pairwise fun x y => x.1 < y.1) (i : Nat) :
    SMap.get d (m.filter fun e => e.2 ≠ d) i = SMap.get d m i := by
  induction m with
  | nil => rfl
  | cons e r ih =>
    obtain ⟨k, v⟩ := e
    obtain ⟨hlt, hr⟩ := List.pairwise_cons.mp hk
    by_cases hv : v = d
    · rw [List.filter_cons_of_neg (by simp [hv]), ih hr, SMap.get]
      split
      · next hki =>
        have hn : ∀ e ∈ r, e.1 ≠ i := fun e he => by
          have := hlt e he
          dsimp only at this
          omega
        have := SMap.get_append d r [] i hn
        rw [List.append_nil] at this
        rw [this, hv]
        rfl
      · rfl
    · rw [List.filter_cons_of_pos (by simp [hv]), SMap.get, SMap.get, ih hr]

theorem Core.exchange_bank (c : Core) : c.exchange.bank = if c.activeB then c.bankA else c.bankB := by
  cases h : c.activeB <;> simp [Core.exchange, Core.bank, h]

theorem Core.exchange_sameDepths (c : Core) (m : Mem) :
    c.exchange.sameDepths m = true ↔ ∀ ch < 16, (c.chan ch).depth = headerDepth m ch := by
  unfold Core.sameDepths
  simp only [List.all_eq_true, List.mem_range, decide_eq_true_eq]
  rfl

theorem Core.exchange_empty (c : Core) :
    ((List.range 16).all fun ch => (c.exchange.chan ch).empty) = true ↔ ∀ ch < 16, (c.chan ch).held = 0 ∧ (c.chan ch).granted = 0 := by
  simp only [List.all_eq_true, List.mem_range, Channel.empty, Bool.and_eq_true, beq_iff_eq]
  rfl

/-- The core as its banks are exchanged and its channels' depths are the header's. -/
def Core.taken (c : Core) : Core :=
  if c.exchange.sameDepths c.exchange.bank then c.exchange
  else { c.exchange with chans := c.exchange.newChannels c.exchange.bank }

/-- The depths change while a channel is in use: the core ends with 0x0904. -/
theorem Core.takeSpool_inUse {c : Core} (k : Nat) (hs : c.exchange.sameDepths c.exchange.bank = false)
    (he : ((List.range 16).all fun ch => (c.exchange.chan ch).empty) = false) :
    c.takeSpool k = ({ c.exchange with run := .idle }, true) := by
  unfold Core.takeSpool
  dsimp only
  rw [hs, he]
  rfl

/-- The depths stay, or every channel is empty. -/
def Core.channelsFree (c : Core) : Prop :=
  c.exchange.sameDepths c.exchange.bank = true ∨ ((List.range 16).all fun ch => (c.exchange.chan ch).empty) = true

theorem Core.channelsFree_iff_not {c : Core} :
    ¬c.channelsFree ↔ c.exchange.sameDepths c.exchange.bank = false ∧ ((List.range 16).all fun ch => (c.exchange.chan ch).empty) = false := by
  unfold Core.channelsFree
  rw [not_or, Bool.not_eq_true, Bool.not_eq_true]

/-- No routine of the spool names the core. -/
theorem Core.takeSpool_idle {c : Core} {k : Nat} (h : c.channelsFree) (hr : routineFor c.taken.bank k = none) :
    c.takeSpool k = ({ c.taken with run := .idle }, false) := by
  unfold Core.takeSpool
  have hb : (!c.exchange.sameDepths c.exchange.bank && !((List.range 16).all fun ch => (c.exchange.chan ch).empty)) = false := by
    rcases h with h | h <;> simp only [h, Bool.not_true, Bool.false_and, Bool.and_false]
  dsimp only
  rw [hb, if_neg Bool.false_ne_true]
  unfold Core.taken at *
  rw [hr]

/-- The routine from bundle `e` on names the core. -/
theorem Core.takeSpool_runs {c : Core} {k e : Nat} (h : c.channelsFree) (hr : routineFor c.taken.bank k = some e) :
    c.takeSpool k = ({ c.taken.freshRegs k c.taken.readyGen with run := .running, pc := e }, false) := by
  unfold Core.takeSpool
  have hb : (!c.exchange.sameDepths c.exchange.bank && !((List.range 16).all fun ch => (c.exchange.chan ch).empty)) = false := by
    rcases h with h | h <;> simp only [h, Bool.not_true, Bool.false_and, Bool.and_false]
  dsimp only
  rw [hb, if_neg Bool.false_ne_true]
  unfold Core.taken at *
  rw [hr]

/-- What a core is that has exchanged its banks: all that `takeSpool` leaves as the exchange made it. -/
structure Core.Exchanged (c d : Core) : Prop where
  gen : d.gen = some c.readyGen
  activeB : d.activeB = !c.activeB
  inactive : d.inactive = .empty
  bankA : d.bankA = c.bankA
  bankB : d.bankB = c.bankB
  passes : d.passes = 0
  ops : d.ops = []
  store : d.store = c.store
  slots : d.slots = c.slots
  rank : d.rank = c.rank
  n : d.n = c.n
  ready : d.readyGen = c.readyGen

theorem Core.exchanged_exchange (c : Core) : c.Exchanged c.exchange := ⟨rfl, rfl, rfl, rfl, rfl, rfl, rfl, rfl, rfl, rfl, rfl, rfl⟩

theorem Core.exchanged_taken (c : Core) : c.Exchanged c.taken := by
  unfold Core.taken
  split
  · exact c.exchanged_exchange
  · exact ⟨rfl, rfl, rfl, rfl, rfl, rfl, rfl, rfl, rfl, rfl, rfl, rfl⟩

theorem Core.exchanged_takeSpool (c : Core) (k : Nat) : c.Exchanged (c.takeSpool k).1 := by
  obtain ⟨hg, ha, hi, hA, hB, hp, ho, hst, hsl, hr, hn, hre⟩ := c.exchanged_taken
  by_cases h : c.channelsFree
  · cases hf : routineFor c.taken.bank k with
    | none =>
      rw [Core.takeSpool_idle h hf]
      exact ⟨hg, ha, hi, hA, hB, hp, ho, hst, hsl, hr, hn, hre⟩
    | some e =>
      rw [Core.takeSpool_runs h hf]
      exact ⟨hg, ha, hi, hA, hB, hp, ho, hst, hsl, hr, hn, hre⟩
  · obtain ⟨hs, he⟩ := Core.channelsFree_iff_not.mp h
    rw [Core.takeSpool_inUse k hs he]
    exact ⟨rfl, rfl, rfl, rfl, rfl, rfl, rfl, rfl, rfl, rfl, rfl, rfl⟩

theorem Core.Exchanged.bank {c d : Core} (h : c.Exchanged d) : d.bank = if c.activeB then c.bankA else c.bankB := by
  unfold Core.bank
  rw [h.activeB, h.bankA, h.bankB]
  cases c.activeB <;> rfl

/-- The scalar registers of a core that starts (R131). -/
theorem Core.freshRegs_sreg (c : Core) (k : Nat) (g : W32) (i : Nat) :
    (c.freshRegs k g).sreg i = SMap.get 0 [(0, BitVec.ofNat 64 k), (1, BitVec.ofNat 64 c.rank), (2, BitVec.ofNat 64 c.n), (3, g.setWidth 64)] i :=
  SMap.get_filter_ne 0 _ (by simp) i

end Sys2Proof.Machine

open Sys2Proof Sys2Proof.Machine

/-- Settles O30: what the exchange of the banks leaves, then by the channels and by the routine that names the core. -/
theorem coresTakeSpools : Obligations.CoresTakeSpools := by
  intro c k _ bank r same
  have hx : c.Exchanged r.1 := c.exchanged_takeSpool k
  have hbank : c.exchange.bank = bank := c.exchange_bank
  have hsame : c.exchange.sameDepths c.exchange.bank = true ↔ same := by
    rw [hbank]
    exact c.exchange_sameDepths bank
  refine ⟨hx.gen, hx.activeB, hx.inactive, hx.bank, hx.passes, hx.ops, hx.store, hx.slots, fun h => ?_, fun hs he => ?_⟩
  · have hfree : c.channelsFree := h.imp hsame.mpr c.exchange_empty.mpr
    have ht := c.exchanged_taken
    have htb : c.taken.bank = bank := ht.bank
    cases hf : routineFor bank k with
    | none =>
      have hr : r = _ := Core.takeSpool_idle hfree (htb ▸ hf)
      rw [hr]
      exact ⟨rfl, fun e he => (nomatch he), fun _ => rfl⟩
    | some e =>
      have hr : r = _ := Core.takeSpool_runs hfree (htb ▸ hf)
      rw [hr]
      refine ⟨rfl, fun e' he => ?_, fun hn => (nomatch hn)⟩
      obtain rfl := Option.some.inj he
      have hs (i : Nat) := c.taken.freshRegs_sreg k c.taken.readyGen i
      rw [ht.rank, ht.n, ht.ready] at hs
      rw [ht.ready]
      refine ⟨rfl, rfl, hs 0, hs 1, hs 2, hs 3, fun i hi => (hs i).trans ?_, rfl, rfl, rfl, rfl, rfl, rfl⟩
      rw [SMap.get, if_neg (by omega), SMap.get, if_neg (by omega), SMap.get, if_neg (by omega), SMap.get, if_neg (by omega), SMap.get]
  · have h1 : c.exchange.sameDepths c.exchange.bank = false := by
      rw [← Bool.not_eq_true, hsame]
      exact hs
    have h2 : ((List.range 16).all fun ch => (c.exchange.chan ch).empty) = false := by
      rw [← Bool.not_eq_true, c.exchange_empty]
      obtain ⟨ch, hc, hu⟩ := he
      exact fun h => hu.elim (· (h ch hc).1) (· (h ch hc).2)
    have hr : r = _ := Core.takeSpool_inUse k h1 h2
    rw [hr]
    exact ⟨rfl, rfl, rfl⟩
end

section
namespace Sys2Proof.Machine

/-! STOP_NOW halts a core by what the core does (R151), and a snapshot is written record by record (R153). -/

theorem State.haltNow_waiting {s : State} {k : Nat} (h : (s.core k).run = .waitBank) :
    s.haltNow k = (s.setCore k { s.core k with run := .halted 2 0 }).fitSupply k := by
  unfold State.haltNow
  dsimp only
  rw [h]

theorem State.haltNow_running {s : State} {k : Nat} (h : (s.core k).run = .running) (he : (s.core k).ended = 0) :
    s.haltNow k = ((s.setCore k { s.core k with run := .halted 3 (s.core k).waitingFor }).dropCredit k).fitSupply k := by
  unfold State.haltNow
  dsimp only
  rw [h]
  dsimp only
  rw [if_pos he]

theorem State.haltNow_ended {s : State} {k : Nat} (h : (s.core k).run = .running) (he : (s.core k).ended ≠ 0) :
    s.haltNow k = (s.setCore k { s.core k with run := .halted 2 0 }).fitSupply k := by
  unfold State.haltNow
  dsimp only
  rw [h]
  dsimp only
  rw [if_neg he]

theorem State.haltNow_idle {s : State} {k : Nat} (h : (s.core k).run = .idle) :
    s.haltNow k = (s.setCore k { s.core k with run := .halted 4 0 }).fitSupply k := by
  unfold State.haltNow
  dsimp only
  rw [h]

section
variable {s : State} {n k0 k : Nat}

/-- A record that is not the last. -/
theorem snapshotWrite_next (hn : n < 32) (h0 : s.stopCore n = some k0) (hr : s.snapReady n = true)
    (hk : (s.coresIn n)[(s.part n).snapNext]? = some k) (hi : (s.part n).snapNext + 1 < (s.coresIn n).length) :
    let t := s.spanWrite n ((s.core k0).bank.readNat 0x018 8 + (s.part n).snapNext * 0x410000) 0x410000 ((s.core k).record k)
    execSnapshotWrite n s = .next (t.setPart n { t.part n with snapNext := (s.part n).snapNext + 1 }) := by
  intro t
  unfold execSnapshotWrite
  rw [onUnit_of_ok _ (partOk_of_lt hn), h0]
  dsimp only
  rw [if_pos hr, hk]
  dsimp only
  rw [if_pos hi, State.modPart]

/-- The last record. -/
theorem snapshotWrite_last (hn : n < 32) (h0 : s.stopCore n = some k0) (hr : s.snapReady n = true)
    (hk : (s.coresIn n)[(s.part n).snapNext]? = some k) (hi : (s.part n).snapNext + 1 = (s.coresIn n).length) :
    ∃ u : State, execSnapshotWrite n s = .next (u.take n (u.idleReady n))
      ∧ u = (s.spanWrite n ((s.core k0).bank.readNat 0x018 8 + (s.part n).snapNext * 0x410000) 0x410000
        ((s.core k).record k)).snapDone n 0 ((s.core k0).gen.getD 0) ((s.part n).snapNext + 1) := by
  refine ⟨_, ?_, rfl⟩
  unfold execSnapshotWrite
  rw [onUnit_of_ok _ (partOk_of_lt hn), h0]
  dsimp only
  rw [if_pos hr, hk]
  dsimp only
  rw [if_neg (by omega), hi]

end

end Sys2Proof.Machine

open Sys2Proof Sys2Proof.Machine

/-- Settles O31: the two commands by their lists of checks, the halts by what the core does, the snapshot record by record. -/
theorem coresStop : Obligations.CoresStop := by
  intro s
  refine ⟨fun o ref c h => ?_, fun o ref c h => ?_, fun k h => State.haltNow_waiting h, fun k h he => State.haltNow_running h he,
    fun k h he => State.haltNow_ended h he, fun k h => State.haltNow_idle h, fun k hk h1 h2 h3 => ?_,
    fun n hn k0 k h0 hr hk => ⟨fun hi => ?_, fun hi => snapshotWrite_last hn h0 hr hk hi⟩⟩
  · exact carriesOut_of_checked h (Eq.refl (execAbort o s)) rfl
  · exact carriesOut_of_checked h (Eq.refl (execStopNow o s)) rfl
  · show execStopMarkHalt k s = _
    unfold execStopMarkHalt
    rw [onUnit_of_ok _ (coreOk_of_lt hk)]
    dsimp only
    rw [h1, h2, h3]
    rfl
  · exact snapshotWrite_next hn h0 hr hk hi
end

section
/-! PROOFS. The issue of a bundle (O33 to O35, O37 to O41, O43, O44): every row is an issue of the next bundle; what posting and credits leave; the
    slots, the generators, the arrays' order. -/

namespace Sys2Proof.Machine

/-! Every row that names a bundle is an issue of the next bundle, if that holds the row's operation (R158). -/

theorem exec_slotRow : ∀ e ∈ slotRows, ∀ k s, exec (e.1 k) s = issueAt k e.2 s := by
  unfold slotRows
  simp only [List.forall_mem_cons]
  refine ⟨fun _ _ => rfl, fun _ _ => rfl, fun _ _ => rfl, fun _ _ => rfl, fun _ _ => rfl, fun _ _ => rfl, fun _ _ => rfl, fun _ _ => rfl,
    fun _ _ => rfl, fun _ _ => rfl, fun _ _ => rfl, fun _ _ => rfl, fun _ _ => rfl, fun _ _ => rfl, fun _ _ => rfl, fun _ _ => rfl,
    fun _ _ => rfl, fun _ _ => rfl, fun k s => ?clrf, fun _ _ => rfl, fun _ _ => rfl, fun _ _ => rfl, fun _ _ => rfl, fun _ _ => rfl,
    fun _ _ => rfl, fun _ _ => rfl, fun _ _ => rfl, fun _ h => (nomatch h)⟩
  show issueAt k (fun b => b.mov == .clrf) s = _
  congr 1
  funext b
  cases b.mov <;> rfl

theorem exec_vectorRow : ∀ e ∈ vectorRows, ∀ k s, exec (e.1 k) s = issueAt k (fun b => b.vec.op == e.2) s := by
  unfold vectorRows
  simp only [List.forall_mem_cons]
  exact ⟨fun _ _ => rfl, fun _ _ => rfl, fun _ _ => rfl, fun _ _ => rfl, fun _ _ => rfl, fun _ _ => rfl, fun _ _ => rfl, fun _ _ => rfl,
    fun _ _ => rfl, fun _ _ => rfl, fun _ _ => rfl, fun _ _ => rfl, fun _ _ => rfl, fun _ _ => rfl, fun _ _ => rfl, fun _ _ => rfl,
    fun _ h => (nomatch h)⟩

theorem exec_bundleRow : ∀ e ∈ bundleRows, ∀ k s, exec (e.1 k) s = issueAt k e.2 s := by
  intro e he
  unfold bundleRows at he
  rw [List.mem_append, List.mem_append] at he
  rcases he with (he | he) | he
  · exact exec_slotRow e he
  · obtain ⟨v, hv, rfl⟩ := List.mem_map.mp he
    exact exec_vectorRow v hv
  · simp only [List.mem_cons, List.not_mem_nil, or_false] at he
    rcases he with rfl | rfl
    · exact fun _ _ => rfl
    · exact fun _ _ => rfl

/-! What an issue does, by the bundle that is next and by what its slots find. -/

/-- What `State.issues` says of a core and its next bundle. -/
structure State.MayIssueNow (s : State) (k : Nat) (b : Bundle) : Prop where
  ok : coreOk k = true
  may : s.mayIssue k = true
  due : (s.core k).stopDue = false
  pc : (s.core k).pc < (s.core k).bundles
  decoded : decodeBundle ((s.core k).bundleAt (s.core k).pc) = some b
  ready : (s.core k).bundleReady b = true
  noFault : s.issueFault k (s.core k) b = none

theorem State.issues_iff {s : State} {k : Nat} {b : Bundle} : s.issues k b = true ↔ s.MayIssueNow k b := by
  unfold State.issues
  simp only [Bool.and_eq_true, Bool.not_eq_true', decide_eq_true_eq, Option.isNone_iff_eq_none]
  exact ⟨fun ⟨⟨⟨⟨⟨⟨h1, h2⟩, h3⟩, h4⟩, h5⟩, h6⟩, h7⟩ => ⟨h1, h2, h3, h4, h5, h6, h7⟩,
    fun ⟨h1, h2, h3, h4, h5, h6, h7⟩ => ⟨⟨⟨⟨⟨⟨h1, h2⟩, h3⟩, h4⟩, h5⟩, h6⟩, h7⟩⟩

section
variable {s : State} {k : Nat} {b : Bundle} {has : Bundle → Bool} {st : Nat}

theorem issue_gate (hm : s.mayIssue k = true) (hd : (s.core k).stopDue = false) : (!s.mayIssue k || (s.core k).stopDue) = false := by
  rw [hm, hd]
  rfl

/-- A fetch past the last bundle (R133). -/
theorem State.issue_past (hm : s.mayIssue k = true) (hd : (s.core k).stopDue = false) (hp : (s.core k).bundles ≤ (s.core k).pc) :
    s.issue k has = s.endRoutine k 0x0902 (s.core k).pc := by
  unfold State.issue
  dsimp only
  rw [issue_gate hm hd, if_neg Bool.false_ne_true, if_pos hp]

/-- A bundle that cannot be decoded (R157). -/
theorem State.issue_invalid (hm : s.mayIssue k = true) (hd : (s.core k).stopDue = false) (hp : (s.core k).pc < (s.core k).bundles)
    (hb : decodeBundle ((s.core k).bundleAt (s.core k).pc) = none) :
    s.issue k has = s.endRoutine k ((s.core k).invalidStatus ((s.core k).bundleAt (s.core k).pc)) (s.core k).pc := by
  unfold State.issue
  dsimp only
  rw [issue_gate hm hd, if_neg Bool.false_ne_true, if_neg (by omega), hb]

/-- A bundle that is ready. -/
theorem State.issue_ready (hm : s.mayIssue k = true) (hd : (s.core k).stopDue = false) (hp : (s.core k).pc < (s.core k).bundles)
    (hb : decodeBundle ((s.core k).bundleAt (s.core k).pc) = some b) (hr : (s.core k).bundleReady b = true) :
    s.issue k has = if has b then s.issueReady k b else s := by
  unfold State.issue
  dsimp only
  rw [issue_gate hm hd, if_neg Bool.false_ne_true, if_neg (by omega), hb]
  dsimp only
  rw [hr, Bool.and_true]

/-- The bundle has no `send`. -/
def Bundle.noSend (b : Bundle) : Prop := ∀ d u0 u1 t p h, b.mov ≠ .send d u0 u1 t p h

/-- A ready bundle that needs no credit, or has it, goes on: the first status that its slots find, or its effect (R196). -/
def State.goesOn (s : State) (k : Nat) (b : Bundle) : State :=
  match s.issueFault k (s.core k) b with
  | some st => s.endRoutine k st (s.core k).pc
  | none => if b.ctl = .swap then s.swapBanks k else s.issueSlots k b

theorem State.goesOn_of_fault (h : s.issueFault k (s.core k) b = some st) : s.goesOn k b = s.endRoutine k st (s.core k).pc := by
  unfold State.goesOn
  rw [h]

theorem State.goesOn_of_none (h : s.issueFault k (s.core k) b = none) :
    s.goesOn k b = if b.ctl = .swap then s.swapBanks k else s.issueSlots k b := by
  unfold State.goesOn
  rw [h]

theorem State.issueReady_noSend (h : b.noSend) : s.issueReady k b = s.goesOn k b := by
  unfold State.issueReady
  dsimp only
  split
  · next hm => exact absurd hm (h _ _ _ _ _ _)
  · rfl

section
variable {d u0 u1 t hint : Nat} {p : Bool} (hm : b.mov = .send d u0 u1 t p hint)
include hm

theorem State.issueReady_sendFault (hf : s.sendFault k (s.core k) d t p = some st) :
    s.issueReady k b = s.endRoutine k st (s.core k).pc := by
  unfold State.issueReady
  rw [hm]
  dsimp only
  rw [hf]

theorem State.issueReady_credit (hf : s.sendFault k (s.core k) d t p = none) (hc : (s.core k).credit ≠ none) :
    s.issueReady k b = s.goesOn k b := by
  unfold State.issueReady
  rw [hm]
  dsimp only
  rw [hf]
  dsimp only
  rw [if_pos (Option.isSome_iff_ne_none.mpr hc)]
  rfl

theorem State.issueReady_waits (hf : s.sendFault k (s.core k) d t p = none) (hc : (s.core k).credit = none)
    (hr : (s.core k).request ≠ none) : s.issueReady k b = s := by
  unfold State.issueReady
  rw [hm]
  dsimp only
  rw [hf]
  dsimp only
  rw [if_neg (by simp [hc]), if_pos (Option.isSome_iff_ne_none.mpr hr)]

theorem State.issueReady_asks (hf : s.sendFault k (s.core k) d t p = none) (hc : (s.core k).credit = none)
    (hr : (s.core k).request = none) : s.issueReady k b = s.setCore k { s.core k with request := some ((s.core k).sendDest d) } := by
  unfold State.issueReady
  rw [hm]
  dsimp only
  rw [hf]
  dsimp only
  rw [if_neg (by simp [hc]), if_neg (by simp [hr])]

end

/-- A row that names the next bundle, where nothing stands in its way. -/
theorem exec_issues (h : s.issues k b = true) {e : (Nat → Instr) × (Bundle → Bool)} (he : e ∈ bundleRows) :
    exec (e.1 k) s = .next (if e.2 b then s.issueReady k b else s) := by
  obtain ⟨ok, hm, hd, hp, hb, hr, -⟩ := State.issues_iff.mp h
  rw [exec_bundleRow e he, issueAt, onUnit_of_ok _ ok, State.issue_ready hm hd hp hb hr]

/-- The bundle issues as a whole. -/
theorem State.goesOn_of_issues (h : s.issues k b = true) :
    s.goesOn k b = if b.ctl = .swap then s.swapBanks k else s.issueSlots k b :=
  State.goesOn_of_none (State.issues_iff.mp h).noFault

end

end Sys2Proof.Machine

open Sys2Proof Sys2Proof.Machine

/-- Settles O33: every row is an issue of the next bundle; a `send` by its credit. -/
theorem bundlesIssueWhole : Obligations.BundlesIssueWhole := by
  intro s k b h e he
  have hx := exec_issues h he
  refine ⟨fun hh => by rw [hx, hh]; rfl, fun hh => ?_⟩
  rw [hh, if_pos rfl] at hx
  refine ⟨fun hs => ?_, fun d u0 u1 t p hint hm hf => ⟨fun hc => ?_, fun hc hr => ?_, fun hc hr => ?_⟩⟩
  · rw [hx, State.issueReady_noSend hs, State.goesOn_of_issues h]
  · rw [hx, State.issueReady_credit hm hf hc, State.goesOn_of_issues h]
  · rw [hx, State.issueReady_waits hm hf hc hr]
  · rw [hx, State.issueReady_asks hm hf hc hr]
end

section
namespace Sys2Proof.Machine

/-! What posting an entry, logging and answering leave: everything but the host interface, the log, the free count and what leaves the module. -/

/-- The state without what posting and logging touch. -/
def State.behindRings (s : State) : State := { s with hif := {}, mgt := {}, free := 0, outbox := [] }

/-- A pass that keeps a view of the state at each step keeps it. -/
theorem foldl_view {α β : Type} (π : State → β) {f : State → α → State} (h : ∀ t a, π (f t a) = π t) (l : List α) (s : State) :
    π (l.foldl f s) = π s := by
  induction l generalizing s with
  | nil => rfl
  | cons a l ih => rw [List.foldl_cons, ih, h]

@[simp] theorem State.setRing_behind (s : State) (o : RingId) (r : Ring) : (s.setRing o r).behindRings = s.behindRings := rfl
@[simp] theorem State.setFunc_behind (s : State) (fn : Nat) (f : Func) : (s.setFunc fn f).behindRings = s.behindRings := rfl
@[simp] theorem State.emit_behind (s : State) (o : Out) : (s.emit o).behindRings = s.behindRings := rfl
@[simp] theorem State.tick_behind (s : State) : s.tick.behindRings = s.behindRings := rfl

@[simp] theorem State.fire_behind (s : State) (fn vec : Nat) : (s.fire fn vec).behindRings = s.behindRings := by
  unfold State.fire
  dsimp only
  split
  · rfl
  · split <;> rfl

@[simp] theorem State.putEntry_behind (s : State) (o : RingId) (e : CplEntry) : (s.putEntry o e).behindRings = s.behindRings := by
  unfold State.putEntry
  dsimp only
  split <;> simp

@[simp] theorem State.flush_behind (s : State) (o : RingId) : (s.flush o).behindRings = s.behindRings := by
  unfold State.flush
  dsimp only
  split
  · rw [foldl_view State.behindRings fun t e => by split <;> simp,
      foldl_view State.behindRings fun t e => State.putEntry_behind t o e]
    simp
  · rfl

@[simp] theorem State.enqueueRaw_behind (s : State) (o : RingId) (e : CplEntry) : (s.enqueueRaw o e).behindRings = s.behindRings := by
  unfold State.enqueueRaw
  dsimp only
  split
  · simp
  · rfl

@[simp] theorem State.log_behind (s : State) (e : Ev) (cls : Nat) : (s.log e cls).behindRings = s.behindRings := by
  unfold State.log
  dsimp only
  split <;> rfl

@[simp] theorem State.postRaw_behind (s : State) (part : Option Nat) (e : CplEntry) : (s.postRaw part e).behindRings = s.behindRings := by
  unfold State.postRaw
  dsimp only
  split <;> split <;> simp

@[simp] theorem State.post_behind (s : State) (part : Option Nat) (e : CplEntry) : (s.post part e).behindRings = s.behindRings := by
  unfold State.post
  dsimp only
  split <;> simp

@[simp] theorem State.raise_behind (s : State) (e : Ev) (on : Bool) : (s.raise e on).behindRings = s.behindRings := by
  unfold State.raise
  dsimp only
  split <;> simp

@[simp] theorem State.complete_behind (s : State) (ref : CmdRef) (st res : Nat) : (s.complete ref st res).behindRings = s.behindRings := by
  unfold State.complete
  simp

@[simp] theorem State.completeOpt_behind (s : State) (ref : Option CmdRef) (st res : Nat) :
    (s.completeOpt ref st res).behindRings = s.behindRings := by
  unfold State.completeOpt
  split <;> simp

@[simp] theorem State.post_cores (s : State) (part : Option Nat) (e : CplEntry) : (s.post part e).cores = s.cores :=
  (congrArg State.cores (s.post_behind part e) :)

@[simp] theorem State.post_parts (s : State) (part : Option Nat) (e : CplEntry) : (s.post part e).parts = s.parts :=
  (congrArg State.parts (s.post_behind part e) :)

@[simp] theorem State.raise_cores (s : State) (e : Ev) (on : Bool) : (s.raise e on).cores = s.cores :=
  (congrArg State.cores (s.raise_behind e on) :)

@[simp] theorem State.complete_cores (s : State) (ref : CmdRef) (st res : Nat) : (s.complete ref st res).cores = s.cores :=
  (congrArg State.cores (s.complete_behind ref st res) :)

@[simp] theorem State.reportEnd_cores (s : State) (k st idx : Nat) (g : W32) : (s.reportEnd k st idx g).cores = s.cores := by
  unfold State.reportEnd
  split
  · rfl
  · simp

/-! ### What credits leave of the cores: everything but channels, requests and credits -/

/-- A core without its channels, its request and its credit. -/
def Core.unlinked (c : Core) : Core := { c with chans := [], request := none, credit := none }

/-- The table of cores stays canonical, and no core changes but in its channels, its request and its credit. -/
structure State.Relinks (s t : State) : Prop where
  wf : SMap.wf Core.blank t.cores = true
  same : ∀ j, (t.core j).unlinked = (s.core j).unlinked

theorem State.Relinks.refl {s : State} (h : SMap.wf Core.blank s.cores = true) : s.Relinks s := ⟨h, fun _ => rfl⟩

theorem State.Relinks.trans {s t u : State} (h : s.Relinks t) (h' : t.Relinks u) : s.Relinks u :=
  ⟨h'.wf, fun j => (h'.same j).trans (h.same j)⟩

theorem State.Relinks.of_cores {s t : State} (hwf : SMap.wf Core.blank s.cores = true) (h : t.cores = s.cores) : s.Relinks t :=
  ⟨h ▸ hwf, fun j => by unfold State.core; rw [h]⟩

theorem State.relinks_modCore {s : State} (hwf : SMap.wf Core.blank s.cores = true) (k : Nat) {f : Core → Core}
    (hf : ∀ c, (f c).unlinked = c.unlinked) : s.Relinks (s.modCore k f) := by
  refine ⟨State.setCore_wf _ _ _ hwf, fun j => ?_⟩
  unfold State.modCore
  by_cases hj : j = k
  · rw [hj, State.core_setCore _ _ _ hwf, hf]
  · rw [State.core_setCore_ne _ _ _ _ hwf hj]

theorem State.relinks_setChan {s : State} (hwf : SMap.wf Core.blank s.cores = true) (k ch : Nat) (g : Core → Channel) :
    s.Relinks (s.modCore k fun c => c.setChan ch (g c)) := State.relinks_modCore hwf k fun _ => rfl

theorem State.relinks_giveCredit {s : State} (hwf : SMap.wf Core.blank s.cores = true) (src dst ch : Nat) : s.Relinks (s.giveCredit src dst ch) := by
  unfold State.giveCredit
  split
  · exact State.relinks_modCore hwf _ fun _ => rfl
  · split
    · exact .refl hwf
    · exact .of_cores hwf rfl

theorem State.relinks_grant {s : State} (hwf : SMap.wf Core.blank s.cores = true) (dst ch n : Nat) : s.Relinks (s.grant dst ch n) := by
  induction n generalizing s with
  | zero => exact .refl hwf
  | succ n ih =>
    unfold State.grant
    dsimp only
    split
    · exact .refl hwf
    · next w rest hw =>
      split
      · have h1 := State.relinks_setChan hwf dst ch fun _ =>
          { (s.core dst).chan ch with granted := ((s.core dst).chan ch).granted + 1, waiters := rest }
        have h2 := State.relinks_giveCredit h1.wf w dst ch
        exact (h1.trans h2).trans (ih h2.wf)
      · exact .refl hwf

theorem State.relinks_returnCredit {s : State} (hwf : SMap.wf Core.blank s.cores = true) (dst ch : Nat) : s.Relinks (s.returnCredit dst ch) := by
  have h := State.relinks_setChan hwf dst ch fun c => { c.chan ch with granted := (c.chan ch).granted - 1 }
  exact h.trans (State.relinks_grant h.wf _ _ _)

theorem State.relinks_dropCredit {s : State} (hwf : SMap.wf Core.blank s.cores = true) (k : Nat) : s.Relinks (s.dropCredit k) := by
  unfold State.dropCredit
  dsimp only
  have h1 : s.Relinks (match (s.core k).request with
      | none => s
      | some (dst, ch) =>
        (s.modCore dst fun d => d.setChan ch { d.chan ch with waiters := (d.chan ch).waiters.filter (· ≠ k) }).modCore k
          fun c => { c with request := none }) := by
    split
    · exact .refl hwf
    · next dst ch _ =>
      have h := State.relinks_setChan hwf dst ch fun d => { d.chan ch with waiters := (d.chan ch).waiters.filter (· ≠ k) }
      exact h.trans (State.relinks_modCore h.wf _ fun _ => rfl)
  split
  · exact h1
  · have h2 := State.relinks_modCore h1.wf k (f := fun c => { c with credit := none }) fun _ => rfl
    exact (h1.trans h2).trans (State.relinks_returnCredit h2.wf _ _)

end Sys2Proof.Machine
end

section
namespace Sys2Proof.Machine

/-! The end of a routine (R132, R196). -/

theorem State.core_congr {s t : State} (h : t.cores = s.cores) (k : Nat) : t.core k = s.core k := by
  unfold State.core
  rw [h]

/-- A core that runs and has work under way is not settled. -/
theorem State.settleCore_busy {s : State} {k : Nat} (hr : (s.core k).run = .running) (hq : (s.core k).quiet = false) : s.settleCore k = s := by
  have hm : (s.core k).mayTake = false := by
    unfold Core.mayTake
    rw [hr]
    rfl
  unfold State.settleCore
  dsimp only
  rw [hm, hq, if_neg Bool.false_ne_true, Bool.not_false, Bool.or_true, if_pos rfl]

/-- A routine that ends while its core has work under way. -/
theorem State.core_endRoutine_busy {s : State} {k : Nat} (hwf : SMap.wf Core.blank s.cores = true) (hm : s.mayIssue k = true)
    (hq : (s.core k).quiet = false) (st idx : Nat) :
    (s.endRoutine k st idx).core k = { (s.dropCredit k).core k with ended := BitVec.ofNat 16 st, endedAt := idx } := by
  obtain ⟨⟨⟨⟨hrun, hend⟩, -⟩, -⟩, -⟩ : (((((s.core k).run = .running ∧ (s.core k).ended = 0) ∧ _) ∧ _) ∧ _) := by
    simpa only [State.mayIssue, Bool.and_eq_true, decide_eq_true_eq, beq_iff_eq] using hm
  have hmay : (s.core k).mayEnd = true := by
    unfold Core.mayEnd
    rw [hrun, hend]
    rfl
  have hd := State.relinks_dropCredit hwf k
  have hsame := hd.same k
  have hrun' : ((s.dropCredit k).core k).run = .running := (congrArg Core.run hsame).trans hrun
  have hq' : ((s.dropCredit k).core k).quiet = false := (congrArg Core.quiet hsame).trans hq
  unfold State.endRoutine
  dsimp only
  rw [if_pos hmay]
  have hcore : ∀ g, (((s.dropCredit k).modCore k fun c => { c with ended := BitVec.ofNat 16 st, endedAt := idx }).reportEnd k st idx g).core k
      = { (s.dropCredit k).core k with ended := BitVec.ofNat 16 st, endedAt := idx } := fun g => by
    rw [State.core_congr (State.reportEnd_cores _ _ _ _ _), State.modCore, State.core_setCore _ _ _ hd.wf]
  rw [State.settleCore_busy, hcore]
  · rw [hcore]
    exact hrun'
  · rw [hcore]
    exact hq'

end Sys2Proof.Machine

open Sys2Proof Sys2Proof.Machine

/-- Settles O34: the row is an issue of the next bundle, which ends the routine at the first of its stages that finds a status. -/
theorem routinesEndAtIssue : Obligations.RoutinesEndAtIssue := by
  intro s k hk hm hd c w repOnly
  have hrow (e) (he : e ∈ bundleRows) : exec (e.1 k) s = .next (s.issue k e.2) := by
    rw [exec_bundleRow e he, issueAt, onUnit_of_ok _ (coreOk_of_lt hk)]
  refine ⟨fun hp e he => ?_, fun st idx hwf hq => ?_, fun hp hb e he => ?_, fun b hp hb hr e he hh => ?_⟩
  · rw [hrow e he, State.issue_past hm hd hp]
  · rw [State.core_endRoutine_busy hwf hm hq]
    exact ⟨rfl, rfl⟩
  · rw [hrow e he, State.issue_invalid hm hd hp hb]
    have hrep : repCountBad w = repOnly := rfl
    refine ⟨fun h => ?_, fun h1 h2 => ?_⟩
    · rw [Core.invalidStatus, if_neg]
      rintro ⟨h1, h2⟩
      rw [hrep] at h1
      rcases h with h | h
      · rw [h] at h1
        cases h1
      · exact h h2
    · rw [Core.invalidStatus, if_pos ⟨hrep.trans h1, h2⟩]
  · rw [hrow e he, State.issue_ready hm hd hp hb hr, hh, if_pos rfl]
    refine ⟨fun st hs hf => ?_, fun d u0 u1 t p hint hmov => ⟨fun st hf => ?_, fun st hf hc hi => ?_⟩⟩
    · rw [State.issueReady_noSend hs, State.goesOn_of_fault hf]
    · rw [State.issueReady_sendFault hmov hf]
    · rw [State.issueReady_credit hmov hf hc, State.goesOn_of_fault hi]
end

section
namespace Sys2Proof.Machine

/-! What an issue leaves: one core changed, and a bundle counted (R158, R606). -/

/-- The state `t` is `s` with core `k` become `c`. -/
structure State.OnlyCore (s t : State) (k : Nat) (c : Core) : Prop where
  wf : SMap.wf Core.blank t.cores = true
  at_ : t.core k = c
  others : ∀ j, j ≠ k → t.core j = s.core j
  rest : t = { s with cores := t.cores }

theorem State.onlyCore_setCore {s : State} (hwf : SMap.wf Core.blank s.cores = true) (k : Nat) (c : Core) : s.OnlyCore (s.setCore k c) k c :=
  ⟨State.setCore_wf _ _ _ hwf, State.core_setCore _ _ _ hwf, fun _ hj => State.core_setCore_ne _ _ _ _ hwf hj, rfl⟩

theorem State.OnlyCore.setCore {s t : State} {k : Nat} {c : Core} (h : s.OnlyCore t k c) (d : Core) : s.OnlyCore (t.setCore k d) k d := by
  obtain ⟨hwf, -, hj, hr⟩ := h
  refine ⟨State.setCore_wf _ _ _ hwf, State.core_setCore _ _ _ hwf, fun j h => (State.core_setCore_ne _ _ _ _ hwf h).trans (hj j h), ?_⟩
  unfold State.setCore
  rw [hr]

theorem State.OnlyCore.modCore {s t : State} {k : Nat} {c : Core} (h : s.OnlyCore t k c) (f : Core → Core) :
    s.OnlyCore (t.modCore k f) k (f c) := by
  unfold State.modCore
  rw [h.at_]
  exact h.setCore _

theorem State.count_cores (s : State) (p : Option Nat) (i n : Nat) : (s.count p i n).cores = s.cores := by
  unfold State.count
  split <;> rfl

/-- A count touches the partitions alone, and reads them alone. -/
theorem State.count_eq {s t : State} (h : t = { s with cores := t.cores }) (p : Option Nat) (i n : Nat) :
    t.count p i n = { s with cores := t.cores, parts := (s.count p i n).parts } := by
  rw [h]
  unfold State.count
  split <;> rfl

theorem State.OnlyCore.core_count {s t : State} {k : Nat} {c : Core} (h : s.OnlyCore t k c) (p : Option Nat) (i n : Nat) :
    (t.count p i n).core k = c ∧ ∀ j, j ≠ k → (t.count p i n).core j = s.core j :=
  ⟨(State.core_congr (State.count_cores t p i n) k).trans h.at_, fun j hj => (State.core_congr (State.count_cores t p i n) j).trans (h.others j hj)⟩

/-- A bundle that goes on to the next one has issued. -/
theorem State.OnlyCore.issued {s t : State} {k : Nat} {c : Core} (h : s.OnlyCore t k c) :
    s.issued ((t.modCore k fun d => d.endBody d.pc 4).count (s.partOf k) 2 1) k c := by
  have h' := h.modCore fun d => d.endBody d.pc 4
  obtain ⟨hk, hj⟩ := h'.core_count (s.partOf k) 2 1
  refine ⟨hk, hj, ?_⟩
  rw [State.count_cores]
  exact State.count_eq h'.rest _ _ _

/-! A bundle with one operation: the other slots leave the state as it was. -/

section
variable {s : State} {k : Nat} {b : Bundle}

/-- A row whose operation the next bundle holds, where nothing stands in its way. -/
theorem exec_ready {i : Instr} {has : Bundle → Bool} (hi : exec i s = issueAt k has s) (h : s.issues k b = true) (hh : has b = true) :
    exec i s = .next (s.issueReady k b) := by
  obtain ⟨ok, hm, hd, hp, hb, hr, -⟩ := State.issues_iff.mp h
  rw [hi, issueAt, onUnit_of_ok _ ok, State.issue_ready hm hd hp hb hr, hh, if_pos rfl]

/-- The same for a bundle that needs no credit: every slot takes effect. -/
theorem exec_slots {i : Instr} {has : Bundle → Bool} (hi : exec i s = issueAt k has s) (h : s.issues k b = true) (hh : has b = true)
    (hs : b.noSend) (hc : b.ctl ≠ .swap) : exec i s = .next (s.issueSlots k b) := by
  rw [exec_ready hi h hh, State.issueReady_noSend hs, State.goesOn_of_issues h, if_neg hc]

theorem Core.arrIssue_nop (c : Core) {a : Arr} (h : a.op = .nop) : c.arrIssue a = c := by
  unfold Core.arrIssue
  rw [h]

theorem State.vecIssue_nop (s : State) (k : Nat) {v : Vec} (h : v.op = .nop) : s.vecIssue k v = s := by
  unfold State.vecIssue
  rw [if_pos h]

theorem State.issueSlots_onlyCtl (h : b.onlyCtl) :
    s.issueSlots k b =
      ((s.modCore k fun c => c.ungate.countPass).modCore k fun c => c.ctlIssue b.ctl).count (s.partOf k) 2 1 := by
  obtain ⟨hm, hv, ha⟩ := h
  unfold State.issueSlots
  simp only [Core.arrIssue_nop _ ha, State.vecIssue_nop _ _ hv, hm]
  rfl

theorem Core.ctlIssue_rep_zero {c : Core} {cr n sm : Nat} (h : c.creg cr = 0) : c.ctlIssue (.rep cr n sm) = { c with pc := c.pc + n + 1 } :=
  if_pos h

theorem Core.ctlIssue_rep {c : Core} {cr n sm : Nat} (h : c.creg cr ≠ 0) : c.ctlIssue (.rep cr n sm) =
    { c with loops := c.loops ++ [{ p := c.pc, n, mask := (c.sreg sm).setWidth 32, live := c.creg cr }], pc := c.pc + 1 } := if_neg h

theorem Core.ctlIssue_br_taken {c : Core} {sr cond target : Nat} (h : condHolds cond (c.sreg sr) = true) :
    c.ctlIssue (.br sr cond target) = { c with loops := leaveLoops target c.loops, pc := target } := if_pos h

theorem Core.ctlIssue_br_not {c : Core} {sr cond target : Nat} (h : condHolds cond (c.sreg sr) = false) :
    c.ctlIssue (.br sr cond target) = c.endBody c.pc 4 := if_neg (by simp [h])

/-- A core that has come to `swap`. -/
def Core.atSwap (c : Core) : Core := { c with ended := 0, endedAt := 0, loops := [], arrA := {}, arrB := {} }

/-! The states in which `swap` finds the inactive bank (R130). -/

theorem State.swapBanks_filling {n : Nat} (hp : s.partOf k = some n) (hwf : SMap.wf Core.blank s.cores = true)
    (hi : (s.core k).inactive = .filling) :
    s.swapBanks k = (s.setCore k (s.core k).atSwap).setCore k { (s.core k).atSwap with run := .waitBank } := by
  unfold State.swapBanks
  rw [hp]
  dsimp only
  split
  · next h => exact nomatch hi.symm.trans h
  · rw [State.modCore, State.core_setCore _ _ _ hwf]
    rfl
  · next h => exact nomatch hi.symm.trans h

theorem State.swapBanks_empty {n : Nat} (hp : s.partOf k = some n) (hwf : SMap.wf Core.blank s.cores = true)
    (hi : (s.core k).inactive = .empty) :
    s.swapBanks k = ((s.setCore k (s.core k).atSwap).setCore k { (s.core k).atSwap with run := .idle }).fitSupply k := by
  unfold State.swapBanks
  rw [hp]
  dsimp only
  split
  · next h => exact nomatch hi.symm.trans h
  · next h => exact nomatch hi.symm.trans h
  · rw [State.modCore, State.core_setCore _ _ _ hwf]
    rfl

theorem State.swapBanks_ready {n : Nat} (hp : s.partOf k = some n) (hi : (s.core k).inactive = .ready) :
    s.swapBanks k = (s.setCore k (s.core k).atSwap).take n [k] := by
  unfold State.swapBanks
  rw [hp]
  dsimp only
  split
  · rfl
  · next h => exact nomatch hi.symm.trans h
  · next h => exact nomatch hi.symm.trans h

/-- A row whose next bundle holds `swap` exchanges the banks. -/
theorem exec_swap (h : s.issues k b = true) (hs : b.noSend) (hc : b.ctl = .swap) : exec (.swapBundle k) s = .next (s.swapBanks k) := by
  rw [exec_ready (i := .swapBundle k) (Eq.refl (execSwapBundle k s)) h (by simp [hc]), State.issueReady_noSend hs, State.goesOn_of_issues h,
    if_pos hc]

end

end Sys2Proof.Machine

open Sys2Proof Sys2Proof.Machine

/-- Settles O35: the row issues every slot, and the control slot chooses the next bundle; `swap` by the inactive bank. -/
theorem controlFlow : Obligations.ControlFlow := by
  intro s k b hwf h hb c
  have hs : b.noSend := fun _ _ _ _ _ _ hm => by rw [hb.1] at hm; cases hm
  have hslots := State.issueSlots_onlyCtl (s := s) (k := k) hb
  have hc : s.OnlyCore (s.modCore k fun c => c.ungate.countPass) k c := State.onlyCore_setCore hwf k c
  have ends {ctl : Ctl} (he : ∀ d : Core, d.ctlIssue ctl = d.endBody d.pc 4) (hctl : b.ctl = ctl) : s.issued (s.issueSlots k b) k c := by
    rw [hslots, hctl]
    simp only [he]
    exact hc.issued
  have goes : (∀ j, j ≠ k → (s.issueSlots k b).core j = s.core j) ∧ (s.issueSlots k b).core k = c.ctlIssue b.ctl := by
    rw [hslots]
    exact ((hc.modCore fun d => d.ctlIssue b.ctl).core_count (s.partOf k) 2 1).symm
  obtain ⟨others, goes⟩ := goes
  refine ⟨fun hctl => ?_, fun n sm cr hctl => ?_, fun sr cond target hctl => ?_, fun target hctl => ?_, fun x what hctl => ?_,
    fun hctl n hp => ?_⟩
  · exact ⟨_, exec_slots (Eq.refl (execNop k s)) h (by simp [hctl]) hs (by simp [hctl]), ends (fun _ => rfl) hctl⟩
  · rw [hctl] at goes
    exact ⟨_, exec_slots (Eq.refl (execRep k s)) h (by simp [hctl]) hs (by simp [hctl]), others,
      fun hz => goes.trans (Core.ctlIssue_rep_zero hz), fun hz => goes.trans (Core.ctlIssue_rep hz)⟩
  · refine ⟨_, exec_slots (Eq.refl (execBr k s)) h (by simp [hctl]) hs (by simp [hctl]), others, fun ht => ?_, fun ht => ?_⟩
    · rw [goes, hctl, Core.ctlIssue_br_taken ht]
    · have hi := hc.issued
      rw [State.modCore, hc.at_] at hi
      rwa [hslots, State.modCore, hc.at_, hctl, Core.ctlIssue_br_not ht]
  · rw [hctl] at goes
    exact ⟨_, exec_slots (Eq.refl (execJmp k s)) h (by simp [hctl]) hs (by simp [hctl]), others, goes⟩
  · exact ⟨_, exec_slots (Eq.refl (execWait k s)) h (by simp [hctl]) hs (by simp [hctl]), ends (fun _ => rfl) hctl⟩
  · exact ⟨_, exec_swap h hs hctl, State.swapBanks_filling hp hwf, State.swapBanks_empty hp hwf, State.swapBanks_ready hp⟩
end

section
namespace Sys2Proof.Machine

/-! A bundle whose one operation stands in the move slot. -/

section
variable {s : State} {k : Nat} {b : Bundle}

theorem State.issueSlots_onlyMov (h : b.onlyMov) :
    s.issueSlots k b =
      (((s.modCore k fun c => c.ungate.countPass).movIssue k b.mov).modCore k fun c => c.endBody c.pc 4).count (s.partOf k) 2 1 := by
  obtain ⟨hc, hv, ha⟩ := h
  unfold State.issueSlots
  simp only [Core.arrIssue_nop _ ha, State.vecIssue_nop _ _ hv, hc]
  rfl

/-- An operation of the move slot that changes its core alone, to `g` of what the core is as the bundle issues. -/
theorem exec_movOp {i : Instr} {has : Bundle → Bool} {m : Mov} (g : Core → Core) (hwf : SMap.wf Core.blank s.cores = true)
    (h : s.issues k b = true) (hb : b.onlyMov) (hm : b.mov = m) (hi : exec i s = issueAt k has s) (hh : has b = true ∧ b.noSend)
    (hg : ∀ t : State, t.movIssue k m = t.setCore k (g (t.core k))) :
    ∃ t, exec i s = .next t ∧ s.issued t k (g (s.core k).ungate.countPass) := by
  have hc : s.OnlyCore (s.modCore k fun c => c.ungate.countPass) k (s.core k).ungate.countPass := State.onlyCore_setCore hwf k _
  refine ⟨_, exec_slots hi h hh.1 hh.2 (by rw [hb.1]; exact nofun), ?_⟩
  rw [State.issueSlots_onlyMov hb, hm, hg, hc.at_]
  exact (hc.setCore _).issued

/-- An operation of the move slot that writes one register: it is in flight with the value that it writes. -/
theorem exec_movReg {i : Instr} {has : Bundle → Bool} {m : Mov} (w : Core → RegWrite) (hwf : SMap.wf Core.blank s.cores = true)
    (h : s.issues k b = true) (hb : b.onlyMov) (hm : b.mov = m) (hi : exec i s = issueAt k has s) (hh : has b = true ∧ b.noSend)
    (hg : ∀ t : State, t.movIssue k m = t.setCore k ((t.core k).launch (movOp (t.core k) m [w (t.core k)]))) :
    ∃ t, exec i s = .next t ∧ s.issued t k { (s.core k).ungate.countPass with ops := (s.core k).ungate.countPass.ops ++
      [{ bundle := (s.core k).ungate.countPass.pc, writes := [w (s.core k).ungate.countPass], busy := m.writes }] } :=
  exec_movOp (fun c => c.launch (movOp c m [w c])) hwf h hb hm hi hh hg

end

theorem Core.accessAddr_base (c : Core) (an sb : Nat) : BitVec.ofNat 64 (c.accessAddr an sb 0 0) = c.sreg sb + (c.areg an).value := by
  unfold Core.accessAddr
  rw [BitVec.ofNat_toNat, BitVec.setWidth_eq]
  simp

/-! The scalar functions (R178). -/

theorem scalarFn_shl (a b : W64) : (scalarFn 6 a b).toNat = a.toNat * 2 ^ (b.toNat % 64) % 2 ^ 64 := by
  show (a <<< (b.toNat % 64)).toNat = _
  rw [BitVec.toNat_shiftLeft, Nat.shiftLeft_eq]

theorem scalarFn_shr (a b : W64) : (scalarFn 7 a b).toNat = a.toNat / 2 ^ (b.toNat % 64) := by
  show (a >>> (b.toNat % 64)).toNat = _
  rw [BitVec.toNat_ushiftRight, Nat.shiftRight_eq_div_pow]

theorem scalarFn_sar (a b : W64) : (scalarFn 8 a b).toInt = a.toInt / 2 ^ (b.toNat % 64) := by
  show (a.sshiftRight (b.toNat % 64)).toInt = _
  rw [BitVec.toInt_sshiftRight, Int.shiftRight_eq_div_pow]
  norm_cast

theorem scalarFn_slt (a b : W64) : scalarFn 9 a b = if a.toInt < b.toInt then 1 else 0 := by
  show ofFlag 64 (a.slt b) = _
  unfold ofFlag
  simp only [BitVec.slt_iff_toInt_lt]
  rfl

theorem scalarFn_ult (a b : W64) : scalarFn 10 a b = if a.toNat < b.toNat then 1 else 0 := by
  show ofFlag 64 (a.ult b) = _
  unfold ofFlag
  simp only [BitVec.ult_iff_lt, BitVec.lt_def]
  rfl

theorem scalarFn_min (a b : W64) : (scalarFn 11 a b).toInt = min a.toInt b.toInt := by
  show (if a.slt b then a else b).toInt = _
  simp only [BitVec.slt_iff_toInt_lt]
  split <;> omega

theorem scalarFn_max (a b : W64) : (scalarFn 12 a b).toInt = max a.toInt b.toInt := by
  show (if a.slt b then b else a).toInt = _
  simp only [BitVec.slt_iff_toInt_lt]
  split <;> omega

theorem scalarFn_mulhi (a b : W64) : (scalarFn 13 a b).toNat = a.toNat * b.toNat / 2 ^ 64 := by
  show (BitVec.ofNat 64 (a.toNat * b.toNat / 2 ^ 64)).toNat = _
  have h : a.toNat * b.toNat < 2 ^ 64 * 2 ^ 64 := Nat.mul_lt_mul'' a.isLt b.isLt
  rw [BitVec.toNat_ofNat, Nat.mod_eq_of_lt (Nat.div_lt_of_lt_mul h)]

end Sys2Proof.Machine

open Sys2Proof Sys2Proof.Machine

/-- Settles O37: the row issues the move slot, which launches one write; the scalar functions one by one. -/
theorem moveSlotWritesRegisters : Obligations.MoveSlotWritesRegisters := by
  intro s k b hwf h hb c writes
  refine ⟨fun d imm hm => ?_, fun d x y f hm => ?_, fun d x f imm hm => ?_, fun d imm hm => ?_, fun d v st w hm => ?_, fun d an p hm => ?_,
    fun d v hm => ?_, fun d n hm => ?_, fun d src hm => ?_, fun hm => ?_, fun d an sb fmt side hm => ?_, fun d x fmt side hm => ?_,
    fun x hm => ?_, fun a b => ⟨rfl, rfl, rfl, rfl, rfl, rfl, scalarFn_shl a b, scalarFn_shr a b, scalarFn_sar a b, scalarFn_slt a b,
      scalarFn_ult a b, scalarFn_min a b, scalarFn_max a b, scalarFn_mulhi a b⟩⟩
  · exact exec_movReg (fun _ => .s d imm) hwf h hb hm (Eq.refl (execSset k s))
      (by simp [Bundle.noSend, hm]) fun _ => rfl
  · exact exec_movReg (fun c => .s d (scalarFn f (c.sreg x) (c.sreg y))) hwf h hb hm (Eq.refl (execSalu k s))
      (by simp [Bundle.noSend, hm]) fun _ => rfl
  · exact exec_movReg (fun c => .s d (scalarFn f (c.sreg x) imm)) hwf h hb hm (Eq.refl (execSali k s))
      (by simp [Bundle.noSend, hm]) fun _ => rfl
  · exact exec_movReg (fun c => .s d (BitVec.ofNat 64 (c.bank.readNat (0x200 + 8 * imm) 8))) hwf h hb hm (Eq.refl (execPld k s))
      (by simp [Bundle.noSend, hm]) fun _ => rfl
  · exact exec_movReg (fun c => .a d { value := c.sreg v, stride := c.sreg st, bound := c.sreg w }) hwf h hb hm (Eq.refl (execSeta k s))
      (by simp [Bundle.noSend, hm]) fun _ => rfl
  · exact exec_movReg (fun c => .s d ((c.areg an).part p)) hwf h hb hm (Eq.refl (execGeta k s))
      (by simp [Bundle.noSend, hm]) fun _ => rfl
  · exact exec_movReg (fun c => .c d (c.sreg v)) hwf h hb hm (Eq.refl (execSetc k s))
      (by simp [Bundle.noSend, hm]) fun _ => rfl
  · exact exec_movReg (fun c => .s d (c.creg n)) hwf h hb hm (Eq.refl (execGetc k s))
      (by simp [Bundle.noSend, hm]) fun _ => rfl
  · exact exec_movReg (fun c => .s d (c.rdxValue src)) hwf h hb hm (Eq.refl (execRdx k s))
      (by simp [Bundle.noSend, hm]) fun _ => rfl
  · exact exec_movOp (fun c => { c with flags := 0 }) hwf h hb hm (Eq.refl (execClrf k s)) (by simp [Bundle.noSend, hm]) fun _ => rfl
  · exact exec_movReg (fun c => .t d { addr := c.sreg sb + (c.areg an).value, st := 1, fmt := BitVec.ofNat 4 fmt, side := BitVec.ofNat 11 (64 * side)
        }) hwf h hb hm (Eq.refl (execTdef k s))
      (by simp [Bundle.noSend, hm]) fun t => by
      rw [← Core.accessAddr_base]
      rfl
  · exact exec_movReg (fun c => .t d { addr := c.sreg x, st := 2, fmt := BitVec.ofNat 4 fmt, side := BitVec.ofNat 11 (64 * side) }) hwf h hb hm
        (Eq.refl (execTspn k s))
      (by simp [Bundle.noSend, hm]) fun _ => rfl
  · exact exec_movReg (fun c => .t x { c.treg x with st := 0 }) hwf h hb hm (Eq.refl (execTinv k s))
      (by simp [Bundle.noSend, hm]) fun _ => rfl
end

section
namespace Sys2Proof.Machine

/-! Bytes of listed memories and of written words. -/

theorem Mem.byte_ofListAt (a : Nat) (l : List Byte) (i : Nat) : (Mem.ofListAt a l).byte (a + i) = l.getD i 0 := by
  induction l generalizing a i with
  | nil => rfl
  | cons b r ih =>
    have above : ∀ e ∈ Mem.ofListAt (a + 1) r, a + 1 ≤ e.1 := Mem.ofListAt_ge (a + 1) r
    cases i with
    | zero =>
      unfold Mem.ofListAt
      split
      · next hb =>
        rw [Mem.byte_eq_zero fun e he => by have := above e he; omega]
        exact hb.symm
      · exact if_pos rfl
    | succ i =>
      have hi : a + (i + 1) = a + 1 + i := by omega
      unfold Mem.ofListAt
      rw [hi]
      split
      · exact ih (a + 1) i
      · exact (if_neg (by omega)).trans (ih (a + 1) i)

theorem Mem.byte_ofList (l : List Byte) (i : Nat) : (Mem.ofList l).byte i = l.getD i 0 := by
  have := Mem.byte_ofListAt 0 l i
  rwa [Nat.zero_add] at this

theorem bytesLE_getD (x n i : Nat) (h : i < n) : (bytesLE x n).getD i 0 = BitVec.ofNat 8 (x / 256 ^ i) := by
  induction n generalizing x i with
  | zero => omega
  | succ n ih =>
    cases i with
    | zero => simp [bytesLE]
    | succ i =>
      have := ih (x / 256) i (by omega)
      rw [Nat.div_div_eq_div_mul, ← Nat.pow_succ'] at this
      simpa [bytesLE] using this

/-- A word written is read back byte by byte, lowest first. -/
theorem Mem.byte_splice_word (m : Mem) (a n x i : Nat) (h : i < n) :
    (m.splice a n (Mem.ofList (bytesLE x n))).byte (a + i) = BitVec.ofNat 8 (x / 256 ^ i) := by
  rw [Mem.byte_splice_in _ _ _ _ _ (by omega) (by omega), Nat.add_sub_cancel_left, Mem.byte_ofList, bytesLE_getD _ _ _ h]

theorem Core.storeWord_poisoned {c : Core} {a n : Nat} (h : c.writePoison a n = true) (m : Mov) (x : Nat) :
    c.storeWord m a n x = c.launch (movOp c m [] 0x0905) := by
  unfold Core.storeWord
  rw [h]
  rfl

theorem Core.storeWord_clear {c : Core} {a n : Nat} (h : c.writePoison a n = false) (m : Mov) (x : Nat) :
    c.storeWord m a n x = (c.launch (movOp c m [])).storeBytes a n (Mem.ofList (bytesLE x n)) := by
  unfold Core.storeWord
  rw [h]
  rfl

end Sys2Proof.Machine

open Sys2Proof Sys2Proof.Machine

/-- Settles O38: a load launches the bytes read, a store writes them, by the poison of the lines that they meet. -/
theorem coreStoreAccess : Obligations.CoreStoreAccess := by
  intro s k b hwf h hb c addr launch
  have stored (m : Mov) (hm : m.writes = []) (a n x : Nat) :
      (c.writePoison a n = true → c.storeWord m a n x = launch [] [] 0x0905)
      ∧ (c.writePoison a n = false →
        c.storeWord m a n x = { launch [] [] 0 with
          store := (c.storeWord m a n x).store, poison := c.poison.filter fun l => !lineWithin l a n }
        ∧ (∀ i < n, (c.storeWord m a n x).store.byte (a + i) = BitVec.ofNat 8 (x / 256 ^ i))
        ∧ (∀ i, i < a ∨ a + n ≤ i → (c.storeWord m a n x).store.byte i = c.store.byte i)) := by
    refine ⟨fun hp => ?_, fun hp => ?_⟩
    · rw [Core.storeWord_poisoned hp]
      unfold movOp
      rw [hm]
      rfl
    · rw [Core.storeWord_clear hp]
      unfold movOp
      rw [hm]
      exact ⟨rfl, fun i hi => Mem.byte_splice_word _ _ _ _ _ hi, fun i hi => Mem.byte_splice_out _ _ _ _ _ hi⟩
  refine ⟨fun d an sb imm hm => ?_, fun d an sb imm hm => ?_, fun x an sb imm hm => ?_, fun x an sb imm hm => ?_⟩
  · exact exec_movOp (fun c => c.load (.sld d an sb imm) (c.accessAddr an sb imm 8) 8 fun x => .s d (BitVec.ofNat 64 x)) hwf h hb hm
      (Eq.refl (execSld k s)) (by simp [Bundle.noSend, hm]) fun _ => rfl
  · exact exec_movOp (fun c => c.load (.vld d an sb imm) (c.accessAddr an sb imm 64) 1024 fun x => .v d (BitVec.ofNat 8192 x)) hwf h hb hm
      (Eq.refl (execVld k s)) (by simp [Bundle.noSend, hm]) fun _ => rfl
  · obtain ⟨t, ht, hi⟩ := exec_movOp (i := .sst k) (fun c => c.storeWord (.sst x an sb imm) (c.accessAddr an sb imm 8) 8 (c.sreg x).toNat) hwf h hb hm
      (Eq.refl (execSst k s)) (by simp [Bundle.noSend, hm]) fun _ => rfl
    exact ⟨t, _, ht, hi, stored (.sst x an sb imm) rfl _ _ _⟩
  · obtain ⟨t, ht, hi⟩ := exec_movOp (i := .vst k) (fun c => c.storeWord (.vst x an sb imm) (c.accessAddr an sb imm 64) 1024 (c.vreg x).toNat) hwf h
        hb hm
      (Eq.refl (execVst k s)) (by simp [Bundle.noSend, hm]) fun _ => rfl
    exact ⟨t, _, ht, hi, stored (.vst x an sb imm) rfl _ _ _⟩
end

section
namespace Sys2Proof.Machine

/-! Tile copies within a core. -/

section
variable {c : Core} {d x : Nat} {m : Mov}

/-- What `tcopy` writes into its destination's handle (R183). -/
def Core.copyWrites (c : Core) (d x : Nat) : List RegWrite := [.t d { c.treg d with fmt := (c.treg x).fmt, side := (c.treg x).side }]

theorem Core.tcopy_fromSpan (h : (c.treg x).st = 2) : c.tcopy m d x = c.launch { movOp c m (c.copyWrites d x) with
    span := .read (c.treg x).addr (c.treg d).addr.toNat (c.treg x).side.toNat
    lines := ((c.treg d).addr.toNat, (c.treg x).size), ready := false } := by
  unfold Core.tcopy
  exact if_pos (by simp [Handle.isSpan, h])

theorem Handle.isSpan_of_local {h : Handle} (hl : h.st = 1) : h.isSpan = false := by
  unfold Handle.isSpan
  rw [hl]
  rfl

theorem Core.tcopy_toSpan (hx : (c.treg x).st = 1) (hd : (c.treg d).st = 2)
    (hp : c.readPoison (c.treg x).addr.toNat (c.treg x).size = false) : c.tcopy m d x = c.launch { movOp c m (c.copyWrites d x) with
      span := .write (c.treg d).addr (c.tileAt (c.treg x)) false, ready := false } := by
  have hd : (c.treg d).isSpan = true := by simp [Handle.isSpan, hd]
  unfold Core.tcopy
  dsimp only
  rw [Handle.isSpan_of_local hx, hp, hd, if_neg Bool.false_ne_true, if_neg Bool.false_ne_true, if_pos rfl]
  rfl

theorem Core.tcopy_local (hx : (c.treg x).st = 1) (hd : (c.treg d).st = 1)
    (hp : c.readPoison (c.treg x).addr.toNat (c.treg x).size = false) (hw : c.writePoison (c.treg d).addr.toNat (c.treg x).size = false) :
    c.tcopy m d x = (c.launch (movOp c m (c.copyWrites d x))).storeBytes (c.treg d).addr.toNat (c.treg x).size
      ((c.tileAt (c.treg x)).payload ++ (c.tileAt (c.treg x)).side.map fun e => (e.1 + 8192, e.2)) := by
  unfold Core.tcopy
  dsimp only
  rw [Handle.isSpan_of_local hx, hp, Handle.isSpan_of_local hd, hw, if_neg Bool.false_ne_true, if_neg Bool.false_ne_true,
    if_neg Bool.false_ne_true, if_neg Bool.false_ne_true]
  rfl

/-- A tile's bytes, its side data behind its payload, are the bytes where it lies. -/
theorem Mem.byte_slices (m : Mem) (a n i : Nat) (h : i < 8192 + n) :
    Mem.byte (m.slice a 8192 ++ (m.slice (a + 8192) n).map fun e => (e.1 + 8192, e.2)) i = m.byte (a + i) := by
  have payload : ∀ e ∈ m.slice a 8192, e.1 < 8192 := fun e he => by
    have := Mem.mem_slice_shift (b := 0) (List.mem_map_of_mem (f := fun x : Host.Cell => (x.1 + 0, x.2)) he)
    dsimp only at this
    omega
  unfold Mem.byte
  by_cases hi : i < 8192
  · rw [SMap.get_append_left _ _ _ _ fun e he => by have := (Mem.mem_slice_shift he).1; omega]
    exact Mem.byte_slice m a 8192 i hi
  · rw [SMap.get_append _ _ _ _ fun e he => by have := payload e he; omega]
    have := Mem.byte_slice_shift m (a + 8192) n 8192 (i - 8192) (by omega)
    rwa [show 8192 + (i - 8192) = i by omega, show a + 8192 + (i - 8192) = a + i by omega] at this

end

/-! What a core issues with: its registers, channels and store as before. -/

theorem Core.countPass_credit (c : Core) : c.ungate.countPass.credit = c.credit := by
  unfold Core.countPass
  split <;> rfl

theorem Core.countPass_request (c : Core) : c.ungate.countPass.request = c.request := by
  unfold Core.countPass
  split <;> rfl

/-! A `send` with its credit, and a `recv`. -/

section
variable {s : State} {k : Nat}

theorem State.sendNow_clear {m : Mov} {dst u0 u1 t hint : Nat} {pay : Bool}
    (h : pay = false ∨ (s.core k).readPoison ((s.core k).treg t).addr.toNat ((s.core k).treg t).size = false) :
    s.sendNow k m dst u0 u1 t pay hint =
      { (s.modCore k fun c => { c with credit := none }) with
        mesh := (s.modCore k fun c => { c with credit := none }).mesh ++ [(s.core k).message k dst u0 u1 t pay hint] } := by
  have hb : (pay && (s.core k).readPoison ((s.core k).treg t).addr.toNat ((s.core k).treg t).size) = false := by
    rcases h with h | h <;> simp [h]
  unfold State.sendNow
  dsimp only
  rw [hb, if_neg Bool.false_ne_true]

/-- A core that has taken the head message of a channel (R185). -/
def Core.received (c : Core) (m : Mov) (ch u0 u1 meta_ t : Nat) : Core :=
  let msg := c.headMsg ch
  let n := msg.2.2.1
  let h := c.treg t
  let x := c.chan ch
  let d := c.launch (movOp c m ([.s u0 (BitVec.ofNat 64 msg.2.2.2.1), .s u1 (BitVec.ofNat 64 msg.2.2.2.2),
    .s meta_ (BitVec.ofNat 64 (n * 2 ^ 16 + msg.2.1 * 2 ^ 8 + msg.1))] ++ if n = 0 then [] else [.t t { h with side := BitVec.ofNat 11 (n - 8192) }]))
  let d := if n = 0 then d else d.storeBytes h.addr.toNat n (d.store.slice (c.bufAddr ch x.headBuf + 16) n)
  d.setChan ch { x with held := x.held - 1, headBuf := (x.headBuf + 1) % max 1 x.depth }

theorem State.recvNow_clear {m : Mov} {ch u0 u1 meta_ t : Nat}
    (hr : (s.core k).readPoison ((s.core k).bufAddr ch ((s.core k).chan ch).headBuf) (16 + ((s.core k).headMsg ch).2.2.1) = false)
    (hw : ((s.core k).headMsg ch).2.2.1 = 0
      ∨ (s.core k).writePoison ((s.core k).treg t).addr.toNat ((s.core k).headMsg ch).2.2.1 = false) :
    s.recvNow k m ch u0 u1 meta_ t = (s.setCore k ((s.core k).received m ch u0 u1 meta_ t)).returnCredit k ch := by
  have hb : ((s.core k).readPoison ((s.core k).bufAddr ch ((s.core k).chan ch).headBuf) (16 + ((s.core k).headMsg ch).2.2.1)
      || (decide (((s.core k).headMsg ch).2.2.1 ≠ 0)
        && (s.core k).writePoison ((s.core k).treg t).addr.toNat ((s.core k).headMsg ch).2.2.1)) = false := by
    rw [hr, Bool.false_or]
    rcases hw with hw | hw <;> simp [hw]
  unfold State.recvNow
  exact if_neg fun h => Bool.false_ne_true (hb.symm.trans h)

theorem Core.received_ops (c : Core) (m : Mov) (ch u0 u1 meta_ t : Nat) :
    (c.received m ch u0 u1 meta_ t).ops = c.ops ++ [{
      bundle := c.pc, busy := m.writes
      writes := [.s u0 (BitVec.ofNat 64 (c.headMsg ch).2.2.2.1), .s u1 (BitVec.ofNat 64 (c.headMsg ch).2.2.2.2),
          .s meta_ (BitVec.ofNat 64 ((c.headMsg ch).2.2.1 * 2 ^ 16 + (c.headMsg ch).2.1 * 2 ^ 8 + (c.headMsg ch).1))]
        ++ if (c.headMsg ch).2.2.1 = 0 then [] else [.t t { c.treg t with side := BitVec.ofNat 11 ((c.headMsg ch).2.2.1 - 8192) }] }] := by
  unfold Core.received
  dsimp only [Core.setChan]
  rw [apply_ite Core.ops]
  exact ite_self _

theorem Core.received_chans (c : Core) (m : Mov) (ch u0 u1 meta_ t : Nat) :
    (c.received m ch u0 u1 meta_ t).chans = SMap.set Channel.blank c.chans ch { c.chan ch with
      held := (c.chan ch).held - 1, headBuf := ((c.chan ch).headBuf + 1) % max 1 (c.chan ch).depth } := by
  unfold Core.received
  dsimp only [Core.setChan]
  rw [apply_ite Core.chans]
  exact congrArg (fun x => SMap.set Channel.blank x ch _) (ite_self _)

theorem Core.received_store (c : Core) (m : Mov) (ch u0 u1 meta_ t : Nat) (h : (c.headMsg ch).2.2.1 ≠ 0) :
    (c.received m ch u0 u1 meta_ t).store = c.store.splice (c.treg t).addr.toNat (c.headMsg ch).2.2.1
      (c.store.slice (c.bufAddr ch (c.chan ch).headBuf + 16) (c.headMsg ch).2.2.1) := by
  unfold Core.received
  dsimp only [Core.setChan]
  rw [apply_ite Core.store]
  exact if_neg h

theorem State.count_mesh (s : State) (p : Option Nat) (i n : Nat) : (s.count p i n).mesh = s.mesh := by
  unfold State.count
  split <;> rfl

end

end Sys2Proof.Machine

open Sys2Proof Sys2Proof.Machine

/-- Settles O39: `tcopy` by where its handles point; `send` by its credit; `recv` takes the head message. -/
theorem tilesAndMessagesMove : Obligations.TilesAndMessagesMove := by
  intro s k b hwf h hb c launch
  have hc : s.OnlyCore (s.modCore k fun c => c.ungate.countPass) k c := State.onlyCore_setCore hwf k c
  refine ⟨fun d x hm => ?tcopy, fun dst u0 u1 t pay hint hm hf => ⟨fun hcr hrq => ?asks, fun hcr hp => ?sends⟩, fun ch u0 u1 mt t hm => ?recv⟩
  case tcopy =>
    intro td ts w
    obtain ⟨t, ht, hi⟩ := exec_movOp (i := .tcopy k) (fun c => c.tcopy (.tcopy d x) d x) hwf h hb hm
      (Eq.refl (execTcopy k s)) (by simp [Bundle.noSend, hm]) fun _ => rfl
    refine ⟨t, _, ht, hi, fun hs => ?_, fun hs hd hp => ?_, fun hs hd hp hw => ?_⟩
    · exact Core.tcopy_fromSpan hs
    · exact Core.tcopy_toSpan hs hd hp
    · rw [Core.tcopy_local (m := .tcopy d x) hs hd hp hw]
      refine ⟨rfl, fun i hi => ?_, fun a ha => ?_⟩
      · exact (Mem.byte_splice_in _ _ _ _ _ (Nat.le_add_right _ i) (Nat.add_lt_add_left hi _)).trans (by
          rw [Nat.add_sub_cancel_left]
          exact Mem.byte_slices _ _ _ _ hi)
      · exact Mem.byte_splice_out _ _ _ _ _ (ha.imp_right fun ha => by rwa [Nat.add_assoc] at ha)
  case asks =>
    rw [exec_ready (i := .send k) (Eq.refl (execSend k s)) h (by simp [hm])]
    exact congrArg _ (State.issueReady_asks hm hf ((Core.countPass_credit _).symm.trans hcr) ((Core.countPass_request _).symm.trans hrq))
  case sends =>
    have hu := hc.modCore fun c => { c with credit := none }
    have hx : exec (.send k) s = .next (s.issueSlots k b) := by
      rw [exec_ready (i := .send k) (Eq.refl (execSend k s)) h (by simp [hm]),
        State.issueReady_credit hm hf fun hn => hcr ((Core.countPass_credit _).trans hn),
        State.goesOn_of_issues h, if_neg (by rw [hb.1]; exact nofun)]
    have hmov : (s.modCore k fun c => c.ungate.countPass).movIssue k b.mov =
        { ((s.modCore k fun c => c.ungate.countPass).modCore k fun c => { c with credit := none }) with
          mesh := s.mesh ++ [c.message k dst u0 u1 t pay hint] } := by
      rw [hm, ← hc.at_]
      rw [← hc.at_] at hp
      exact State.sendNow_clear hp
    rw [State.issueSlots_onlyMov hb, hmov] at hx
    refine ⟨_, hx, ?_, State.count_mesh _ _ _ _⟩
    rw [State.core_congr (State.count_cores _ _ _ _)]
    exact (hu.modCore fun c => c.endBody c.pc 4).at_
  case recv =>
    intro a n hr hw
    have hx := exec_slots (i := .recv k) (Eq.refl (execRecv k s)) h (by simp [hm]) (by simp [Bundle.noSend, hm]) (by rw [hb.1]; exact nofun)
    have hmov : (s.modCore k fun c => c.ungate.countPass).movIssue k b.mov =
        ((s.modCore k fun c => c.ungate.countPass).setCore k (c.received (.recv ch u0 u1 mt t) ch u0 u1 mt t)).returnCredit k ch := by
      rw [hm, ← hc.at_]
      exact State.recvNow_clear (by rw [hc.at_]; exact hr) (by rw [hc.at_]; exact hw)
    rw [State.issueSlots_onlyMov hb, hmov] at hx
    have hu := hc.setCore (c.received (.recv ch u0 u1 mt t) ch u0 u1 mt t)
    refine ⟨_, _, hx, rfl, hu.others, ?_, fun i hi => ?_, ?_⟩
    · rw [hu.at_]
      exact Core.received_ops _ _ _ _ _ _ _
    · rw [hu.at_, Core.received_store _ _ _ _ _ _ _ (by show n ≠ 0; omega)]
      exact (Mem.byte_splice_in _ _ _ _ _ (Nat.le_add_right _ i) (Nat.add_lt_add_left hi _)).trans (by
        rw [Nat.add_sub_cancel_left]
        exact Mem.byte_slice _ _ _ _ hi)
    · rw [hu.at_]
      exact Core.received_chans _ _ _ _ _ _ _
end

section
namespace Sys2Proof.Machine

/-! Numbers read from memory. -/

/-- Bytes that are a number's from byte `j` on read as that part of it. -/
theorem Mem.readNat_of_bytes {m : Mem} {x a j n : Nat} (h : ∀ i < n, m.byte (a + i) = BitVec.ofNat 8 (x / 256 ^ (j + i))) :
    m.readNat a n = x / 256 ^ j % 256 ^ n := by
  induction n generalizing a j with
  | zero => rw [Mem.readNat, Nat.pow_zero, Nat.mod_one]
  | succ n ih =>
    have h0 := h 0 (Nat.succ_pos n)
    have hr : m.readNat (a + 1) n = x / 256 ^ (j + 1) % 256 ^ n := ih fun i hi => by
      have := h (i + 1) (by omega)
      rwa [show a + (i + 1) = a + 1 + i by omega, show j + (i + 1) = j + 1 + i by omega] at this
    rw [Nat.add_zero, Nat.add_zero] at h0
    have hd : x / 256 ^ (j + 1) = x / 256 ^ j / 256 := by rw [Nat.div_div_eq_div_mul, Nat.pow_succ]
    have hn : 256 ^ (n + 1) = 256 * 256 ^ n := Nat.pow_succ'
    rw [Mem.readNat, h0, hr, BitVec.toNat_ofNat, hd, hn]
    exact Nat.mod_mul.symm

/-- The numbers that a memory holds in a range of its own are those put there. -/
theorem Mem.readNat_congr {m x : Mem} {a b n : Nat} (h : ∀ i < n, m.byte (a + i) = x.byte (b + i)) : m.readNat a n = x.readNat b n := by
  induction n generalizing a b with
  | zero => rfl
  | succ n ih =>
    rw [Mem.readNat, Mem.readNat, ih fun i hi => by
      have := h (i + 1) (by omega)
      rwa [show a + (i + 1) = a + 1 + i by omega, show b + (i + 1) = b + 1 + i by omega] at this]
    rw [show m.byte a = x.byte b from h 0 (Nat.succ_pos n)]

/-! A message as the bytes of its buffer (R138, R153). -/

theorem MeshMsg.image_header (m : MeshMsg) (i : Nat) (h : i < 16) : m.image.byte i = BitVec.ofNat 8 (m.header / 256 ^ i) := by
  have hh : (Mem.ofList (bytesLE m.header 16)).byte i = BitVec.ofNat 8 (m.header / 256 ^ i) := by
    rw [Mem.byte_ofList, bytesLE_getD _ _ _ h]
  unfold MeshMsg.image
  dsimp only
  split
  · exact hh
  · rw [Mem.byte_splice_out _ _ _ _ _ (by omega), Mem.byte_splice_out _ _ _ _ _ (by omega), hh]

theorem MeshMsg.image_payload {m : MeshMsg} {d : TileData} (hd : m.data = some d) (j : Nat) (h : j < 8192) :
    m.image.byte (16 + j) = d.payload.byte j := by
  unfold MeshMsg.image
  rw [hd]
  dsimp only
  rw [Mem.byte_splice_out _ _ _ _ _ (by omega), Mem.byte_splice_in _ _ _ _ _ (by omega) (by omega), Nat.add_sub_cancel_left]

theorem MeshMsg.image_side {m : MeshMsg} {d : TileData} (hd : m.data = some d) (j : Nat) (h : j < d.sideLen) :
    m.image.byte (16 + 8192 + j) = d.side.byte j := by
  unfold MeshMsg.image
  rw [hd]
  dsimp only
  rw [Mem.byte_splice_in _ _ _ _ _ (by omega) (by omega), Nat.add_sub_cancel_left]

theorem MeshMsg.len_some {m : MeshMsg} {d : TileData} (hd : m.data = some d) : m.len = 8192 + d.sideLen := by
  unfold MeshMsg.len
  rw [hd]

section
variable {c : Core} {m : MeshMsg} (hs : m.stale = false)
include hs

/-- Where a message that lands lies. -/
theorem Core.land_byte (i : Nat) (hi : i < 16 + m.len) :
    (c.land m).store.byte (c.bufAddr m.chan (((c.chan m.chan).headBuf + (c.chan m.chan).held) % max 1 (c.chan m.chan).depth) + i)
      = m.image.byte i := by
  unfold Core.land
  rw [hs]
  exact (Mem.byte_splice_in _ _ _ _ _ (Nat.le_add_right _ i) (Nat.add_lt_add_left hi _)).trans (by rw [Nat.add_sub_cancel_left])

/-- A field of the header of a message that lands. -/
theorem Core.land_header (j n : Nat) (h : j + n ≤ 16) :
    (c.land m).store.readNat
      (c.bufAddr m.chan (((c.chan m.chan).headBuf + (c.chan m.chan).held) % max 1 (c.chan m.chan).depth) + j) n
      = m.header / 256 ^ j % 256 ^ n :=
  Mem.readNat_of_bytes fun i hi => by
    rw [Nat.add_assoc, Core.land_byte hs _ (by omega), MeshMsg.image_header _ _ (by omega)]

end

end Sys2Proof.Machine

open Sys2Proof Sys2Proof.Machine

/-- Settles O40: the end of an operation by its status; a request that joins its channel's line; a message by its bytes. -/
theorem operationsAndMessagesComplete : Obligations.OperationsAndMessagesComplete := by
  intro s
  refine ⟨fun k hk i o bad => ?_, fun c bad l hl => ?_, fun src hsrc dst hdst ch hreq hw => ?_,
    fun src hsrc dst hdst ch hch i m hi hm hlen => ?_⟩
  · intro u ho hr d
    have hx : exec (.operationComplete k ⟨i, bad⟩) s = .next (
        if o.status = 0 then (u.setCore k { d.writeAll o.writes with flags := d.flags ||| o.flags }).settleCore k
        else ((u.setCore k d).endRoutine k o.status.toNat o.bundle).settleCore k) := by
      show execOperationComplete k ⟨i, bad⟩ s = _
      unfold execOperationComplete
      rw [onUnit_of_ok _ (coreOk_of_lt hk)]
      dsimp only
      rw [show (s.modCore k fun c => c.spoil bad) = u from rfl, ho]
      dsimp only
      rw [hr]
      rfl
    exact ⟨fun h0 => by rw [hx, if_pos h0], fun h0 => by rw [hx, if_neg h0]⟩
  · simp only [Core.spoil, List.contains_eq_mem, List.mem_append, List.mem_filter, decide_eq_true_eq]
    grind
  · have hask : s.asking src dst = some ch := by
      unfold State.asking
      rw [if_pos hsrc, hreq]
      exact if_pos rfl
    show execCreditGrant src dst s = _
    unfold execCreditGrant
    rw [onUnit_of_ok _ (by simp [sourceOk, coreOk]; omega), hask]
    dsimp only
    rw [if_neg (by omega), hw]
    rfl
  · have hp := List.of_findIdx?_eq_some hi
    rw [hm] at hp
    simp only [Bool.and_eq_true, decide_eq_true_eq] at hp
    obtain ⟨⟨hps, hpd⟩, rfl⟩ := hp
    have hx : exec (.messageArrive src dst m.chan) s = .next
        (({ s with mesh := listDrop s.mesh i } : State).setCore dst ((s.core dst).land m)) := by
      show execMessageArrive src dst m.chan s = _
      unfold execMessageArrive
      rw [onUnit_of_ok _ (by simp [sourceOk, coreOk]; omega), hi]
      dsimp only
      rw [hm]
      rfl
    refine ⟨fun hst => ?_, fun hst => ⟨_, hx, ?_⟩⟩
    · rw [hx]
      unfold Core.land
      rw [hst]
      rfl
    · have hdr (j n : Nat) (h : j + n ≤ 16) := Core.land_header (c := s.core dst) hst j n h
      have hlow : m.header = m.srcByte.toNat + m.hint.toNat * 2 ^ 8 + m.len * 2 ^ 16 + m.word0.toNat * 2 ^ 32 + m.word1.toNat * 2 ^ 64 := rfl
      have b1 := m.srcByte.isLt
      have b2 := m.hint.isLt
      have b3 := m.word0.isLt
      have b4 := m.word1.isLt
      refine ⟨?_, ?_, ?_, ?_, ?_⟩
      · unfold Core.land
        rw [hst]
        rfl
      · unfold Core.land
        rw [hst]
        rfl
      · unfold Core.land
        rw [hst]
        rfl
      · unfold Core.land
        rw [hst]
        rfl
      · refine ⟨(hdr 0 1 (by omega)).trans (by omega), (hdr 1 1 (by omega)).trans (by omega), (hdr 2 2 (by omega)).trans (by omega),
          (hdr 4 4 (by omega)).trans (by omega), (hdr 8 8 (by omega)).trans (by omega), fun d hd => ⟨fun j hj => ?_, fun j hj => ?_⟩⟩
        · have := MeshMsg.len_some hd
          exact (congrArg _ (Nat.add_assoc _ 16 j)).trans ((Core.land_byte hst _ (by omega)).trans (MeshMsg.image_payload hd j hj))
        · have := MeshMsg.len_some hd
          rw [Nat.add_assoc, Nat.add_assoc]
          exact (Core.land_byte hst _ (by omega)).trans (Nat.add_assoc 16 8192 j ▸ MeshMsg.image_side hd j hj)
end

section
namespace Sys2Proof.Machine

/-! The lanes' generators (R274 to R277). -/

theorem genState_ne_zero (n : Nat) : genState n ≠ 0 := by
  have h : n % (2 ^ 128 - 1) < 2 ^ 128 - 1 := Nat.mod_lt _ (by omega)
  unfold genState
  intro h0
  have := congrArg BitVec.toNat h0
  rw [BitVec.toNat_ofNat, Nat.mod_eq_of_lt (by omega)] at this
  exact absurd this (Nat.succ_ne_zero _)

theorem lanePoly_odd : lanePoly.getLsbD 0 = true := by
  unfold lanePoly
  split
  · next h =>
    unfold polyPrimitive at h
    rw [Bool.and_eq_true, Bool.and_eq_true] at h
    exact h.1.1
  · decide

theorem laneNext_xor (x y : BitVec 128) : laneNext (x ^^^ y) = laneNext x ^^^ laneNext y := by
  unfold laneNext polyDouble
  rw [BitVec.getLsbD_xor, BitVec.shiftLeft_xor_distrib]
  cases x.getLsbD 127 <;> cases y.getLsbD 127 <;> simp <;> grind [BitVec.xor_assoc, BitVec.xor_comm, BitVec.xor_self]

theorem laneNext_eq_zero {z : BitVec 128} (h : laneNext z = 0) : z = 0 := by
  have hbit (i : Nat) : (laneNext z).getLsbD i = false := by rw [h]; simp
  unfold laneNext polyDouble at hbit
  cases hz : z.getLsbD 127 with
  | true =>
    have := hbit 0
    rw [hz, if_pos rfl, BitVec.getLsbD_xor, lanePoly_odd] at this
    simp at this
  | false =>
    rw [hz] at hbit
    refine BitVec.eq_of_getLsbD_eq fun i hi => ?_
    by_cases h127 : i = 127
    · rw [h127, hz]
      simp
    · have := hbit (i + 1)
      rw [if_neg Bool.false_ne_true, BitVec.getLsbD_shiftLeft] at this
      have hlt : i + 1 < 128 := by omega
      simpa [hlt] using this

theorem laneNext_injective {x y : BitVec 128} (h : laneNext x = laneNext y) : x = y := by
  have : x ^^^ y = 0 := laneNext_eq_zero (by rw [laneNext_xor, h, BitVec.xor_self]; rfl)
  exact BitVec.xor_eq_zero_iff.mp this

/-- The output is not linear: the free function, or its change at one point, is not. -/
theorem laneOut_not_linear : ∃ x y : BitVec 128, laneOut (x ^^^ y) ≠ laneOut x ^^^ laneOut y := by
  refine ⟨genState Config.laneWitness.1, genState Config.laneWitness.2, ?_⟩
  generalize hx : genState Config.laneWitness.1 = x
  generalize hy : genState Config.laneWitness.2 = y
  have hx0 : x ≠ 0 := hx ▸ genState_ne_zero _
  have hy0 : y ≠ 0 := hy ▸ genState_ne_zero _
  have hxz : x ≠ x ^^^ y := fun h => hy0 (by simpa using h.symm)
  have hyz : y ≠ x ^^^ y := fun h => hx0 (by simpa using h.symm)
  unfold laneOut
  rw [hx, hy]
  dsimp only
  by_cases hl : Config.laneBits (x ^^^ y) = Config.laneBits x ^^^ Config.laneBits y
  · rw [if_pos ⟨rfl, hl⟩, if_neg fun h => hxz h.1, if_neg fun h => hyz h.1, hl]
    intro h
    have := congrArg (· ^^^ (Config.laneBits x ^^^ Config.laneBits y)) h
    simp at this
  · rw [if_neg fun h => hl h.2, if_neg fun h => hl h.2, if_neg fun h => hl h.2]
    exact hl

section
variable (g : LaneGen) (fails : Bool) (n k i : Nat)

theorem LaneGen.state_ne_zero : g.state n k i ≠ 0 := by
  unfold LaneGen.state
  split
  · exact genState_ne_zero _
  · next h => exact h

/-- The generator that a draw advances: bits mixed in, if that is due. -/
def LaneGen.reseeded : LaneGen := if !fails && decide (2 ^ 20 ≤ g.draws) then g.mix n k i else g

theorem LaneGen.draw_eq : g.draw fails n k i =
    ({ st := laneNext ((g.reseeded fails n k i).state n k i), draws := (g.reseeded fails n k i).draws + 1 },
      laneOut (laneNext ((g.reseeded fails n k i).state n k i))) := rfl

theorem LaneGen.draw_st_ne_zero : (g.draw fails n k i).1.st ≠ 0 := fun h => LaneGen.state_ne_zero _ n k i (laneNext_eq_zero h)

theorem LaneGen.draw_draws : (g.draw fails n k i).1.draws = if fails = false ∧ 2 ^ 20 ≤ g.draws then 1 else g.draws + 1 := by
  rw [LaneGen.draw_eq]
  unfold LaneGen.reseeded
  dsimp only
  by_cases h : fails = false ∧ 2 ^ 20 ≤ g.draws
  · rw [if_pos (by simpa using h), if_pos h]
    rfl
  · rw [if_neg (by simpa using h), if_neg h]

theorem LaneGen.draw_st_plain (h0 : g.st ≠ 0) (h : g.draws < 2 ^ 20 ∨ fails = true) : (g.draw fails n k i).1.st = laneNext g.st := by
  have hr : g.reseeded fails n k i = g := by
    unfold LaneGen.reseeded
    refine if_neg fun hb => ?_
    simp only [Bool.and_eq_true, Bool.not_eq_true', decide_eq_true_eq] at hb
    rcases h with h | h
    · omega
    · rw [h] at hb
      cases hb.1
  rw [LaneGen.draw_eq, hr]
  exact congrArg laneNext (if_neg h0)

end

/-- A core's drawn generators, lane by lane. -/
theorem Core.lane_drawn_draw (c : Core) (n k count i : Nat) (h : i < count) :
    (c.drawn ((c.draw n k count).map (·.1))).lane i = ((c.lane i).draw c.entropyFail n k i).1
      ∧ ((c.draw n k count).map (·.2))[i]? = some ((c.lane i).draw c.entropyFail n k i).2 := by
  unfold Core.drawn Core.draw
  refine ⟨?_, by simp [h]⟩
  show (List.getD (_ ++ _) i {} : LaneGen) = _
  simp [List.getD, List.getElem?_append, h]

/-! A bundle whose one operation stands in the vector slot. -/

theorem vectorRows_ne_nop : ∀ e ∈ vectorRows, e.2 ≠ .nop := by simp [vectorRows]

section
variable {s : State} {k : Nat} {b : Bundle}

theorem State.issueSlots_onlyVec (h : b.onlyVec) :
    s.issueSlots k b =
      (((s.modCore k fun c => c.ungate.countPass).vecIssue k b.vec).modCore k fun c => c.endBody c.pc 4).count (s.partOf k) 2 1 := by
  obtain ⟨hc, hm, ha⟩ := h
  unfold State.issueSlots
  simp only [Core.arrIssue_nop _ ha, hc, hm]
  rfl

/-- A core that has issued a vector operation (R188, R275). -/
def Core.vecIssued (c : Core) (free k : Nat) (v : Vec) : Core :=
  let l := if v.op = .rand then c.draw free k (8192 / laneBits v.w) else []
  let r := c.vecResult v (l.map (·.2))
  { c.drawn (l.map (·.1)) with ops := c.ops ++ [{ bundle := c.pc, writes := r.1, busy := v.writes, flags := r.2, vec := true }] }

theorem State.vecIssue_eq {v : Vec} (h : v.op ≠ .nop) :
    s.vecIssue k v = ({ s.setCore k ((s.core k).vecIssued s.free k v) with free := if v.op = .rand then s.free + 1 else s.free } : State).count
      (s.partOf k) 1 v.occupancy := by
  unfold State.vecIssue
  rw [if_neg h]
  unfold Core.vecIssued
  by_cases hr : v.op = .rand
  · simp only [if_pos hr]
    rfl
  · simp only [if_neg hr]
    rfl

theorem State.core_modCore {t : State} (hwf : SMap.wf Core.blank t.cores = true) (k : Nat) (f : Core → Core) :
    (t.modCore k f).core k = f (t.core k) := State.core_setCore _ _ _ hwf

theorem State.core_modCore_ne {t : State} (hwf : SMap.wf Core.blank t.cores = true) {k j : Nat} (f : Core → Core) (h : j ≠ k) :
    (t.modCore k f).core j = t.core j := State.core_setCore_ne _ _ _ _ hwf h

/-- A count reads and touches the partitions alone. -/
theorem State.count_parts_congr {s t : State} (h : t.parts = s.parts) (p : Option Nat) (i n : Nat) :
    (t.count p i n).parts = (s.count p i n).parts := by
  unfold State.count
  split
  · exact h
  · simp only [State.modPart, State.setPart_parts, State.part, h]

theorem State.count_rest (t : State) (p : Option Nat) (i n : Nat) : t.count p i n = { t with parts := (t.count p i n).parts } := by
  unfold State.count
  split <;> rfl

end

end Sys2Proof.Machine

open Sys2Proof Sys2Proof.Machine

/-- Settles O41: the row issues the vector slot; the generators by their recurrence. -/
theorem vectorOpsIssue : Obligations.VectorOpsIssue := by
  refine ⟨fun s k b hwf h hb e he hop => ?_, fun s k hk => ⟨fun hf => ?_, fun hf => ⟨?_, ?_⟩, fun hf => ?_, ?_⟩,
    fun g fails n k i => ⟨g.draw_st_ne_zero fails n k i, genState_ne_zero _, rfl, g.draw_draws fails n k i, g.draw_st_plain fails n k i, rfl⟩,
    fun x y => ⟨laneNext_xor x y, laneNext_injective⟩, laneOut_not_linear, fun c n k count i h => c.lane_drawn_draw n k count i h⟩
  · intro c l r d
    have hne : b.vec.op ≠ .nop := hop ▸ vectorRows_ne_nop e he
    have hx : exec (e.1 k) s = .next (s.issueSlots k b) :=
      exec_slots (exec_vectorRow e he k s) h (by simp [hop]) (by simp [Bundle.noSend, hb.2.1]) (by rw [hb.1]; exact nofun)
    have hc : s.OnlyCore (s.modCore k fun c => c.ungate.countPass) k c := State.onlyCore_setCore hwf k c
    rw [State.issueSlots_onlyVec hb, State.vecIssue_eq hne, hc.at_] at hx
    have hd : c.vecIssued s.free k b.vec = d := by
      unfold Core.vecIssued
      rw [hop]
    have hu := hc.setCore d
    rw [show (s.modCore k fun c => c.ungate.countPass).free = s.free from rfl, hd, hop] at hx
    generalize hX : State.count _ _ 1 _ = X at hx
    have hXc : X.cores = ((s.modCore k fun c => c.ungate.countPass).setCore k d).cores := by rw [← hX, State.count_cores]
    have hXwf : SMap.wf Core.blank X.cores = true := hXc ▸ hu.wf
    have hXs : X = { s with cores := X.cores, free := if e.2 = .rand then s.free + 1 else s.free, parts := X.parts } := by
      rw [← hX, State.count_rest]
      rfl
    have hXp : X.parts = (s.count (s.partOf k) 1 b.vec.occupancy).parts := by
      rw [← hX]
      exact State.count_parts_congr (s := s) (by rfl) (s.partOf k) 1 _
    refine ⟨_, hx, ?_, fun j hj => ?_, ?_⟩
    · rw [State.core_congr (State.count_cores _ _ _ _), State.core_modCore hXwf, State.core_congr hXc, hu.at_]
      rfl
    · rw [State.core_congr (State.count_cores _ _ _ _), State.core_modCore_ne hXwf _ hj, State.core_congr hXc, hu.others j hj]
    · rw [State.count_cores]
      refine (State.count_rest _ _ _ _).trans ?_
      rw [State.count_parts_congr (t := X.modCore k _) (s := s.count (s.partOf k) 1 b.vec.occupancy) hXp, hXs]
      rfl
  · show execVrandReseed k s = _
    unfold execVrandReseed
    rw [onUnit_of_ok _ (coreOk_of_lt hk), if_neg (by rw [hf]; exact Bool.false_ne_true), State.modCore]
  · show execVrandReseed k s = _
    unfold execVrandReseed
    rw [onUnit_of_ok _ (coreOk_of_lt hk), if_pos hf]
  · show execCoreEntropyFail k s = _
    unfold execCoreEntropyFail
    rw [onUnit_of_ok _ (coreOk_of_lt hk), if_pos hf]
  · show execCoreEntropyFail k s = _
    unfold execCoreEntropyFail
    rw [onUnit_of_ok _ (coreOk_of_lt hk), if_neg (by rw [hf]; exact Bool.false_ne_true), State.modCore]
  · exact onUnit_of_ok _ (coreOk_of_lt hk)
end

section
namespace Sys2Proof.Machine

/-! A bundle whose one operation stands in the array slot. -/

section
variable {s : State} {k : Nat} {b : Bundle}

theorem State.issueSlots_onlyArr (h : b.onlyArr) :
    s.issueSlots k b =
      ((s.modCore k fun c => c.ungate.countPass.arrIssue b.arr).modCore k fun c => c.endBody c.pc 4).count (s.partOf k) 2 1 := by
  obtain ⟨hc, hm, hv⟩ := h
  unfold State.issueSlots
  simp only [State.vecIssue_nop _ _ hv, hc, hm]
  rfl

/-- An operation of the array slot changes its core alone. -/
theorem exec_arrOp {i : Instr} {has : Bundle → Bool} (hwf : SMap.wf Core.blank s.cores = true) (h : s.issues k b = true) (hb : b.onlyArr)
    (hi : exec i s = issueAt k has s) (hh : has b = true) :
    ∃ t, exec i s = .next t ∧ s.issued t k ((s.core k).ungate.countPass.arrIssue b.arr) := by
  have hc : s.OnlyCore (s.modCore k fun c => c.ungate.countPass.arrIssue b.arr) k _ := State.onlyCore_setCore hwf k _
  refine ⟨_, exec_slots hi h hh (by simp [Bundle.noSend, hb.2.1]) (by rw [hb.1]; exact nofun), ?_⟩
  rw [State.issueSlots_onlyArr hb]
  exact hc.issued

end

section
variable (c : Core) {a : Arr}

/-- The status of an array operation that reads its tiles (R196). -/
def Core.tilesStatus (a : Arr) : W16 :=
  poisonStatus (a.tiles.any fun i => c.readPoison (c.treg i).addr.toNat (8192 + arraySide (c.treg i).fmt.toNat))

theorem Core.arrIssue_bridle (h : a.op = .bridle) : c.arrIssue a = c.setArray a.arr ((c.array a.arr).addBridle
    { fmt := a.fmt, depth := shapeDepth a.shape, rs := a.rs, tiles := a.tiles.map fun i => c.arrayTile (c.treg i) } c.pc (c.tilesStatus a)) := by
  unfold Core.arrIssue
  rw [h]
  rfl

theorem Core.arrIssue_stream (h : a.op = .stream) : c.arrIssue a = c.setArray a.arr ((c.array a.arr).addStream a c.pc
    (a.tiles.map fun i => c.arrayTile (c.treg i)) (c.tilesStatus a)) := by
  unfold Core.arrIssue
  rw [h]
  rfl

theorem Core.arrIssue_drain (h : a.op = .drain) : c.arrIssue a = c.setArray a.arr ((c.array a.arr).addDrain {
    bundle := c.pc, fmt := a.fmt, t := a.t, addr0 := (c.treg a.t).addr.toNat, addr1 := (c.treg (a.t + 1)).addr.toNat
    bad := poisonStatus (a.tiles.any fun i => c.writePoison (c.treg i).addr.toNat 8192) }) := by
  unfold Core.arrIssue
  rw [h]

end

end Sys2Proof.Machine

open Sys2Proof Sys2Proof.Machine

/-- Settles O43: the row issues the array slot, by its operation. -/
theorem arraySlotQueues : Obligations.ArraySlotQueues := by
  intro s k b hwf h hb c a x tile bad
  refine ⟨fun hop => ?_, fun hop => ?_, fun hop => ?_⟩
  · intro st
    obtain ⟨t, ht, hi⟩ := exec_arrOp (i := .bridle k) hwf h hb (Eq.refl (execBridle k s)) (by simp [show b.arr.op = .bridle from hop])
    rw [Core.arrIssue_bridle _ hop] at hi
    exact ⟨t, ht, hi⟩
  · obtain ⟨t, ht, hi⟩ := exec_arrOp (i := .stream k) hwf h hb (Eq.refl (execStream k s)) (by simp [show b.arr.op = .stream from hop])
    rw [Core.arrIssue_stream _ hop] at hi
    refine ⟨t, _, ht, hi, rfl, rfl, fun hl => if_pos hl, fun hl hf => ?_⟩
    exact (if_neg (by rw [hl]; exact Bool.false_ne_true)).trans (if_pos (by simpa using hf))
  · obtain ⟨t, ht, hi⟩ := exec_arrOp (i := .drain k) hwf h hb (Eq.refl (execDrain k s)) (by simp [show b.arr.op = .drain from hop])
    rw [Core.arrIssue_drain _ hop] at hi
    refine ⟨t, ht, ?_⟩
    unfold ArrayState.addDrain at hi
    by_cases h0 : x.tiles = 0
    · rw [if_pos h0]
      rw [if_pos h0] at hi
      exact hi
    · rw [if_neg h0]
      rw [if_neg h0] at hi
      exact hi
end

section
namespace Sys2Proof.Machine

/-! Lists of equal pieces, and tables made by a function. -/

theorem length_flatMap_range {α : Type} {w : Nat} {g : Nat → List α} (hg : ∀ i, (g i).length = w) (n : Nat) :
    ((List.range n).flatMap g).length = w * n := by
  rw [List.length_flatMap]
  simp [hg, Nat.mul_comm]

theorem getD_flatMap_range {α : Type} {w : Nat} {g : Nat → List α} (hg : ∀ i, (g i).length = w) {n i j : Nat} (hi : i < n) (hj : j < w) (d : α) :
    ((List.range n).flatMap g).getD (w * i + j) d = (g i).getD j d := by
  induction n with
  | zero => omega
  | succ n ih =>
    have hl : ((List.range n).flatMap g).length = w * n := length_flatMap_range hg n
    rw [List.range_succ, List.flatMap_append, List.flatMap_singleton]
    by_cases h : i < n
    · have : w * (i + 1) ≤ w * n := Nat.mul_le_mul_left w h
      rw [List.getD_append _ _ _ _ (by rw [hl]; rw [Nat.mul_succ] at this; omega)]
      exact ih h
    · obtain rfl : i = n := by omega
      rw [List.getD_append_right _ _ _ _ (by rw [hl]; omega), hl, Nat.add_sub_cancel_left]

theorem bytesLE_length (x n : Nat) : (bytesLE x n).length = n := by
  induction n generalizing x with
  | zero => rfl
  | succ n ih => rw [bytesLE, List.length_cons, ih]

theorem SMap.get_map_fun {α : Type} (d : α) (f : Nat → α) (l : List Nat) {i : Nat} (h : i ∈ l) :
    SMap.get d (l.map fun a => (a, f a)) i = f i := by
  induction l with
  | nil => cases h
  | cons a l ih =>
    rw [List.map_cons, SMap.get]
    split
    · next ha => rw [ha]
    · next ha => exact ih ((List.mem_cons.mp h).resolve_left (Ne.symm ha))

/-! The live set after a stream (R195, R239, R242). -/

theorem StreamOp.get_landIn (st : StreamOp) (live : SMap W32) {a : Nat} (h : a < 4096) :
    SMap.get 0 (st.landIn live) a = accumulate (if st.first then 0 else SMap.get 0 live a) (st.term a) := by
  unfold StreamOp.landIn
  dsimp only
  rw [SMap.get_filter_ne 0 _ (by
    rw [List.pairwise_map]
    exact List.pairwise_lt_range), SMap.get_map_fun _ _ _ (List.mem_range.mpr h)]
  cases st.first <;> rfl

/-! What a drain writes (R192, R240). -/

theorem Mem.byte_drainPayload (tail : SMap W32) {fmt w : Nat} (hw : ∀ v, (drainBytes fmt v).length = w) (lo : Nat) {n i j : Nat} (hi : i < n)
    (hj : j < w) : (drainPayload tail fmt lo n).byte (w * i + j) = (drainBytes fmt (SMap.get 0 tail (lo + i))).getD j 0 := by
  unfold drainPayload
  rw [Mem.byte_ofList, getD_flatMap_range (fun i => hw _) hi hj]

theorem drainBytes_eight {fmt : Nat} (h : 2 ≤ fmt) (v : W32) : drainBytes fmt v = bytesLE (z8Encode .tiesEven v.toNat 32).1 1 := by
  unfold drainBytes
  split
  · omega
  · omega
  · rfl

section
variable {c : Core} {b : Bool} {d : DrainOp} {rest : List DrainOp}

theorem Core.array_setArray (c : Core) (b : Bool) (x : ArrayState) : (c.setArray b x).array b = x := by
  cases b <;> rfl

theorem Core.setArray_rest (c : Core) (b : Bool) (x : ArrayState) :
    (c.setArray b x).store = c.store ∧ (c.setArray b x).ops = c.ops ∧ (c.setArray b x).v = c.v ∧ (c.setArray b x).s = c.s := by
  cases b <;> exact ⟨rfl, rfl, rfl, rfl⟩

/-- A core whose arrays, operations in flight, vector and scalar registers are as they were. -/
structure Core.SameWork (c d : Core) : Prop where
  arrA : d.arrA = c.arrA
  arrB : d.arrB = c.arrB
  ops : d.ops = c.ops
  v : d.v = c.v
  s : d.s = c.s

theorem Core.SameWork.trans {c d e : Core} (h : c.SameWork d) (h' : d.SameWork e) : c.SameWork e :=
  ⟨h'.arrA.trans h.arrA, h'.arrB.trans h.arrB, h'.ops.trans h.ops, h'.v.trans h.v, h'.s.trans h.s⟩

theorem Core.sameWork_storeBytes (c : Core) (a n : Nat) (m : Mem) : c.SameWork (c.storeBytes a n m) := ⟨rfl, rfl, rfl, rfl, rfl⟩

theorem Core.sameWork_writeT (c : Core) (i : Nat) (h : Handle) : c.SameWork (c.write (.t i h)) := ⟨rfl, rfl, rfl, rfl, rfl⟩

theorem Core.SameWork.array {c d : Core} (h : c.SameWork d) (b : Bool) : d.array b = c.array b := by
  cases b
  · exact h.arrA
  · exact h.arrB

theorem Core.freeTail_rest {c d : Core} (h : c.SameWork d) (b : Bool) (rest : List DrainOp) :
    (d.freeTail b rest).array b = { c.array b with drains := rest, tail := [], tailFull := false }
      ∧ (d.freeTail b rest).ops = c.ops ∧ (d.freeTail b rest).v = c.v ∧ (d.freeTail b rest).s = c.s := by
  unfold Core.freeTail
  obtain ⟨-, ho, hv, hs⟩ := Core.setArray_rest d b { d.array b with drains := rest, tail := [], tailFull := false }
  exact ⟨by rw [Core.array_setArray, h.array], ho.trans h.ops, hv.trans h.v, hs.trans h.s⟩

/-- What a drain leaves of its core. -/
theorem Core.drainNow_rest : (c.drainNow b d rest).array b = { c.array b with drains := rest, tail := [], tailFull := false }
    ∧ (c.drainNow b d rest).ops = c.ops ∧ (c.drainNow b d rest).v = c.v ∧ (c.drainNow b d rest).s = c.s := by
  unfold Core.drainNow
  refine Core.freeTail_rest ?_ b rest
  split
  · exact (((Core.sameWork_storeBytes _ _ _ _).trans (Core.sameWork_storeBytes _ _ _ _)).trans (Core.sameWork_writeT _ _ _)).trans
      (Core.sameWork_writeT _ _ _)
  · exact (Core.sameWork_storeBytes _ _ _ _).trans (Core.sameWork_writeT _ _ _)

theorem Core.drainNow_store_one (h : d.fmt ≠ 0) :
    (c.drainNow b d rest).store = c.store.splice d.addr0 8192 (drainPayload (c.array b).tail d.fmt 0 4096) := by
  unfold Core.drainNow Core.freeTail
  dsimp only
  rw [(Core.setArray_rest _ _ _).1]
  simp only [if_neg h]
  rfl

theorem Core.drainNow_store_two (h : d.fmt = 0) :
    (c.drainNow b d rest).store = (c.store.splice d.addr0 8192 (drainPayload (c.array b).tail 0 0 2048)).splice d.addr1 8192
      (drainPayload (c.array b).tail 0 2048 2048) := by
  unfold Core.drainNow Core.freeTail
  dsimp only
  rw [(Core.setArray_rest _ _ _).1]
  simp only [if_pos h]
  rfl

/-- A number of `w` bytes that a drain writes at place `i` of a tile. -/
theorem readNat_splice_drain (m : Mem) (a : Nat) (tail : SMap W32) {fmt w : Nat} (f : W32 → Nat) (hf : ∀ v, drainBytes fmt v = bytesLE (f v) w)
    (lo : Nat) {n i : Nat} (hn : w * n = 8192 ∨ w * n ≤ 8192) (hi : i < n) :
    (m.splice a 8192 (drainPayload tail fmt lo n)).readNat (a + w * i) w = f (SMap.get 0 tail (lo + i)) % 256 ^ w := by
  have hle : w * (i + 1) ≤ w * n := Nat.mul_le_mul_left w hi
  rw [Nat.mul_succ] at hle
  have := Mem.readNat_of_bytes (m := m.splice a 8192 (drainPayload tail fmt lo n)) (x := f (SMap.get 0 tail (lo + i))) (a := a + w * i) (j := 0)
    (n := w) fun j hj => by
      rw [Nat.add_assoc, Mem.byte_splice_in _ _ _ _ _ (Nat.le_add_right _ _) (by omega), Nat.add_sub_cancel_left,
        Mem.byte_drainPayload tail (fun v => by rw [hf]; exact bytesLE_length _ _) lo hi hj, hf, bytesLE_getD _ _ _ hj, Nat.zero_add]
  rwa [Nat.pow_zero, Nat.div_one] at this

end

/-! What an event of an array does, by what stands first in the array's order. -/

section
variable {s : State} {k arr : Nat}

theorem arrayEvent_eq (hk : k < 256) (ha : arr < 2) (f : ArrayState → Core → Bool → State) :
    arrayEvent k arr s f = .next (f ((s.core k).array (arr == 1)) (s.core k) (arr == 1)) :=
  onUnit_of_ok _ (by simp [coreOk]; omega)

theorem ArrayState.nextFree_iff {x : ArrayState} : x.nextFree = true ↔
    x.nextStat = none ∨ ∀ st ∈ x.streams, st.started = true ∨ st.bridlesBefore ≠ x.issued - x.bridles.length := by
  unfold ArrayState.nextFree ArrayState.bridled
  simp

variable {o : BridleOp} {st : StreamOp} {d : DrainOp} {brest : List BridleOp} {srest : List StreamOp} {drest : List DrainOp}
  (hk : k < 256) (ha : arr < 2)
include hk ha

theorem bridleStart_starts (h : ((s.core k).array (arr == 1)).bridles = o :: brest) (h0 : o.started = false)
    (hf : ((s.core k).array (arr == 1)).nextFree = true) :
    execBridleStart k arr s = .next (s.setCore k ((s.core k).setArray (arr == 1) { (s.core k).array (arr == 1) with
      bridles := { o with started := true } :: brest, begun := ((s.core k).array (arr == 1)).begun + 1, nextStat := none })) := by
  unfold execBridleStart
  rw [arrayEvent_eq hk ha, h]
  dsimp only
  rw [h0, hf]
  rfl

theorem bridleComplete_ends (h : ((s.core k).array (arr == 1)).bridles = o :: brest) (h1 : o.started = true) :
    execBridleComplete k arr s = .next (((s.setCore k ((s.core k).setArray (arr == 1) { (s.core k).array (arr == 1) with
      bridles := brest
      nextStat := if ((s.core k).array (arr == 1)).bridled + 1 ≤ ((s.core k).array (arr == 1)).taken then none else some o.stat })).count
        (s.partOf k) 0 64).arrayDone k o.bundle o.bad) := by
  unfold execBridleComplete
  rw [arrayEvent_eq hk ha]
  dsimp only
  split
  · next h' => exact nomatch h.symm.trans h'
  · next h' =>
    obtain ⟨rfl, rfl⟩ := List.cons.inj (h.symm.trans h')
    rw [if_pos h1]

theorem streamStart_starts (h : ((s.core k).array (arr == 1)).streams = st :: srest) (h0 : st.started = false)
    (hb : st.bridlesBefore ≤ ((s.core k).array (arr == 1)).begun) :
    execStreamStart k arr s = .next (s.setCore k ((s.core k).setArray (arr == 1)
      { ((s.core k).array (arr == 1)).takeStationary st with streams := { st with started := true } :: srest })) := by
  unfold execStreamStart
  rw [arrayEvent_eq hk ha]
  dsimp only
  split
  · next h' => exact nomatch h.symm.trans h'
  · next h' =>
    obtain ⟨rfl, rfl⟩ := List.cons.inj (h.symm.trans h')
    rw [if_neg (by simp [h0, hb])]

theorem streamComplete_ends (h : ((s.core k).array (arr == 1)).streams = st :: srest) (h1 : st.started = true) :
    execStreamComplete k arr s = .next (((s.setCore k ((s.core k).setArray (arr == 1) { (s.core k).array (arr == 1) with
      streams := srest, landing := ((s.core k).array (arr == 1)).landing ++ [st] })).count
        (s.partOf k) 0 (st.vectors * pairSteps st.fmt)).arrayDone k st.bundle st.bad) := by
  unfold execStreamComplete
  rw [arrayEvent_eq hk ha]
  dsimp only
  split
  · next h' => exact nomatch h.symm.trans h'
  · next h' =>
    obtain ⟨rfl, rfl⟩ := List.cons.inj (h.symm.trans h')
    rw [if_pos h1]

/-- A *last* that finds the tail set full waits, or ends the routine where no drain names the tile. -/
theorem productsLanded_full (h : ((s.core k).array (arr == 1)).landing = st :: srest)
    (hf : (st.last && ((s.core k).array (arr == 1)).tailFull) = true) :
    execProductsLanded k arr s = .next (if ((s.core k).array (arr == 1)).drains.all fun d => d.bad = 0x090e then
      ((s.setCore k ((s.core k).setArray (arr == 1) { (s.core k).array (arr == 1) with landing := srest })).endRoutine k 0x090d
        st.bundle).settleCore k
      else s) := by
  unfold execProductsLanded
  rw [arrayEvent_eq hk ha]
  dsimp only
  split
  · next h' => exact nomatch h.symm.trans h'
  · next h' =>
    obtain ⟨rfl, rfl⟩ := List.cons.inj (h.symm.trans h')
    rw [if_pos hf]

theorem productsLanded_lands (h : ((s.core k).array (arr == 1)).landing = st :: srest)
    (hf : (st.last && ((s.core k).array (arr == 1)).tailFull) = false) :
    execProductsLanded k arr s = .next ((s.setCore k ((s.core k).setArray (arr == 1)
      (((s.core k).array (arr == 1)).landNow st srest))).settleCore k) := by
  unfold execProductsLanded
  rw [arrayEvent_eq hk ha]
  split
  · next h' => exact nomatch h.symm.trans h'
  · next h' =>
    obtain ⟨rfl, rfl⟩ := List.cons.inj (h.symm.trans h')
    rw [if_neg (by rw [hf]; exact Bool.false_ne_true)]

theorem drainComplete_noTile (h : ((s.core k).array (arr == 1)).drains = d :: drest) (hb : d.bad = 0x090e) :
    execDrainComplete k arr s = .next ((s.setCore k ((s.core k).setArray (arr == 1)
      { (s.core k).array (arr == 1) with drains := drest })).arrayDone k d.bundle d.bad) := by
  unfold execDrainComplete
  rw [arrayEvent_eq hk ha]
  dsimp only
  split
  · next h' => exact nomatch h.symm.trans h'
  · next h' =>
    obtain ⟨rfl, rfl⟩ := List.cons.inj (h.symm.trans h')
    rw [if_pos hb]

theorem drainComplete_full (h : ((s.core k).array (arr == 1)).drains = d :: drest) (hb : d.bad ≠ 0x090e)
    (hf : ((s.core k).array (arr == 1)).tailFull = true) :
    execDrainComplete k arr s = .next ((s.setCore k (if d.bad = 0 then (s.core k).drainNow (arr == 1) d drest
      else (s.core k).freeTail (arr == 1) drest)).arrayDone k d.bundle d.bad) := by
  unfold execDrainComplete
  rw [arrayEvent_eq hk ha]
  split
  · next h' => exact nomatch h.symm.trans h'
  · next h' =>
    obtain ⟨rfl, rfl⟩ := List.cons.inj (h.symm.trans h')
    rw [if_neg hb, if_pos hf]

end

end Sys2Proof.Machine

open Sys2Proof Sys2Proof.Machine

/-- Settles O44: each event by what stands first in the array's order; the live set and the drained bytes place by place. -/
theorem arraysWorkInOrder : Obligations.ArraysWorkInOrder := by
  intro s k hk arr ha c b x
  refine ⟨fun o rest ho => ⟨fun h0 hf => ?_, fun h1 => ?_⟩, fun st rest hs => ⟨fun h0 hb => ?_, fun h1 => ?_⟩,
    fun st rest hl => ⟨fun hlast hfull hall => ?_, fun hlast hfull hex => ?_, fun hfree => ?_⟩,
    fun d rest hd hbad => ?_, fun d rest hd hfull hb1 hb0 => ?_, fun d rest hd hfull hb0 => ?_⟩
  · exact bridleStart_starts hk ha ho h0 (ArrayState.nextFree_iff.mpr hf)
  · exact bridleComplete_ends hk ha ho h1
  · refine ⟨_, streamStart_starts hk ha hs h0 hb, rfl, fun ht => ?_, fun ht => ?_⟩
    · have : ¬st.bridlesBefore ≤ x.taken := by omega
      unfold ArrayState.takeStationary
      exact ⟨by rw [if_neg this], by rw [if_neg this]⟩
    · unfold ArrayState.takeStationary
      exact ⟨by rw [if_pos ht], by rw [if_pos ht]⟩
  · exact streamComplete_ends hk ha hs h1
  · refine (productsLanded_full hk ha hl (by rw [hlast]; exact hfull)).trans ?_
    rw [if_pos (by simpa using hall)]
  · refine (productsLanded_full hk ha hl (by rw [hlast]; exact hfull)).trans ?_
    rw [if_neg (by simpa using hex)]
  · refine ⟨_, productsLanded_lands hk ha hl (by
      rcases hfree with h | h
      · rw [h]
        rfl
      · exact (congrArg (st.last && ·) h).trans (Bool.and_false _)), ?_⟩
    unfold ArrayState.landNow
    cases hlast : st.last with
    | true =>
      refine ⟨rfl, rfl, rfl, fun _ => ⟨rfl, rfl⟩, fun h => (nomatch h), fun a h => ?_⟩
      simp only [if_true, Bool.false_eq_true, if_false]
      rw [StreamOp.get_landIn st _ h]
      cases st.term a <;> rfl
    | false =>
      refine ⟨rfl, rfl, rfl, fun h => (nomatch h), fun _ => ⟨rfl, rfl⟩, fun a h => ?_⟩
      simp only [if_true, Bool.false_eq_true, if_false]
      rw [StreamOp.get_landIn st _ h]
      cases st.term a <;> rfl
  · refine (drainComplete_noTile hk ha hd hbad).trans ?_
    rw [hbad]
    rfl
  · refine (drainComplete_full hk ha hd hb1 hfull).trans ?_
    unfold State.arrayDone
    rw [if_neg hb0, if_neg hb0]
    rfl
  · have hne : d.bad ≠ 0x090e := by
      rw [hb0]
      decide
    refine ⟨c.drainNow b d rest, ?_, Core.drainNow_rest.1, Core.drainNow_rest.2.1, Core.drainNow_rest.2.2.1, Core.drainNow_rest.2.2.2,
      fun hf => ?_, fun hf => ?_, fun hf hdis => ?_, fun a h0 h1 => ?_⟩
    · refine (drainComplete_full hk ha hd hne hfull).trans ?_
      unfold State.arrayDone
      rw [if_pos hb0, if_pos hb0]
    · intro i hi
      rw [Core.drainNow_store_one (by omega), hf]
      exact (readNat_splice_drain _ _ _ (fmt := 1) (w := 2) (fun v => (z16Encode .tiesEven v.toNat).1) (fun _ => rfl) 0 (by omega) hi).trans
        (by rw [Nat.zero_add]; rfl)
    · intro i hi
      have h1 := Mem.byte_drainPayload (c.array b).tail (fmt := d.fmt) (w := 1) (fun v => by rw [drainBytes_eight hf]; rfl) 0 hi
        Nat.one_pos
      rw [Core.drainNow_store_one (by omega), Mem.byte_splice_in _ _ _ _ _ (Nat.le_add_right _ i) (by omega), Nat.add_sub_cancel_left]
      rw [Nat.one_mul, Nat.add_zero, drainBytes_eight hf, Nat.zero_add] at h1
      exact h1
    · intro i hi
      rw [Core.drainNow_store_two hf]
      have r0 := readNat_splice_drain c.store d.addr0 x.tail (fmt := 0) (w := 4) BitVec.toNat (fun _ => rfl) 0 (n := 2048) (by omega) hi
      have r1 := readNat_splice_drain (c.store.splice d.addr0 8192 (drainPayload x.tail 0 0 2048)) d.addr1 x.tail (fmt := 0) (w := 4)
        BitVec.toNat (fun _ => rfl) 2048 (n := 2048) (by omega) hi
      rw [Nat.zero_add] at r0
      refine ⟨?_, r1.trans (Nat.mod_eq_of_lt (SMap.get 0 x.tail (2048 + i)).isLt)⟩
      refine Eq.trans (Mem.readNat_congr fun j hj => Mem.byte_splice_out _ _ _ _ _ (by omega)) ?_
      exact r0.trans (Nat.mod_eq_of_lt (SMap.get 0 x.tail i).isLt)
    · by_cases hf : d.fmt = 0
      · rw [Core.drainNow_store_two hf, Mem.byte_splice_out _ _ _ _ _ (h1.resolve_left (· hf)), Mem.byte_splice_out _ _ _ _ _ h0]
      · rw [Core.drainNow_store_one hf, Mem.byte_splice_out _ _ _ _ _ h0]
end

section
/-! PROOFS. The span, sequences, gondolas and reels (O45 to O50): span commands by their checks, the tables of mappings and tiles,
    what placing a tile leaves, accesses. -/

namespace Sys2Proof.Machine

/-- What a command reads before its effect is read exactly where its checks pass. -/
theorem State.afterChecks_eq (s : State) (L : List (Bool × Nat)) (read : State → State) :
    s.afterChecks L read = if firstFail L = none then read s else s := by
  unfold State.afterChecks
  cases firstFail L <;> rfl

end Sys2Proof.Machine

open Sys2Proof Sys2Proof.Machine

/-- Settles O45: every command by its list of checks. -/
theorem spanCommands : Obligations.SpanCommands := by
  intro s o ref c n exts u
  refine ⟨fun h => ?_, fun h => ?_, fun h errs => ?_, fun h errs => ?_, fun h => ?_, fun h => ?_⟩
  · exact carriesOut_of_checked h (Eq.refl (execMap o s)) rfl
  · refine carriesOut_of_checked h (Eq.refl (execUnmap o s)) ?_
    refine congrArg (State.checked _ ref _) (funext fun t => congrArg (State.addJob _ _) ?_)
    rw [List.not_any_eq_all_not]
    refine congrArg (List.all exts) (funext fun e => ?_)
    cases h : t.extent n e with
    | none => rfl
    | some x => exact Bool.not_not _
  · intro m sealing checks v bad
    refine readsAndCarriesOut_of_checked h (Eq.refl (execMode ⟨o, errs⟩ s)) ?_
    have hv : u.afterChecks checks (fun s => s.meetSlots n (s.writtenSlots n sealing) errs) = v := State.afterChecks_eq u checks _
    show (u.afterChecks checks fun s => s.meetSlots n (s.writtenSlots n sealing) errs).meeting ref n
      ((u.afterChecks checks fun s => s.meetSlots n (s.writtenSlots n sealing) errs).poisonedSlots n sealing) checks _ = _
    rw [hv]
    rfl
  · intro h3 core j checks v bad
    refine readsAndCarriesOut_of_checked h (Eq.refl (execHint ⟨o, errs⟩ s)) ?_
    have hv : (if h3 = 3 then u.afterChecks checks fun s => s.meetSlots n (s.nearReads n core (tileSlots c)) errs else u) = v := by
      by_cases h : h3 = 3
      · rw [if_pos h, State.afterChecks_eq]
        simp only [v, h, true_and]
      · rw [if_neg h]
        exact (if_neg fun hc => h hc.1).symm
    show (if h3 = 3 then u.afterChecks checks _ else u).meeting ref n _ checks _ = _
    rw [hv]
    rfl
  · exact carriesOut_of_checked h (Eq.refl (execScrub o s)) rfl
  · intro j
    refine readsAndCarriesOut_of_checked h (Eq.refl (execRehome o s)) ?_
    show u.meeting ref n _ _ _ = _
    unfold State.meeting
    rw [List.append_assoc]
    rfl
end

section
namespace Sys2Proof.Machine

/-! ### The keys of the span's tables -/

theorem extKey_inj {p e q f : Nat} (he : e < 2 ^ 31) (hf : f < 2 ^ 31) (h : extKey p e = extKey q f) : p = q ∧ e = f := by
  unfold extKey at h
  omega

theorem tileKey_inj {p x q y : Nat} (hx : x < 2 ^ 39) (hy : y < 2 ^ 39) (h : tileKey p x = tileKey q y) : p = q ∧ x = y := by
  unfold tileKey at h
  omega

/-! ### A mapping and a tile, set and read -/

theorem State.extent_setExtent {s : State} (hw : SMap.wf none s.spn.extents = true) (n e : Nat) (m : Option Extent) :
    (s.setExtent n e m).extent n e = m := SMap.get_set_same _ _ _ _ hw

theorem State.extent_setExtent_ne {s : State} (hw : SMap.wf none s.spn.extents = true) {n e p f : Nat} (m : Option Extent) (he : e < 2 ^ 31)
    (hf : f < 2 ^ 31) (h : p ≠ n ∨ f ≠ e) : (s.setExtent n e m).extent p f = s.extent p f :=
  SMap.get_set_ne _ _ _ _ _ hw fun hk => by
    obtain ⟨rfl, rfl⟩ := extKey_inj hf he hk
    exact h.elim (· rfl) (· rfl)

theorem State.tile_setTile {s : State} (hw : SMap.wf Tile.blank s.spn.tiles = true) (n slot : Nat) (t : Tile) :
    (s.setTile n slot t).tile n slot = t := SMap.get_set_same _ _ _ _ hw

theorem State.tile_setTile_ne {s : State} (hw : SMap.wf Tile.blank s.spn.tiles = true) {n slot p x : Nat} (t : Tile) (hs : slot < 2 ^ 39)
    (hx : x < 2 ^ 39) (h : p ≠ n ∨ x ≠ slot) : (s.setTile n slot t).tile p x = s.tile p x :=
  SMap.get_set_ne _ _ _ _ _ hw fun hk => by
    obtain ⟨rfl, rfl⟩ := tileKey_inj hx hs hk
    exact h.elim (· rfl) (· rfl)

theorem State.setTile_wf {s : State} (hw : SMap.wf Tile.blank s.spn.tiles = true) (n slot : Nat) (t : Tile) :
    SMap.wf Tile.blank (s.setTile n slot t).spn.tiles = true := SMap.set_wf _ _ _ _ hw

theorem State.tile_of_tiles {s u : State} (h : u.spn.tiles = s.spn.tiles) (n slot : Nat) : u.tile n slot = s.tile n slot := by
  unfold State.tile
  rw [h]

/-! ### What the operations on tiles leave -/

/-- Completing the commands that waited for tiles touches nothing but the list of jobs and what answering touches. -/
theorem State.settleJobs_behind (s : State) :
    s.settleJobs.behindRings = { s.behindRings with spn := { s.spn with jobs := s.settleJobs.spn.jobs } } := by
  have h : s.settleJobs.behindRings
      = ({ s with spn := { s.spn with jobs := s.spn.jobs.filter fun j => !(j.forMoves && s.jobSettled j) } } : State).behindRings :=
    by
    unfold State.settleJobs
    exact foldl_view State.behindRings (f := fun t (j : SpanJob) => t.completeOpt j.ref (s.jobStatus j))
      (fun t j => State.completeOpt_behind t j.ref _ 0) _ _
  have hj : s.settleJobs.spn.jobs = s.spn.jobs.filter fun j => !(j.forMoves && s.jobSettled j) := (congrArg (fun u => u.spn.jobs) h :)
  rw [h, hj]
  rfl

@[simp] theorem State.settleJobs_tiles (s : State) : s.settleJobs.spn.tiles = s.spn.tiles := (congrArg (fun u => u.spn.tiles) s.settleJobs_behind :)
@[simp] theorem State.settleJobs_extents (s : State) : s.settleJobs.spn.extents = s.spn.extents :=
  (congrArg (fun u => u.spn.extents) s.settleJobs_behind :)
@[simp] theorem State.settleJobs_cores (s : State) : s.settleJobs.cores = s.cores := (congrArg State.cores s.settleJobs_behind :)
@[simp] theorem State.settleJobs_parts (s : State) : s.settleJobs.parts = s.parts := (congrArg State.parts s.settleJobs_behind :)

@[simp] theorem State.writeNear_spn (s : State) (t : Tile) : (s.writeNear t).spn = s.spn := by
  unfold State.writeNear
  split <;> rfl

@[simp] theorem State.countTier_spn (s : State) (n : Nat) (t : Tile) : (s.countTier n t).spn = s.spn := by
  unfold State.countTier
  split <;> rfl

@[simp] theorem State.spnEvent_tiles (s : State) (i : Nat) (e : Ev) : (s.spnEvent i e).spn.tiles = s.spn.tiles :=
  (congrArg (fun u => u.spn.tiles) (State.raise_behind _ e _) :)

@[simp] theorem State.poisonRead_tiles (s : State) (n slot : Nat) : (s.poisonRead n slot).spn.tiles = s.spn.tiles := State.spnEvent_tiles _ _ _

@[simp] theorem State.spnStuck_tiles (s : State) (x y : W32) (off : Nat) : (s.spnStuck x y off).spn.tiles = s.spn.tiles := by
  unfold State.spnStuck
  split
  · exact State.spnEvent_tiles _ _ _
  · rfl

/-- The state without its tiles: what placing them leaves. -/
def State.behindTiles (s : State) : State := { s with spn := { s.spn with tiles := [] } }

/-- Making room changes tiles only, and keeps their table canonical. -/
theorem State.makeRoom_tilesOnly {s : State} (hw : SMap.wf Tile.blank s.spn.tiles = true) (n need except fuel : Nat) :
    SMap.wf Tile.blank (s.makeRoom n need except fuel).1.spn.tiles = true
      ∧ (s.makeRoom n need except fuel).1.behindTiles = s.behindTiles := by
  induction fuel generalizing s with
  | zero => exact ⟨hw, rfl⟩
  | succ fuel ih =>
    unfold State.makeRoom
    split
    · exact ⟨hw, rfl⟩
    · split
      · exact ⟨hw, rfl⟩
      · split
        · exact ⟨hw, rfl⟩
        · exact ih (State.setTile_wf hw _ _ _)

/-- A tile that comes to rest: the table stays canonical, nothing but tiles changes, and the tile is there with its place. -/
theorem State.restTile_rests {s : State} (hw : SMap.wf Tile.blank s.spn.tiles = true) (n slot : Nat) (t : Tile) :
    SMap.wf Tile.blank (s.restTile n slot t).spn.tiles = true ∧ (s.restTile n slot t).behindTiles = s.behindTiles
      ∧ ∃ b, (s.restTile n slot t).tile n slot = { t with tier2 := b, moving := none, placed := t.placed + 1 } := by
  obtain ⟨hr, hb⟩ := State.makeRoom_tilesOnly (State.setTile_wf hw n slot { s.tile n slot with fresh := true }) n (512 * t.units) slot
    (((s.setTile n slot { s.tile n slot with fresh := true }).tilesOf n).length + 1)
  exact ⟨State.setTile_wf hr _ _ _, hb, _, State.tile_setTile hr _ _ _⟩

theorem State.nearAddr_of_behindTiles {s u : State} (h : u.behindTiles = s.behindTiles) (t : Tile) : u.nearAddr t = s.nearAddr t :=
  (congrArg (fun v => v.nearAddr t) h :)

theorem State.nearAddr_none {s : State} {t : Tile} (h : t.nearCore = none) : s.nearAddr t = none := by
  unfold State.nearAddr
  rw [h]

theorem State.tileData_of_noPlace {s : State} {n slot : Nat} (h : (s.tile n slot).nearCore = none) :
    s.tileData n slot = (s.tile n slot).data := by
  unfold State.tileData
  dsimp only
  rw [State.nearAddr_none h]

/-- The bytes of a near place once a tile has been written into it: payload, then side data. -/
theorem State.writeNear_bytes {s : State} (hw : SMap.wf Core.blank s.cores = true) {t : Tile} {k a : Nat} (h : s.nearAddr t = some (k, a)) :
    (∀ i < 8192, ((s.writeNear t).core k).store.byte (a + i) = t.data.payload.byte i)
      ∧ ∀ i < 1024, ((s.writeNear t).core k).store.byte (a + 8192 + i) = t.data.side.byte i := by
  have hc : ((s.writeNear t).core k).store = ((s.core k).store.splice a 8192 t.data.payload).splice (a + 8192) 1024 t.data.side := by
    unfold State.writeNear
    rw [h]
    exact congrArg Core.store (State.core_setCore _ _ _ hw)
  rw [hc]
  refine ⟨fun i hi => ?_, fun i hi => ?_⟩
  · rw [Mem.byte_splice_out _ _ _ _ _ (by omega), Mem.byte_splice_in _ _ _ _ _ (by omega) (by omega), Nat.add_sub_cancel_left]
  · rw [Mem.byte_splice_in _ _ _ _ _ (by omega) (by omega), Nat.add_sub_cancel_left]

theorem State.core_of_cores {s u : State} (h : u.cores = s.cores) (k : Nat) : u.core k = s.core k := by
  unfold State.core
  rw [h]

/-! ### Scrubbing -/

@[simp] theorem State.scrubTile_extents (s : State) (n slot : Nat) : (s.scrubTile n slot).spn.extents = s.spn.extents := by
  unfold State.scrubTile
  rw [State.settleJobs_extents]
  exact (congrArg Spn.extents (State.writeNear_spn s { s.tile n slot with data := {} }) :)

theorem State.scrubTile_tiles (s : State) (n slot : Nat) :
    (s.scrubTile n slot).spn.tiles = (s.setTile n slot {}).spn.tiles := by
  unfold State.scrubTile
  rw [State.settleJobs_tiles]
  show SMap.set Tile.blank (State.writeNear s _).spn.tiles _ _ = _
  rw [State.writeNear_spn]
  rfl

@[simp] theorem State.scrubRange_extents (s : State) (n lo hi : Nat) : (s.scrubRange n lo hi).spn.extents = s.spn.extents :=
by
  unfold State.scrubRange
  exact foldl_view (fun t => t.spn.extents) (f := fun t (e : Nat × Tile) => t.scrubTile n e.1)
    (fun t e => State.scrubTile_extents t n e.1) _ _

theorem State.unmapOne_extent {s : State} (hw : SMap.wf none s.spn.extents = true) (n e : Nat) : (s.unmapOne n e).extent n e = none := by
  unfold State.unmapOne
  refine State.extent_setExtent ?_ n e none
  split
  · split
    · exact hw
    · rw [State.scrubRange_extents]; exact hw
  · exact hw

theorem State.scrubTile_store_zero {s : State} (hw : SMap.wf Core.blank s.cores = true) {n slot k a : Nat}
    (h : s.nearAddr (s.tile n slot) = some (k, a)) (i : Nat) (hi : i < 9216) : ((s.scrubTile n slot).core k).store.byte (a + i) = 0 := by
  have hc : (s.scrubTile n slot).core k = (s.writeNear { s.tile n slot with data := {} }).core k :=
    State.core_of_cores (State.settleJobs_cores _) k
  obtain ⟨hp, hs⟩ := State.writeNear_bytes (t := { s.tile n slot with data := {} }) hw h
  rw [hc]
  rcases Nat.lt_or_ge i 8192 with h8 | h8
  · exact hp i h8
  · have := hs (i - 8192) (by omega)
    rwa [show a + 8192 + (i - 8192) = a + i by omega] at this

/-! ### A hint that a tile has taken stays while the tile is placed -/

/-- The table of tiles is canonical, and the tile has a hint and none that waits. -/
structure State.Hinted (s : State) (n slot : Nat) (h : Byte) : Prop where
  wf : SMap.wf Tile.blank s.spn.tiles = true
  hint : (s.tile n slot).hint = some h
  next : (s.tile n slot).nextHint = none

theorem State.hinted_setTile {s : State} (hw : SMap.wf Tile.blank s.spn.tiles = true) {n slot : Nat} {t : Tile} {h : Byte} (h1 : t.hint = some h)
    (h2 : t.nextHint = none) : (s.setTile n slot t).Hinted n slot h := by
  refine ⟨State.setTile_wf hw _ _ _, ?_, ?_⟩ <;> rwa [State.tile_setTile hw]

theorem State.Hinted.of_tiles {s u : State} {n slot : Nat} {h : Byte} (hs : s.Hinted n slot h) (ht : u.spn.tiles = s.spn.tiles) : u.Hinted n slot h :=
  ⟨ht ▸ hs.wf, by rw [State.tile_of_tiles ht]; exact hs.hint, by rw [State.tile_of_tiles ht]; exact hs.next⟩

theorem State.Hinted.restTile {s : State} {n slot : Nat} {h : Byte} (hs : s.Hinted n slot h) {t : Tile} (h1 : t.hint = some h)
    (h2 : t.nextHint = none) : (s.restTile n slot t).Hinted n slot h := by
  obtain ⟨hw, -, b, ht⟩ := State.restTile_rests hs.wf n slot t
  refine ⟨hw, ?_, ?_⟩ <;> rw [ht] <;> assumption

theorem State.Hinted.poisonTile {s : State} {n slot : Nat} {h : Byte} (hs : s.Hinted n slot h) : (s.poisonTile n slot).Hinted n slot h := by
  unfold State.poisonTile
  dsimp only
  split
  · exact hs
  · exact ((State.hinted_setTile (t := { s.tile n slot with poisoned := true, fresh := false }) hs.wf hs.hint hs.next).of_tiles rfl).of_tiles
      (State.spnStuck_tiles _ _ _ _)

theorem State.Hinted.putBack {s : State} {n slot : Nat} {h : Byte} (hs : s.Hinted n slot h) : (s.putBack n slot).Hinted n slot h := by
  unfold State.putBack
  dsimp only
  split
  · exact hs
  · exact State.hinted_setTile hs.wf hs.hint hs.next
  · split
    · exact State.hinted_setTile hs.wf hs.hint hs.next
    · have hr : ∀ t t' : Tile, t.hint = some h → t.nextHint = none → ((s.restTile n slot t).countTier n t').Hinted n slot h :=
        fun t t' h1 h2 => (hs.restTile h1 h2).of_tiles (congrArg Spn.tiles (State.countTier_spn _ n t'))
      refine State.Hinted.of_tiles ?_ (State.settleJobs_tiles _)
      split
      · refine (hr _ _ ?_ ?_).poisonTile
        · exact hs.hint
        · exact hs.next
      · refine hr _ _ ?_ ?_
        · exact hs.hint
        · exact hs.next

theorem State.Hinted.takeNear {s : State} {n slot : Nat} {h : Byte} (hs : s.Hinted n slot h) (core : Nat) :
    (s.takeNear n slot core).Hinted n slot h := by
  unfold State.takeNear
  split
  · exact hs.of_tiles (State.poisonRead_tiles _ _ _)
  · split
    · exact hs
    · refine State.Hinted.of_tiles ?_ (congrArg Spn.tiles (State.writeNear_spn _ _))
      exact State.hinted_setTile (by rw [State.countTier_spn]; exact hs.wf) hs.hint hs.next

theorem State.Hinted.promoteWarm {s : State} {n slot : Nat} {h : Byte} (hs : s.Hinted n slot h) : (s.promoteWarm n slot).Hinted n slot h := by
  unfold State.promoteWarm
  dsimp only
  split
  · exact State.hinted_setTile (State.makeRoom_tilesOnly hs.wf _ _ _ _).1 hs.hint hs.next
  · exact hs

theorem State.hinted_hintNow {s : State} (hw : SMap.wf Tile.blank s.spn.tiles = true) (n slot core : Nat) (h : Byte) :
    (s.hintNow n h.toNat core slot).Hinted n slot h := by
  have h0 : (s.setTile n slot { s.tile n slot with hint := some (BitVec.ofNat 8 h.toNat), nextHint := none }).Hinted n slot h :=
    State.hinted_setTile hw (congrArg some (BitVec.ofNat_toNat 8 h ▸ BitVec.setWidth_eq h)) rfl
  unfold State.hintNow
  dsimp only
  split
  · split
    · exact h0
    · exact h0.putBack.takeNear core
  · exact h0.putBack.promoteWarm

/-! ### Writing a tile -/

theorem State.applyHint_of_none {s : State} {n slot : Nat} (h : (s.tile n slot).nextHint = none) : s.applyHint n slot = s := by
  unfold State.applyHint
  dsimp only
  rw [h]

theorem State.applyHint_of_some {s : State} {n slot core : Nat} {h : Byte} (hn : (s.tile n slot).nextHint = some (h, core))
    (hm : (s.tile n slot).moving = none) : s.applyHint n slot = s.hintNow n h.toNat core slot := by
  unfold State.applyHint
  dsimp only
  rw [hn]
  dsimp only
  rw [hm]
  rfl

/-- The bytes that an extent keeps of a tile: trimmed where its mode trims. -/
def Extent.keeps (e : Extent) (d : TileData) : TileData :=
  if e.mode = 1 then { d with payload := trimPayload d.fmt e.trim.toNat d.payload } else d

theorem Tile.store_eq (t : Tile) (e : Extent) (d : TileData) : t.store e d =
    { t with
      data := e.keeps d, fresh := false, poisoned := false, moving := none, savedMark := false, mode := e.mode, isSealed := e.isSealed
      trim := e.trim, units := unitsOf e.isSealed (tileStream e.isSealed e.trimN (e.keeps d)).1.length
      isFolded := (tileStream e.isSealed e.trimN (e.keeps d)).2, crc := crc64 (tileStream e.isSealed e.trimN (e.keeps d)).1, raw := none } := by
  unfold Tile.store Extent.trimN Extent.keeps
  by_cases h : e.mode = 1
  · simp only [if_pos h]
  · simp only [if_neg h]

/-- A written tile with no hint that waits: it is at rest with its new place, and the cores are as its near copy leaves them. -/
theorem State.writeTile_unhinted {s : State} (hw : SMap.wf Tile.blank s.spn.tiles = true) {n slot : Nat} (e : Extent) (d : TileData)
    (hn : (s.tile n slot).nextHint = none) : ∃ (r : State) (b : Bool), r.behindTiles = s.behindTiles
      ∧ (s.writeTile n slot e d).cores = (r.writeNear ((s.tile n slot).store e d)).cores
      ∧ (s.writeTile n slot e d).tile n slot =
        { (s.tile n slot).store e d with tier2 := b, moving := none, placed := (s.tile n slot).placed + 1 } := by
  obtain ⟨-, hb, b, ht⟩ := State.restTile_rests hw n slot ((s.tile n slot).store e d)
  have ht' : ((s.restTile n slot ((s.tile n slot).store e d)).writeNear ((s.tile n slot).store e d)).tile n slot =
      { (s.tile n slot).store e d with tier2 := b, moving := none, placed := (s.tile n slot).placed + 1 } :=
    (State.tile_of_tiles (congrArg Spn.tiles (State.writeNear_spn _ _)) n slot).trans ht
  refine ⟨_, b, hb, ?_, ?_⟩
  · unfold State.writeTile
    rw [State.settleJobs_cores, State.applyHint_of_none (by rw [ht']; exact hn)]
  · unfold State.writeTile
    rw [State.tile_of_tiles (State.settleJobs_tiles _), State.applyHint_of_none (by rw [ht']; exact hn), ht']

/-- A hint that waited is the tile's once the tile is written. -/
theorem State.writeTile_hinted {s : State} (hw : SMap.wf Tile.blank s.spn.tiles = true) {n slot core : Nat} {h : Byte} (e : Extent) (d : TileData)
    (hn : (s.tile n slot).nextHint = some (h, core)) : (s.writeTile n slot e d).Hinted n slot h := by
  obtain ⟨hr, -, b, ht⟩ := State.restTile_rests hw n slot ((s.tile n slot).store e d)
  have hs : ((s.restTile n slot ((s.tile n slot).store e d)).writeNear ((s.tile n slot).store e d)).spn.tiles = _ :=
    congrArg Spn.tiles (State.writeNear_spn _ _)
  have ht' := (State.tile_of_tiles hs n slot).trans ht
  unfold State.writeTile
  refine State.Hinted.of_tiles ?_ (State.settleJobs_tiles _)
  rw [State.applyHint_of_some (core := core) (h := h) (by rw [ht']; exact hn) (by rw [ht'])]
  exact State.hinted_hintNow (hs ▸ hr) n slot core h

/-- A mapping entered for a list of extents is each one's, and no other changes. -/
theorem State.foldl_setExtent {l : List Nat} (hl : ∀ e ∈ l, e < 2 ^ 31) (n : Nat) (m : Extent) {s : State}
    (hw : SMap.wf none s.spn.extents = true) :
    let u := l.foldl (fun t e => t.setExtent n e (some m)) s
    (∀ e ∈ l, u.extent n e = some m) ∧ (∀ p e, e < 2 ^ 31 → (p ≠ n ∨ e ∉ l) → u.extent p e = s.extent p e)
      ∧ u = { s with spn := { s.spn with extents := u.spn.extents } } := by
  induction l generalizing s with
  | nil => exact ⟨(fun _ h => nomatch h), (fun _ _ _ _ => rfl), rfl⟩
  | cons a l ih =>
    have ha := hl a (List.mem_cons_self ..)
    obtain ⟨hin, hout, heq⟩ := ih (fun e he => hl e (List.mem_cons_of_mem _ he)) (s := s.setExtent n a (some m)) (SMap.set_wf _ _ _ _ hw)
    refine ⟨fun e he => ?_, fun p e he h => ?_, heq⟩
    · by_cases hel : e ∈ l
      · exact hin e hel
      · obtain rfl : e = a := (List.mem_cons.mp he).resolve_right hel
        exact (hout n e ha (.inr hel)).trans (State.extent_setExtent hw n e _)
    · refine (hout p e he (h.imp id fun hn hc => hn (List.mem_cons_of_mem _ hc))).trans ?_
      exact State.extent_setExtent_ne hw _ ha he (h.imp id fun hn hc => hn (hc ▸ List.mem_cons_self ..))

end Sys2Proof.Machine

open Sys2Proof Sys2Proof.Machine

/-- Settles O46: the tables' rules, then what placing a tile leaves of it. -/
theorem mappingsAndScrubs : Obligations.MappingsAndScrubs := by
  intro s n
  refine ⟨fun l m hw hl => ?_, fun e _ hw => ?_, fun slot hs hw => ?_, fun slot _ hw e d => ?_, fun slot h => ?_, fun key slot l => ?_⟩
  · exact State.foldl_setExtent hl n m hw
  · exact State.unmapOne_extent hw n e
  · have ht : (s.scrubTile n slot).tile n slot = Tile.blank :=
      (State.tile_of_tiles (State.scrubTile_tiles s n slot) n slot).trans (State.tile_setTile hw n slot {})
    refine ⟨ht, ?_, fun p x hx h => ?_, fun hc k a hn i hi => State.scrubTile_store_zero hc hn i hi⟩
    · rw [State.tileData_of_noPlace (by rw [ht]; rfl), ht]
      rfl
    · rw [State.tile_of_tiles (State.scrubTile_tiles s n slot), State.tile_setTile_ne hw _ hs hx h]
  · intro u x
    refine ⟨fun hn => ?_, fun h core hn => ?_⟩
    · obtain ⟨r, b, hr, hc, ht⟩ := State.writeTile_unhinted hw e d hn
      have ht' : u.tile n slot = _ := ht
      rw [Tile.store_eq] at ht'
      refine ⟨by rw [ht']; rfl, fun hp => ?_, fun hcw k a ha hx => ?_⟩
      · rw [State.tileData_of_noPlace (by rw [ht']; exact hp), ht']
        rfl
      · have hcores : r.cores = s.cores := (congrArg State.cores hr :)
        have hrc : SMap.wf Core.blank r.cores = true := hcores ▸ hcw
        have hra : r.nearAddr ((s.tile n slot).store e d) = some (k, a) := by
          rw [State.nearAddr_of_behindTiles hr, Tile.store_eq]
          exact ha
        obtain ⟨hp, hd⟩ := State.writeNear_bytes hrc hra
        have hk : u.core k = _ := State.core_of_cores hc k
        rw [Tile.store_eq] at hk hp hd
        rw [hk]
        exact ⟨hp, fun i hi => hd i (Nat.lt_of_lt_of_le hi hx)⟩
    · obtain ⟨-, h1, h2⟩ := State.writeTile_hinted hw e d hn
      exact ⟨h1, h2⟩
  · unfold State.storedUnits
    dsimp only
    rw [h]
    rfl
  · exact List.flatMap_def
end

section
namespace Sys2Proof.Machine

/-! ### Accesses of cores to the span -/

section
variable {s : State} {k i n : Nat} {o : InFlight} {a : W64}

theorem State.writeStatus_unmapped (h : s.addrRef n a = none) : s.writeStatus n a = (0x090b, none) := by
  unfold State.writeStatus
  rw [h]

theorem State.writeStatus_ro {r : SlotRef} (h : s.addrRef n a = some r) (hr : r.ro = true) : s.writeStatus n a = (0x0911, none) := by
  unfold State.writeStatus
  rw [h]
  exact if_pos hr

theorem exec_spanWriteAccept_plain (hk : k < 256) (hdue : (s.core k).spanDue i = some o) (hp : s.partOf k = some n) {d : TileData} {q : Bool}
    (hspan : o.span = .write a d q) {r : SlotRef} (h : s.writeStatus n a = (0, some (r, .plain))) :
    exec (.spanWriteAccept k i) s = .next ((s.coreWrite n r (a.toNat / 8192) d).served k i { o with span := .write a d true } 0) := by
  show execSpanWriteAccept k i s = _
  unfold execSpanWriteAccept
  rw [onUnit_of_ok _ (coreOk_of_lt hk), hdue, hp]
  dsimp only
  rw [hspan]
  dsimp only
  rw [h]

theorem exec_spanWriteAccept_refused (hk : k < 256) (hdue : (s.core k).spanDue i = some o) (hp : s.partOf k = some n) {d : TileData} {q : Bool}
    (hspan : o.span = .write a d q) {st : W16} (h : s.writeStatus n a = (st, none)) :
    exec (.spanWriteAccept k i) s = .next (s.served k i o st) := by
  show execSpanWriteAccept k i s = _
  unfold execSpanWriteAccept
  rw [onUnit_of_ok _ (coreOk_of_lt hk), hdue, hp]
  dsimp only
  rw [hspan]
  dsimp only
  rw [h]

theorem exec_spanReadComplete_unmapped (hk : k < 256) (hdue : (s.core k).spanDue i = some o) (hp : s.partOf k = some n) {dst m : Nat}
    (hspan : o.span = .read a dst m) (cw : CodeErrs) (h : s.addrRef n a = none) :
    exec (.spanReadComplete k i cw) s = .next (s.served k i o 0x090b) := by
  show execSpanReadComplete k i cw s = _
  unfold execSpanReadComplete
  rw [onUnit_of_ok _ (coreOk_of_lt hk), hdue, hp]
  dsimp only
  rw [hspan]
  dsimp only
  rw [h]

theorem exec_spanReadComplete (hk : k < 256) (hdue : (s.core k).spanDue i = some o) (hp : s.partOf k = some n) {dst m : Nat}
    (hspan : o.span = .read a dst m) (cw : CodeErrs) {r : SlotRef} (h : s.addrRef n a = some r) :
    exec (.spanReadComplete k i cw) s = .next
      ((if (s.tile r.owner (a.toNat / 8192)).nearCore.isSome then s else s.codewords r.owner (a.toNat / 8192) cw).readBack k i n o r
        (a.toNat / 8192) dst m) := by
  show execSpanReadComplete k i cw s = _
  unfold execSpanReadComplete
  rw [onUnit_of_ok _ (coreOk_of_lt hk), hdue, hp]
  dsimp only
  rw [hspan]
  dsimp only
  rw [h]

variable {r : SlotRef} {slot dst m : Nat}

theorem State.readBack_poisoned (hp : (s.tile r.owner slot).poisoned = true) (hport : s.isPort r.owner slot = false) :
    s.readBack k i n o r slot dst m = (s.poisonRead n slot).served k i o 0x090c := by
  unfold State.readBack
  dsimp only
  rw [if_pos (by rw [hp, hport]; rfl)]

theorem State.readBack_line (hp : (s.tile r.owner slot).poisoned = false)
    (h : (s.nearPoison (s.tile r.owner slot) = true ∧ s.isPort r.owner slot = false) ∨ (s.core k).writePoison dst (8192 + m) = true) :
    s.readBack k i n o r slot dst m = s.served k i o 0x0905 := by
  unfold State.readBack
  dsimp only
  rw [if_neg (by rw [hp]; exact Bool.false_ne_true), if_pos]
  rcases h with ⟨hn, hport⟩ | hw
  · rw [hn, hport]; rfl
  · rw [hw, Bool.or_true]

theorem State.readBack_data (hp : (s.tile r.owner slot).poisoned = false) (hn : s.nearPoison (s.tile r.owner slot) = false)
    (hw : (s.core k).writePoison dst (8192 + m) = false) :
    s.readBack k i n o r slot dst m = (((s.countTier n (s.tile r.owner slot)).countRead n r slot).modCore k fun c =>
      c.storeBytes dst (8192 + m) ((s.readTile r.owner slot).bytesFor m)).served k i o 0 := by
  unfold State.readBack
  dsimp only
  rw [if_neg (by rw [hp]; exact Bool.false_ne_true), if_neg (by rw [hn, hw]; exact Bool.false_ne_true)]

end

/-! ### What the span controller does of itself -/

theorem exec_migrationComplete {s : State} {n : Nat} (hn : n < 32) {slot : Nat} {t2 : Bool} (cw : CodeErrs) (h : (s.tile n slot).moving = some t2) :
    let w := s.codewords n slot cw
    let t := w.tile n slot
    let u : Tile := { t with tier2 := t2, moving := none, savedMark := t.savedMark && t2, placed := t.placed + 1 }
    exec (.migrationComplete n slot cw) s = .next (((((w.countTier n { t with nearCore := none }).countTier n { u with nearCore := none }).setTile n
      slot
      u).applyHint n slot).promoteWarm n slot).settleJobs := by
  intro w t u
  show execMigrationComplete n slot cw s = _
  unfold execMigrationComplete
  rw [onUnit_of_ok _ (partOk_of_lt hn), h]

theorem exec_letSinkTimeout {s : State} {n : Nat} (hn : n < 32) {slot : Nat} (hf : (s.tile n slot).fresh = false)
    (hh : s.hintOf n slot (s.tile n slot) = 1) (h2 : (s.tile n slot).tier2 = false) (hm : (s.tile n slot).moving = none)
    (hb : (s.part n).ballast ≠ 0) :
    exec (.letSinkTimeout n slot) s = .next (s.setTile n slot { s.tile n slot with moving := some true }) := by
  show execLetSinkTimeout n slot s = _
  unfold execLetSinkTimeout
  rw [onUnit_of_ok _ (partOk_of_lt hn)]
  dsimp only
  rw [if_pos]
  rw [hf, hh, h2, hm, bne_iff_ne.mpr hb]
  rfl

/-- On a patrol event a span controller that is up does as the event says. -/
theorem exec_patrol {s t : State} (h : s.spn.ready = true) {ev : PatrolEvent} (ht : execPatrol ev s = .next (if !s.spn.ready then s else t)) :
    exec (.patrol ev) s = .next t := by
  show execPatrol ev s = _
  rw [ht, h]
  rfl

theorem exec_imbalanceRaise {s : State} {k : Nat} (hk : k < 12) (one : Bool) (h : s.spn.ready = true) (hi : s.spn.imbal = false) :
    exec (.imbalanceRaise k one) s = .next (({ s with spn := { s.spn with
      imbal := true, imbSingle := one, imbStack := BitVec.ofNat 4 k } } : State).spnEvent 2 { status := 0x0321, words := [k] }) := by
  show execImbalanceRaise k one s = _
  unfold execImbalanceRaise
  rw [onUnit_of_ok _ (decide_eq_true hk), if_pos (by rw [h, hi]; rfl)]

theorem exec_stackThrottle {s : State} {k : Nat} (hk : k < 12) (hr : s.su.rails = true) (h : k ∉ s.spn.throttled) :
    exec (.stackThrottle k) s = .next (({ s with spn := { s.spn with throttled := k :: s.spn.throttled } } : State).spnEvent 3
      { status := unlistedCode 2, words := [k] }) := by
  show execStackThrottle k s = _
  unfold execStackThrottle
  rw [onUnit_of_ok _ (decide_eq_true hk), if_pos]
  rw [hr, Bool.true_and, Bool.not_eq_true', List.contains_eq_mem]
  exact decide_eq_false h

theorem exec_scrubComplete {s : State} {i : Nat} {j : SpanJob} (h : s.spn.jobs[i]? = some j) (hk : j.forMoves = false) :
    exec (.scrubComplete i) s = .next (if j.kind = .partDelete then (if s.deleteDue j.part then
        (({ s with spn := { s.spn with jobs := listDrop s.spn.jobs i } } : State).erasePart j.part).completeOpt j.ref 0 else s)
      else ({ s with spn := { s.spn with jobs := listDrop s.spn.jobs i } } : State).completeOpt j.ref 0) := by
  show execScrubComplete i s = _
  unfold execScrubComplete
  rw [h]
  dsimp only
  rw [if_neg (by rw [hk]; exact Bool.false_ne_true)]

end Sys2Proof.Machine

open Sys2Proof Sys2Proof.Machine

/-- Settles O47: each access by what its address names, and the controller's own rows one by one. -/
theorem spanServes : Obligations.SpanServes := by
  intro s
  refine ⟨fun k hk i o n a hdue hp => ⟨fun d q hspan => ⟨fun r hw => ?_, fun hr => ?_, fun r hr hro => ?_⟩, fun dst m hspan =>
    ⟨fun cw hr => ?_, fun cw r hr => ?_⟩⟩, fun n hn slot cw t2 h => ?_, fun n hn slot hf hh h2 hm hb => ?_, fun n hn h => ?_, fun hready => ?_,
    fun himb => ?_, fun k hk => ⟨fun hr h => ?_, ?_⟩, fun i j h => ?_⟩
  · exact exec_spanWriteAccept_plain hk hdue hp hspan hw
  · exact exec_spanWriteAccept_refused hk hdue hp hspan (State.writeStatus_unmapped hr)
  · exact exec_spanWriteAccept_refused hk hdue hp hspan (State.writeStatus_ro hr hro)
  · exact exec_spanReadComplete_unmapped hk hdue hp hspan cw hr
  · intro slot t
    have hx : exec (.spanReadComplete k i cw) s = .next (t.readBack k i n o r slot dst m) := exec_spanReadComplete hk hdue hp hspan cw hr
    refine ⟨fun h1 h2 => ?_, fun h1 h2 => ?_, fun h1 h2 h3 => ?_⟩
    · rw [hx, State.readBack_poisoned h1 h2]
    · rw [hx, State.readBack_line h1 h2]
    · rw [hx, State.readBack_data h1 h2 h3]
  · exact exec_migrationComplete hn cw h
  · exact exec_letSinkTimeout hn hf hh h2 hm hb
  · show execUseCountHalving n s = _
    unfold execUseCountHalving
    rw [onUnit_of_ok _ (partOk_of_lt hn), if_pos h]
  · refine ⟨exec_patrol hready rfl, exec_patrol hready rfl, fun hpat => ⟨fun t2 => ?_, fun n hn slot errs => ?_, ?_⟩,
      fun k hk one hi => exec_imbalanceRaise hk one hready hi⟩
    · exact (exec_patrol hready rfl).trans (congrArg Host.Outcome.next (if_pos hpat))
    · refine (exec_patrol hready rfl).trans (congrArg Host.Outcome.next ((if_pos ?_).trans ?_))
      · rw [hpat, partOk_of_lt hn]; rfl
      · simp only [Bool.and_eq_true, Bool.not_eq_true']
    · exact (exec_patrol hready rfl).trans (congrArg Host.Outcome.next (if_pos hpat))
  · exact congrArg Host.Outcome.next (if_pos himb)
  · exact exec_stackThrottle hk hr h
  · refine ⟨_, onUnit_of_ok _ (decide_eq_true hk), fun hc => ?_, fun j hj => ?_⟩
    · exact absurd (List.mem_filter.mp hc).2 (by simp)
    · exact List.mem_filter.trans (and_iff_left (decide_eq_true hj))
  · refine ⟨fun hk => ?_, fun hk hd => ?_⟩
    · rw [exec_scrubComplete h (by rcases hk with hk | hk <;> rw [SpanJob.forMoves, hk] <;> rfl),
        if_neg (by rcases hk with hk | hk <;> rw [hk] <;> decide)]
    · rw [exec_scrubComplete h (by rw [SpanJob.forMoves, hk]; rfl), if_pos hk, if_pos hd]
end

section
namespace Sys2Proof.Machine

/-! ### Sequence slots: set and read -/

section
variable {s : State} {n : Nat}

theorem State.seq_setSeq (hc : SMap.wf Core.blank s.cores = true) (hs : SMap.wf SeqSlot.blank (s.core (n / 6)).slots = true) (x : SeqSlot) :
    (s.setSeq n x).seq n = x := by
  unfold State.seq State.setSeq State.modCore
  rw [State.core_setCore _ _ _ hc]
  exact SMap.get_set_same _ _ _ _ hs

theorem State.seq_setSeq_ne (hc : SMap.wf Core.blank s.cores = true) (hs : SMap.wf SeqSlot.blank (s.core (n / 6)).slots = true) {m : Nat}
    (h : m ≠ n) (x : SeqSlot) : (s.setSeq n x).seq m = s.seq m := by
  unfold State.seq State.setSeq State.modCore
  by_cases hk : m / 6 = n / 6
  · rw [hk, State.core_setCore _ _ _ hc]
    exact SMap.get_set_ne _ _ _ _ _ hs (by omega)
  · rw [State.core_setCore_ne _ _ _ _ hc hk]

theorem State.seq_of_cores {u : State} (h : u.cores = s.cores) (n : Nat) : u.seq n = s.seq n := by
  unfold State.seq
  rw [State.core_of_cores h]

theorem State.setSeq_wf (hc : SMap.wf Core.blank s.cores = true) (hs : SMap.wf SeqSlot.blank (s.core (n / 6)).slots = true) (x : SeqSlot) :
    SMap.wf Core.blank (s.setSeq n x).cores = true ∧ SMap.wf SeqSlot.blank ((s.setSeq n x).core (n / 6)).slots = true := by
  refine ⟨State.setCore_wf _ _ _ hc, ?_⟩
  unfold State.setSeq State.modCore
  rw [State.core_setCore _ _ _ hc]
  exact SMap.set_wf _ _ _ _ hs

theorem State.gondola_of_table {u : State} (h : u.gon.table = s.gon.table) (g : Nat) : u.gondola g = s.gondola g := by
  unfold State.gondola
  rw [h]

@[simp] theorem State.gonEvent_cores (s : State) (i : Nat) (e : Ev) : (s.gonEvent i e).cores = s.cores :=
  (congrArg State.cores (State.raise_behind _ e _) :)

@[simp] theorem State.gonEvent_table (s : State) (i : Nat) (e : Ev) : (s.gonEvent i e).gon.table = s.gon.table :=
  (congrArg (fun u => u.gon.table) (State.raise_behind _ e _) :)

/-! ### References -/

theorem State.dropRef_cores (s : State) (x : SeqSlot) : (s.dropRef x).cores = s.cores := by
  unfold State.dropRef
  split <;> rfl

theorem State.dropRef_none {x : SeqSlot} (h : x.gondola = 0xffff) : s.dropRef x = s := if_pos h

/-- A descriptor that loses a reference of a slot: of the retiring version where the slot's is that one. -/
def Gondola.without (d : Gondola) (x : SeqSlot) : Gondola :=
  if d.hasRetiring = true ∧ x.version = d.retVersion then { d with retRefs := d.retRefs - 1 } else { d with refs := d.refs - 1 }

theorem State.dropRef_some {x : SeqSlot} (h : x.gondola ≠ 0xffff) :
    s.dropRef x = s.setGondola x.gondola.toNat ((s.gondola x.gondola.toNat).without x).settleRefs := by
  unfold State.dropRef Gondola.without
  dsimp only
  rw [if_neg h]
  simp only [Bool.and_eq_true, decide_eq_true_eq]

theorem Gondola.without_st (d : Gondola) (x : SeqSlot) : (d.without x).st = d.st := by
  unfold Gondola.without
  split <;> rfl

theorem Gondola.settleRefs_releases {d : Gondola} (h : d.st = .cut ∨ d.st = .withdrawing) (h1 : d.refs = 0) (h2 : d.retRefs = 0) :
    d.settleRefs = { d with st := .releasing } := by
  unfold Gondola.settleRefs
  rw [if_pos]
  rw [h1, h2]
  rcases h with h | h <;> rw [h] <;> rfl

theorem Gondola.settleRefs_stays {d : Gondola} (h : (d.st ≠ .cut ∧ d.st ≠ .withdrawing) ∨ d.refs ≠ 0 ∨ d.retRefs ≠ 0) : d.settleRefs = d := by
  unfold Gondola.settleRefs
  rw [if_neg]
  simp only [Bool.and_eq_true, Bool.or_eq_true, beq_iff_eq]
  tauto

/-! ### The end of a sequence -/

theorem State.endSeq_of_not_open (h : (s.seq n).st ≠ .opened) (st : W16) : s.endSeq n st = s := if_neg h

/-- What an open sequence that ends is before its token boundary. -/
def State.ending (s : State) (n : Nat) (st : W16) : State :=
  let t := s.setSeq n { s.seq n with st := .ending, endStatus := st, fed := none }
  if st = 0x0501 then t.gonEvent 0 { status := 0x0501, part := some (s.seq n).part, words := [n] } else t

theorem State.endSeq_of_open (h : (s.seq n).st = .opened) (st : W16) : s.endSeq n st = (s.ending n st).tokenBoundary n := if_pos h

theorem State.ending_cores (s : State) (n : Nat) (st : W16) :
    (s.ending n st).cores = (s.setSeq n { s.seq n with st := .ending, endStatus := st, fed := none }).cores := by
  unfold State.ending
  dsimp only
  split
  · exact State.gonEvent_cores _ _ _
  · rfl

theorem State.ending_table (s : State) (n : Nat) (st : W16) : (s.ending n st).gon.table = s.gon.table := by
  unfold State.ending
  dsimp only
  split
  · exact State.gonEvent_table _ _ _
  · rfl

theorem State.seq_ending (hc : SMap.wf Core.blank s.cores = true) (hs : SMap.wf SeqSlot.blank (s.core (n / 6)).slots = true) (st : W16) :
    (s.ending n st).seq n = { s.seq n with st := .ending, endStatus := st, fed := none } :=
  (State.seq_of_cores (s.ending_cores n st) n).trans (State.seq_setSeq hc hs _)

theorem State.seq_ending_ne (hc : SMap.wf Core.blank s.cores = true) (hs : SMap.wf SeqSlot.blank (s.core (n / 6)).slots = true) (st : W16)
    {m : Nat} (h : m ≠ n) : (s.ending n st).seq m = s.seq m :=
  (State.seq_of_cores (s.ending_cores n st) m).trans (State.seq_setSeq_ne hc hs h _)

theorem State.ending_wf (hc : SMap.wf Core.blank s.cores = true) (hs : SMap.wf SeqSlot.blank (s.core (n / 6)).slots = true) (st : W16) :
    SMap.wf Core.blank (s.ending n st).cores = true ∧ SMap.wf SeqSlot.blank ((s.ending n st).core (n / 6)).slots = true := by
  rw [State.core_of_cores (s.ending_cores n st), s.ending_cores n st]
  exact State.setSeq_wf hc hs _

theorem State.tokenBoundary_inStep (h : (s.seq n).inStep = true) : s.tokenBoundary n = s := if_neg fun hc => by simp [h] at hc

theorem State.tokenBoundary_ends (h : (s.seq n).st = .ending) (hi : (s.seq n).inStep = false) :
    s.tokenBoundary n = (s.setSeq n { s.seq n with st := .scrubbing }).dropRef (s.seq n) := if_pos ⟨h, hi⟩

/-- The slots after the end of an open sequence: the slot's own status and state, and every other as it was. -/
theorem State.seq_endSeq (hc : SMap.wf Core.blank s.cores = true) (hs : SMap.wf SeqSlot.blank (s.core (n / 6)).slots = true)
    (ho : (s.seq n).st = .opened) (st : W16) :
    (s.endSeq n st).seq n = { s.seq n with st := if (s.seq n).inStep then .ending else .scrubbing, endStatus := st, fed := none }
      ∧ ∀ m, m ≠ n → (s.endSeq n st).seq m = s.seq m := by
  have hx := State.seq_ending hc hs st
  rw [State.endSeq_of_open ho]
  cases hi : (s.seq n).inStep with
  | true =>
    rw [State.tokenBoundary_inStep (by rw [hx]; exact hi), hx]
    exact ⟨rfl, fun m hm => State.seq_ending_ne hc hs st hm⟩
  | false =>
    rw [State.tokenBoundary_ends (by rw [hx]) (by rw [hx]; exact hi), hx]
    obtain ⟨hc', hs'⟩ := State.ending_wf hc hs st
    refine ⟨?_, fun m hm => ?_⟩
    · rw [State.seq_of_cores (State.dropRef_cores _ _), State.seq_setSeq hc' hs']
      rfl
    · rw [State.seq_of_cores (State.dropRef_cores _ _), State.seq_setSeq_ne hc' hs' hm, State.seq_ending_ne hc hs st hm]

/-- The descriptors after the end of an open sequence: one that it references has a reference less where the slot is scrubbed. -/
theorem State.gondola_endSeq (hc : SMap.wf Core.blank s.cores = true) (hs : SMap.wf SeqSlot.blank (s.core (n / 6)).slots = true)
    (ho : (s.seq n).st = .opened) (st : W16) :
    ((s.seq n).gondola = 0xffff ∨ (s.seq n).inStep = true → ∀ h, (s.endSeq n st).gondola h = s.gondola h)
      ∧ ((s.seq n).gondola ≠ 0xffff → (s.seq n).inStep = false → ∃ u : State, u.gon.table = s.gon.table ∧ s.endSeq n st =
          u.setGondola (s.seq n).gondola.toNat ((s.gondola (s.seq n).gondola.toNat).without (s.seq n)).settleRefs) := by
  have hx := State.seq_ending hc hs st
  rw [State.endSeq_of_open ho]
  refine ⟨fun h g => ?_, fun h hi => ?_⟩
  · cases hi : (s.seq n).inStep with
    | true =>
      rw [State.tokenBoundary_inStep (by rw [hx]; exact hi)]
      exact State.gondola_of_table (s.ending_table n st) g
    | false =>
      have hg := h.resolve_right (by rw [hi]; exact Bool.false_ne_true)
      rw [State.tokenBoundary_ends (by rw [hx]) (by rw [hx]; exact hi), State.dropRef_none (by rw [hx]; exact hg)]
      exact State.gondola_of_table (s.ending_table n st) g
  · refine ⟨(s.ending n st).setSeq n { s.seq n with st := .scrubbing, endStatus := st, fed := none }, s.ending_table n st, ?_⟩
    rw [State.tokenBoundary_ends (by rw [hx]) (by rw [hx]; exact hi), hx]
    refine (State.dropRef_some (x := { s.seq n with st := .ending, endStatus := st, fed := none }) h).trans ?_
    exact congrArg (fun d : Gondola => State.setGondola _ (s.seq n).gondola.toNat (d.without (s.seq n)).settleRefs)
      (State.gondola_of_table (s.ending_table n st) _)

end

end Sys2Proof.Machine

open Sys2Proof Sys2Proof.Machine

/-- Settles O48: the two commands by their checks, then what the end of a sequence leaves of slots and descriptors. -/
theorem sequencesLive : Obligations.SequencesLive := by
  intro s
  refine ⟨fun o ref c h errs => ?_, fun o ref c h => ?_, fun n _ st hc hs ho => ?_, fun n _ st hc hs hg ho => ?_, fun n st h =>
    State.endSeq_of_not_open h st, fun n hn h => ?_⟩
  · intro x slot u bytes first v
    refine readsAndCarriesOut_of_checked h (Eq.refl (execSeqOpen ⟨o, errs⟩ s)) ?_
    have hv : u.afterChecks first (fun s => s.meetCodewords x.part x.table.toNat bytes errs) = v := State.afterChecks_eq u first _
    show (u.afterChecks first _).checkedRead ref x.part x.table.toNat bytes _ _ = _
    rw [hv]
    rfl
  · exact carriesOut_of_checked_started h (Eq.refl (execSeqClose o s)) rfl
  · obtain ⟨hn, hm⟩ := State.seq_endSeq hc hs ho st
    rw [hn]
    exact ⟨rfl, rfl, rfl, fun m _ h => hm m h⟩
  · intro x g d y
    obtain ⟨h1, h2⟩ := State.gondola_endSeq hc hs ho st
    refine ⟨h1, fun hx hi => ?_⟩
    obtain ⟨u, hu, he⟩ := h2 hx hi
    have hw : SMap.wf Gondola.blank u.gon.table = true := hu ▸ hg
    have hy : (s.endSeq n st).gondola g = y.settleRefs := by
      rw [he]
      exact State.gondola_setGondola _ _ _ hw
    have hst : y.st = d.st := Gondola.without_st d x
    refine ⟨fun hd hr hr' => ?_, fun hd => ?_, fun h hh => ?_⟩
    · rw [hy, Gondola.settleRefs_releases (hst ▸ hd) hr hr']
    · rw [hy, Gondola.settleRefs_stays (hst ▸ hd)]
    · rw [he]
      exact (SMap.get_set_ne _ _ _ _ _ hw hh).trans (State.gondola_of_table hu h)
  · show execSequenceScrubComplete n s = _
    unfold execSequenceScrubComplete
    rw [onUnit_of_ok _ (show slotOk n = true from decide_eq_true hn), if_pos h]
    rfl
end

section
namespace Sys2Proof.Machine

/-- A command by its list of checks, where what it does is the effect on the started state. -/
theorem carriesOut_of_checked_at {s : State} {o : RingId} {op : Nat} {ref : CmdRef} {c : BitVec 512} {i : Instr}
    {f : CmdRef → BitVec 512 → State → State} {L : List (Bool × Nat)} {E F : State → State} (h : s.starts o op ref c = true)
    (hi : exec i s = hostCommand o op s f) (hf : f ref c (s.started o) = (s.started o).checked ref L F)
    (hE : F (s.started o) = E (s.started o)) : s.carriesOut o i ref L E :=
  carriesOut_of_checked_started h hi (hf.trans (by unfold State.checked; rw [hE]))

/-! ### MOOR, SWAP and the releases -/

theorem State.mooredOr_eq (s : State) (base : BitVec 384) : s.mooredOr base = if base = s.gon.base then .moored else .stranded := rfl

theorem exec_moorComplete {s : State} {g : Nat} (hg : g < 16384) (hst : (s.gondola g).st = .mooring)
    (hp : s.placed (s.gondola g).holder (s.gondola g).manifest.toNat = true) : exec (.moorComplete g) s = .next ((s.setGondola g { s.gondola g with
      st := if (s.gondola g).baseDigest = s.gon.base then .moored else .stranded, ref := none }).completeOpt (s.gondola g).ref 0) := by
  show execMoorComplete g s = _
  unfold execMoorComplete State.endMoor
  rw [onUnit_of_ok _ (decide_eq_true hg)]
  dsimp only
  rw [if_pos hp, if_pos hst, State.mooredOr_eq]

theorem State.endSwap_of_some {s : State} {g : Nat} {v : NewVersion} (h : (s.gondola g).swapTo = some v) :
    s.endSwap g = (s.setGondola g { s.gondola g with
        st := if v.base = s.gon.base then .moored else .stranded, hasRetiring := true, retVersion := (s.gondola g).version
        retRefs := (s.gondola g).refs, retManifest := (s.gondola g).manifest, retDigest := (s.gondola g).digest, version := v.version, refs := 0
        manifest := v.manifest, digest := v.digest, bindSet := v.bindSet, baseDigest := v.base, swapTo := none }).complete v.ref 0 := by
  unfold State.endSwap
  dsimp only
  rw [h]
  rfl

theorem exec_swapComplete {s : State} {g : Nat} (hg : g < 16384) {v : NewVersion} (h : (s.gondola g).swapTo = some v)
    (hp : s.placed (s.gondola g).holder v.manifest.toNat = true) : exec (.swapComplete g) s = .next (s.endSwap g) := by
  show execSwapComplete g s = _
  unfold execSwapComplete
  rw [onUnit_of_ok _ (decide_eq_true hg)]
  dsimp only
  rw [h]
  dsimp only
  rw [if_pos hp]

/-! ### EVICT and REVOKE -/

section
variable {s u : State} {o : RingId} {ref : CmdRef} {c : BitVec 512}

theorem exec_evict_badFields (h : s.starts o 0x42 ref c = true) (hc : gonOnly c = false) :
    exec (.evict o) s = .next ((s.started o).complete ref 0x051a) := by
  rw [exec_of_starts (i := .evict o) h (Eq.refl (execEvict o s))]
  dsimp only
  rw [hc]
  exact congrArg Host.Outcome.next (checked_fails rfl)

theorem exec_revoke_badFields (h : s.starts o 0x43 ref c = true) (hc : gonOnly c = false) :
    exec (.revoke o) s = .next ((s.started o).complete ref 0x051a) := by
  rw [exec_of_starts (i := .revoke o) h (Eq.refl (execRevoke o s))]
  dsimp only
  rw [hc]
  exact congrArg Host.Outcome.next (checked_fails rfl)

/-- EVICT by its checks on the descriptor, once a SWAP that waited has taken effect. -/
theorem exec_evict (h : s.starts o 0x42 ref c = true) (hc : gonOnly c = true) :
    let u := (s.started o).endSwap (gonIndex c)
    let d := u.gondola (gonIndex c)
    exec (.evict o) s = .next (u.checked ref [(false, 0x051a), (decide (d.st ≠ .moored ∧ d.st ≠ .stranded), 0x0517),
      (decide (d.st = .moored) && !d.termMet, 0x0518)] fun t => t.evict (gonIndex c) ref) := by
  intro u d
  rw [exec_of_starts (i := .evict o) h (Eq.refl (execEvict o s))]
  dsimp only
  rw [hc]
  rfl

/-- REVOKE by its checks on the descriptor, once a SWAP that waited has taken effect. -/
theorem exec_revoke (h : s.starts o 0x43 ref c = true) (hc : gonOnly c = true) :
    let u := (s.started o).endSwap (gonIndex c)
    let d := u.gondola (gonIndex c)
    exec (.revoke o) s = .next (u.checked ref [(false, 0x051a), (decide (d.st ≠ .moored ∧ d.st ≠ .stranded ∧ d.st ≠ .cut), 0x0517)]
      fun t => t.startRelease (gonIndex c) (some ref)) := by
  intro u d
  rw [exec_of_starts (i := .revoke o) h (Eq.refl (execRevoke o s))]
  dsimp only
  rw [hc]
  rfl

theorem State.startRelease_free {g : Nat} (h : (u.gondola g).refs + (u.gondola g).retRefs = 0) (r : Option CmdRef) :
    u.startRelease g r = u.setGondola g { u.gondola g with st := .releasing, ref := r } := if_pos h

theorem State.startRelease_referenced {g : Nat} (h : (u.gondola g).refs + (u.gondola g).retRefs ≠ 0) (r : Option CmdRef) :
    u.startRelease g r = (u.setGondola g { u.gondola g with st := .withdrawing, ref := r }).withdraw g := if_neg h

theorem State.evict_released {g : Nat} (h : (u.gondola g).refs + (u.gondola g).retRefs = 0 ∨ (u.gondola g).policy = 2) :
    u.evict g ref = u.startRelease g (some ref) := by
  refine if_pos ?_
  rw [Bool.or_eq_true]
  exact h.imp decide_eq_true beq_iff_eq.mpr

theorem State.evict_cut {g : Nat} (h : (u.gondola g).refs + (u.gondola g).retRefs ≠ 0) (hp : (u.gondola g).policy ≠ 2) :
    u.evict g ref = (u.cut g).complete ref 0x0519 := by
  refine if_neg ?_
  rw [Bool.or_eq_true, not_or]
  exact ⟨fun hc => h (of_decide_eq_true hc), fun hc => hp (beq_iff_eq.mp hc)⟩

end

/-! ### BASE_SET -/

theorem SMap.get_mapVals {α : Type} [DecidableEq α] {d : α} {m : SMap α} (h : SMap.wf d m = true) {f : Nat → α → α} (hf : ∀ i, f i d = d) (i : Nat) :
    SMap.get d (SMap.mapVals d f m) i = f i (SMap.get d m i) := by
  unfold SMap.mapVals
  rw [SMap.get_filter_ne d (m.map fun e => (e.1, f e.1 e.2)) (List.pairwise_map.mpr ((SMap.wf_iff d m).mp h).1)]
  clear h
  induction m with
  | nil => exact (hf i).symm
  | cons e r ih =>
    rw [List.map_cons, SMap.get, SMap.get, ih]
    split
    · next hk => rw [← hk]
    · rfl

theorem Gondola.rebase_blank (base : BitVec 384) : Gondola.blank.rebase base = Gondola.blank := rfl

theorem Gondola.rebase_baseDigest (d : Gondola) (base : BitVec 384) : (d.rebase base).baseDigest = d.baseDigest := by
  unfold Gondola.rebase
  split
  · rfl
  · split <;> rfl

theorem Gondola.rebase_st (d : Gondola) (base : BitVec 384) : (d.rebase base).st =
    if d.st = .moored ∨ d.st = .stranded then if d.baseDigest = base then .moored else .stranded else d.st := by
  unfold Gondola.rebase
  by_cases hb : d.baseDigest = base
  · rw [if_neg fun h => h.2 hb, if_pos hb]
    by_cases hs : d.st = .stranded
    · rw [if_pos ⟨hs, hb⟩, if_pos (.inr hs)]
    · rw [if_neg fun h => hs h.1]
      by_cases hm : d.st = .moored
      · rw [if_pos (.inl hm), hm]
      · rw [if_neg (not_or.mpr ⟨hm, hs⟩)]
  · rw [if_neg hb]
    by_cases hm : d.st = .moored
    · rw [if_pos ⟨hm, hb⟩, if_pos (.inl hm)]
    · rw [if_neg fun h => hm h.1, if_neg fun h => hb h.2]
      by_cases hs : d.st = .stranded
      · rw [if_pos (.inr hs), hs]
      · rw [if_neg (not_or.mpr ⟨hm, hs⟩)]

end Sys2Proof.Machine

open Sys2Proof Sys2Proof.Machine

/-- Settles O49: MOOR and SWAP by their checks and their ends, EVICT and REVOKE by the descriptor, BASE_SET by what it makes of each. -/
theorem gondolasLive : Obligations.GondolasLive := by
  intro s
  refine ⟨fun o ref c h errs => ?_, fun g hg hst hp => exec_moorComplete hg hst hp, fun o ref c h errs => ?_, fun g hg v h hp => ?_,
    fun o ref c h => ⟨exec_evict_badFields h, fun hc => ?_⟩, fun o ref c h hc => exec_revoke_badFields h hc, fun o ref c h hc => ?_,
    fun o ref c h hw => ?_, fun g hg h1 h2 h3 => ?_, fun g hg h => ?_⟩
  · intro g n addr reel u first v
    refine readsAndCarriesOut_of_checked h (Eq.refl (execMoor ⟨o, errs⟩ s)) ?_
    have hv : u.afterChecks first (fun s => s.meetVersion n addr errs) = v := State.afterChecks_eq u first _
    show (u.afterChecks first _).checkedMeeting ref n 0x0512 _ _ _ = _
    rw [hv]
  · intro g addr u d v first w
    refine readsAndCarriesOut_of_checked h (Eq.refl (execSwap ⟨o, errs⟩ s)) ?_
    have hw : u.afterChecks first (fun s => s.meetVersion d.holder addr errs) = w := State.afterChecks_eq u first _
    show (u.afterChecks first _).checkedMeeting ref d.holder 0x0512 _ _ _ = _
    rw [hw]
  · intro d
    rw [exec_swapComplete hg h hp, State.endSwap_of_some h]
  · intro u d
    rw [exec_evict h hc]
    refine ⟨fun h1 h2 => ?_, fun h1 h2 => ?_, fun hd => ?_⟩
    · rw [checked_fails (st := 0x0517) (by simp [firstFail, u, d, h1, h2])]
    · rw [checked_fails (st := 0x0518) (by simp [firstFail, u, d, h1, h2])]
    · rw [checked_runs (by rcases hd with hd | ⟨hd, ht⟩ <;> simp [firstFail, u, d, *])]
      refine ⟨fun hr => ?_, fun hr hp => ?_, fun hr hp => ?_⟩
      · rw [State.evict_released (.inl hr), State.startRelease_free hr]
      · rw [State.evict_released (.inr hp), State.startRelease_referenced hr]
      · rw [State.evict_cut hr hp]
  · intro u d
    rw [exec_revoke h hc]
    refine ⟨fun h1 h2 h3 => ?_, fun hd => ?_⟩
    · rw [checked_fails (st := 0x0517) (by simp [firstFail, u, d, h1, h2, h3])]
    · rw [checked_runs (by rcases hd with hd | hd | hd <;> simp [firstFail, u, d, *])]
      split
      · next hr => rw [State.startRelease_free hr]
      · next hr => rw [State.startRelease_referenced hr]
  · intro base
    refine ⟨{ s.started o with gon := { s.gon with base, table := SMap.mapVals Gondola.blank (fun _ d => d.rebase base) s.gon.table } },
      exec_of_starts (i := .baseSet o) h (Eq.refl (execBaseSet o s)), rfl, fun g => ?_⟩
    have hg : State.gondola { s.started o with gon := { s.gon with
        base, table := SMap.mapVals Gondola.blank (fun _ d => d.rebase base) s.gon.table } } g = (s.gondola g).rebase base :=
      SMap.get_mapVals hw (f := fun _ d => d.rebase base) (fun _ => Gondola.rebase_blank base) g
    rw [hg]
    exact ⟨Gondola.rebase_baseDigest _ _, Gondola.rebase_st _ _⟩
  · show execRetiringRelease g s = _
    unfold execRetiringRelease
    rw [onUnit_of_ok _ (decide_eq_true hg)]
    dsimp only
    rw [if_pos (by rw [h1, h2, decide_eq_true h3]; rfl)]
    rfl
  · show execGondolaReleaseComplete g s = _
    unfold execGondolaReleaseComplete
    rw [onUnit_of_ok _ (decide_eq_true hg), if_pos h]
    rfl
end

section
namespace Sys2Proof.Machine

/-! ### Reels -/

theorem State.append_drops {s : State} {i : Nat} (d : TileData) (h : (s.reel i).full (Config.localMs s.free) = true) :
    s.append i d = s.tick.dropRecord i (Config.localMs s.free) := if_pos h

theorem State.append_stores {s : State} {i : Nat} (d : TileData) (h : (s.reel i).full (Config.localMs s.free) = false) :
    let x := s.reel i
    let now := Config.localMs s.free
    s.append i d = (s.tick.putTile x.holder (x.base.toNat / 8192 + 2 + x.nextNo.toNat % x.slots.toNat)
      { d with payload := d.payload.splice 0 16 (Mem.ofList (bytesLE x.nextNo.toNat 8 ++ bytesLE now.toNat 8)) }).putReel i
        ({ x with nextNo := x.nextNo + 1, times := (if x.slots.toNat ≤ x.times.length then x.times.drop 1 else x.times) ++ [now] }.age now) :=
  if_neg (by rw [h]; exact Bool.false_ne_true)

theorem exec_reelAppend {s : State} {k j n i : Nat} (hk : k < 256) {o : InFlight} {r : SlotRef} {a : W64} {d : TileData}
    (h : s.writeDue k j = some (o, n, r, .reelPort i, a, d)) : exec (.reelAppend k j) s = .next ((s.append i d).accepted k j o a d) := by
  show execReelAppend k j s = _
  unfold execReelAppend
  rw [onUnit_of_ok _ (coreOk_of_lt hk), h]

theorem exec_stepDoneWrite {s : State} {k j n : Nat} (hk : k < 256) {o : InFlight} {r : SlotRef} {a : W64} {d : TileData}
    (h : s.writeDue k j = some (o, n, r, .stepDone, a, d)) :
    let t := (s.coreWrite n r (a.toNat / 8192) d).accepted k j o a d
    let no := d.payload.readNat 0 4
    exec (.stepDoneWrite k j) s = .next (if (s.part n).batcher.stepRunning && decide (no = (s.part n).batcher.stepNo.toNat) then
      t.endStep n d.payload a else t.raise { status := 0x0534, part := some n, words := [n, no] }) := by
  intro t no
  show execStepDoneWrite k j s = _
  unfold execStepDoneWrite
  rw [onUnit_of_ok _ (coreOk_of_lt hk), h]

/-! ### The batcher's window -/

/-- A pass that keeps the least value seen ends with the least of a list that is not empty. -/
theorem foldl_least {α : Type} {f : α → Nat} {g : Option Nat → α → Option Nat} (h0 : ∀ n, g none n = some (f n))
    (h1 : ∀ b n, g (some b) n = some (min b (f n))) {l : List α} (hl : l ≠ []) :
    ∃ q ∈ l, l.foldl g none = some (f q) ∧ ∀ r ∈ l, f q ≤ f r := by
  induction l using List.reverseRecOn with
  | nil => exact absurd rfl hl
  | append_singleton l a ih =>
    rw [List.foldl_append]
    cases l with
    | nil => exact ⟨a, by simp, h0 a, by simp⟩
    | cons b l =>
      obtain ⟨q, hq, he, hm⟩ := ih (List.cons_ne_nil b l)
      rw [he, List.foldl_cons, List.foldl_nil, h1]
      rcases Nat.le_total (f q) (f a) with hle | hle
      · refine ⟨q, List.mem_append_left _ hq, by rw [Nat.min_eq_left hle], fun r hr => ?_⟩
        rcases List.mem_append.mp hr with hr | hr
        · exact hm r hr
        · rwa [List.mem_singleton.mp hr]
      · refine ⟨a, by simp, by rw [Nat.min_eq_right hle], fun r hr => ?_⟩
        rcases List.mem_append.mp hr with hr | hr
        · exact Nat.le_trans hle (hm r hr)
        · rw [List.mem_singleton.mp hr]

theorem exec_stepStart {s : State} {n : Nat} (hn : n < 32) (h : s.stepMay n = true) :
    exec (.stepStart n) s = .next (if s.stepDepth n then s.startStep n
      else if (s.part n).batcher.raised533 then s
      else (s.modPart n fun p => { p with batcher := { p.batcher with raised533 := true } }).raise
        { status := 0x0533, part := some n, words := [n] }) := by
  show execStepStart n s = _
  unfold execStepStart
  rw [onUnit_of_ok _ (partOk_of_lt hn), if_pos h]

end Sys2Proof.Machine

open Sys2Proof Sys2Proof.Machine

/-- Settles O50: the commands by their checks, an append and a step's end by what the ring and the batcher hold. -/
theorem reelsAndStepsRun : Obligations.ReelsAndStepsRun := by
  intro s
  refine ⟨fun o ref c h => ?_, fun o ref c h => ?_, fun k hk j o n r i a d h => ?_, fun o ref c h => ?_, fun o ref c h => ?_,
    fun n hn hon f hf => ?_, fun n hl => ?_, fun n hn h => ?_, fun k hk j o n r a d h => ?_⟩
  · exact carriesOut_of_checked h (Eq.refl (execReelOpen o s)) rfl
  · exact carriesOut_of_checked_at h (Eq.refl (execReelClose o s)) rfl rfl
  · intro x now
    rw [exec_reelAppend hk h]
    exact ⟨fun hf => by rw [State.append_stores d hf], fun hf => by rw [State.append_drops d hf]⟩
  · exact carriesOut_of_checked h (Eq.refl (execFeed o s)) rfl
  · exact carriesOut_of_checked h (Eq.refl (execBatchCfg o s)) rfl
  · show execWindowTimeExpiry n s = _
    unfold execWindowTimeExpiry
    rw [onUnit_of_ok _ (partOk_of_lt hn), hon, hf]
  · exact foldl_least (f := fun q => (s.seq q).fedNo) (fun _ => rfl) (fun _ _ => rfl) hl
  · intro b l
    rw [exec_stepStart hn h]
    refine ⟨fun hd => ?_, fun hd hr => ?_⟩
    · rw [if_pos (show s.stepDepth n = true from hd)]
      rfl
    · rw [if_neg (by rw [show s.stepDepth n = false from hd]; exact Bool.false_ne_true),
        if_neg (by rw [show (s.part n).batcher.raised533 = false from hr]; exact Bool.false_ne_true)]
  · intro b t no
    rw [exec_stepDoneWrite hk h]
    refine ⟨fun h1 h2 => ?_, fun hb => ?_⟩
    · rw [if_pos (Bool.and_eq_true_iff.mpr ⟨h1, decide_eq_true h2⟩)]
    · rw [if_neg]
      rw [Bool.and_eq_true, decide_eq_true_eq]
      rcases hb with hb | hb
      · exact fun hc => Bool.false_ne_true (hb.symm.trans hc.1)
      · exact fun hc => hb hc.2
end

section
/-! PROOFS. The links (O51, O52): events of a port whose lanes are driven, positions and the next hop, the code of the links. -/

namespace Sys2Proof.Machine

/-! ### What an event of a port whose lanes are driven does -/

theorem portOk_of_lt {p : Nat} (h : p < 18) : portOk p = true := decide_eq_true h

theorem State.portOn_of_lt {s : State} {p : Nat} (hd : s.su.linksDriven = true) (h : p < 18) : s.portOn p = true := by
  unfold State.portOn
  rw [hd, portOk_of_lt h]
  rfl

section
variable {s : State} {p : Nat} (hd : s.su.linksDriven = true) (hp : p < 18)
include hd hp

/-- An event of a port whose lanes are driven and that is in a state where the event acts. -/
theorem onUnit_portOn {c : Bool} (hc : c = true) (t : State) : onUnit (portOk p) (if s.portOn p && c then t else s) = .next t := by
  rw [onUnit_of_ok _ (portOk_of_lt hp), State.portOn_of_lt hd hp, hc]
  rfl

/-! #### Training -/

theorem exec_portPeerless (h : (s.port p).st = .training) :
    exec (.portPeerless p) s = .next (s.setPort p { s.port p with st := .peerless }) :=
  onUnit_portOn hd hp (beq_iff_eq.mpr h) _

theorem exec_signalDetect (h : (s.port p).st = .peerless ∨ (s.port p).st = .lost) :
    exec (.signalDetect p) s = .next (s.setPort p { s.port p with st := .training, wasAway := true }) := by
  refine onUnit_portOn hd hp ?_ _
  rcases h with h | h <;> rw [h] <;> rfl

/-- The end of training: a port without a whole half of lanes is held, and one whose peer the wiring rules do not allow. -/
theorem exec_portTrained (h : (s.port p).st = .training) (found : List LaneIn) (peer : W32) :
    let t := (s.setPort p { s.port p with
      lanes := lanesIn found, reversed := lanesReversed found, inverted := lanesInverted found
      status := if lanesIn found = 0xff then 0 else 0x0402 }).reportLanes p (lanesIn found)
    exec (.portTrained p found peer) s = .next (if (lanesUsed (lanesIn found)).isEmpty then t.holdPort p 0x0404
      else if s.wiringOk p peer then t.beginAuth p else t.holdPort p 0x0401) :=
  onUnit_portOn hd hp (beq_iff_eq.mpr h) _

/-! #### Authentication -/

theorem exec_authTimeout (h : (s.port p).st = .authenticating) : exec (.authTimeout p) s = .next (s.holdPort p 0x0403) :=
  onUnit_portOn hd hp (beq_iff_eq.mpr h) _

theorem exec_identityMessage (h : (s.port p).st = .authenticating) (kind : Nat) (body : List Byte) :
    exec (.identityMessage p kind body) s = .next ((s.takeIdentity p kind body).getD (s.holdPort p 0x0403)) :=
  onUnit_portOn hd hp (beq_iff_eq.mpr h) _

/-! #### Watchdog and keys -/

theorem exec_linkWatchdogExpiry (h : (s.port p).live = true) : exec (.linkWatchdogExpiry p) s = .next (s.losePort p) :=
  onUnit_portOn hd hp h _

theorem exec_rekeyMessage (hl : (s.port p).live = true) (hk : (s.port p).keyed = true) (share : List Byte) (n : W64) :
    exec (.rekeyMessage p share n) s = .next (match ecdh (s.port p).ownEph share with
      | none => s
      | some z => s.modPort p fun x => { x with rx := rekeyed x.rx z n.toNat (dirLabel x.peer s.me) }) := by
  show execRekeyMessage p share n s = _
  unfold execRekeyMessage
  rw [onUnit_of_ok _ (portOk_of_lt hp)]
  exact congrArg Host.Outcome.next (if_pos (by rw [State.portOn_of_lt hd hp, hl, hk]; rfl))

theorem exec_keyRenewal (hl : (s.port p).live = true) (hk : (s.port p).keyed = true) (hr : s.sec.drbgOk = true) (hn : (s.port p).tx.next = none)
    (hc : 2 ^ 40 ≤ (s.port p).tx.count) (hw : (s.port p).ctlWait = []) (hu : (s.port p).unacked.length < 1024) :
    exec (.keyRenewal p) s = .next (match ecdh (freshPrivate s.free) (s.port p).peerEph with
      | none => s
      | some z =>
        let sw := (s.port p).tx.count + 2 + (Config.switchCount s.free).toNat
        (s.tick.modPort p fun x => { x with tx := rekeyed x.tx z sw (dirLabel s.me x.peer) }).sendControl p 2
          (freshShare s.free ++ bytesLE sw 8)) := by
  show execKeyRenewal p s = _
  unfold execKeyRenewal
  rw [onUnit_of_ok _ (portOk_of_lt hp)]
  exact congrArg Host.Outcome.next
    (if_pos (by rw [State.portOn_of_lt hd hp, hl, hk, hr, hn, hw, decide_eq_true hc, decide_eq_true hu]; rfl))

end

/-! ### Identity messages in their order -/

section
variable {s : State} {p : Nat}

theorem State.takeIdentity_chain {body : List Byte} (ha : (s.port p).auth = 0) (h4 : 4 ≤ body.length) (h604 : body.length ≤ 604)
    (hat : natLE (body.take 2) = (s.port p).peerChain.length)
    (ht : ((s.port p).peerChain ++ body.drop 4).length ≤ natLE ((body.drop 2).take 2)) :
    s.takeIdentity p 1 body = some (s.setPort p { s.port p with
      peerChain := (s.port p).peerChain ++ body.drop 4
      auth := if ((s.port p).peerChain ++ body.drop 4).length = natLE ((body.drop 2).take 2) then 1 else 0 }) := by
  unfold State.takeIdentity
  dsimp only
  rw [if_pos ⟨rfl, ha, h4⟩, if_pos ⟨hat, by rw [List.length_drop]; omega, ht⟩]

theorem State.takeIdentity_share {body : List Byte} (ha : (s.port p).auth = 1) (hl : body.length = (if 14 ≤ p then 133 else 36)) :
    let y := { s.port p with peerShare := body, peerEph := body.drop 36, claimed := BitVec.ofNat 32 (natLE (body.take 4)), auth := 2 }
    let t := s.setPort p y
    s.takeIdentity p 2 body = some (t.tick.sendIdentity p 3 (t.sign (proofMessage (t.transcript y) t.me))) := by
  intro y t
  unfold State.takeIdentity
  dsimp only
  rw [if_neg fun h => absurd h.1 (by decide), if_pos ⟨rfl, ha, hl⟩]

theorem State.takeIdentity_proof (body : List Byte) (ha : (s.port p).auth = 2) : s.takeIdentity p 3 body =
    if s.proofOk (s.port p) body = true then
      (if s.wiringOk p (s.port p).claimed then s.keyUp p
        else some ((s.modPort p fun x => { x with peer := x.claimed }).holdPort p 0x0401))
    else none := by
  unfold State.takeIdentity
  dsimp only
  rw [if_neg fun h => absurd h.1 (by decide), if_neg fun h => absurd h.1 (by decide)]
  simp only [ha, true_and]

theorem State.keyUp_inner (h : p < 14) : s.keyUp p = some (s.portUp p) := if_pos h

theorem State.keyUp_outer (h : 14 ≤ p) : s.keyUp p = (s.linkKeys (s.port p)).map fun k =>
    (s.modPort p fun x => { x with keyed := true, keys := true, tx := k.1, rx := k.2 }).portUp p := if_neg (Nat.not_lt.mpr h)

end

/-! ### Lanes in use -/

theorem lanesUsed_isEmpty (l : Byte) : (lanesUsed l).isEmpty = true ↔ l.toNat % 16 ≠ 15 ∧ l.toNat / 16 ≠ 15 := by
  unfold lanesUsed
  by_cases h : l = 0xff
  · rw [if_pos h, h]
    decide
  · rw [if_neg h]
    split
    · next h1 => exact ⟨(fun hc => nomatch hc), fun hc => absurd h1 hc.1⟩
    · next h1 =>
      split
      · next h2 => exact ⟨(fun hc => nomatch hc), fun hc => absurd h2 hc.2⟩
      · next h2 => exact ⟨fun _ => ⟨h1, h2⟩, fun _ => rfl⟩

end Sys2Proof.Machine

open Sys2Proof Sys2Proof.Machine

/-- Settles O51: each event by the port's state, an Identity message by what the port expects next. -/
theorem portsTrainAndProve : Obligations.PortsTrainAndProve := by
  intro s hd p hp x
  refine ⟨fun h => ⟨exec_portPeerless hd hp h, fun found peer => ?_⟩, fun h => exec_signalDetect hd hp h,
    fun h => ⟨exec_authTimeout hd hp h, fun kind body hn => ?_, fun body ha h4 h604 hat => ?_, fun body ha hl => ?_, fun body ha =>
      ⟨fun hf => ?_, fun hf hw _ => ?_, fun hf hw => ⟨fun hi => ?_, fun ho => ?_⟩⟩⟩,
    fun h => exec_linkWatchdogExpiry hd hp h, fun hl hk => ⟨fun hr hn hc hw hu => ?_, fun share n => ?_⟩⟩
  · intro lanes y t
    have ht : (s.setPort p y).reportLanes p lanes = t := rfl
    rw [exec_portTrained hd hp h found peer]
    refine ⟨fun h1 h2 => ?_, fun hl => ?_⟩
    · rw [if_pos ((lanesUsed_isEmpty _).mpr ⟨h1, h2⟩)]
      exact congrArg (fun u => Host.Outcome.next (State.holdPort u p 0x0404)) ht
    · have he : ¬ (lanesUsed (lanesIn found)).isEmpty = true := fun hc =>
        hl.elim ((lanesUsed_isEmpty _).mp hc).1 ((lanesUsed_isEmpty _).mp hc).2
      rw [if_neg he]
      refine ⟨fun hw => ?_, fun hw => ?_⟩
      · rw [if_neg (by rw [hw]; exact Bool.false_ne_true)]
        exact congrArg (fun u => Host.Outcome.next (State.holdPort u p 0x0401)) ht
      · rw [if_pos hw]
        exact congrArg (fun u => Host.Outcome.next (State.beginAuth u p)) ht
  · rw [exec_identityMessage hd hp h, hn]
    rfl
  · intro chain total ht
    rw [exec_identityMessage hd hp h, State.takeIdentity_chain ha h4 h604 hat ht]
    rfl
  · intro y t
    rw [exec_identityMessage hd hp h, State.takeIdentity_share ha hl]
    rfl
  · rw [exec_identityMessage hd hp h, State.takeIdentity_proof body ha, if_neg (by rw [hf]; exact Bool.false_ne_true)]
    rfl
  · rw [exec_identityMessage hd hp h, State.takeIdentity_proof body ha, if_pos hf, if_neg (by rw [hw]; exact Bool.false_ne_true)]
    rfl
  · rw [exec_identityMessage hd hp h, State.takeIdentity_proof body ha, if_pos hf, if_pos hw, State.keyUp_inner hi, Option.getD_some]
  · rw [exec_identityMessage hd hp h, State.takeIdentity_proof body ha, if_pos hf, if_pos hw, State.keyUp_outer ho]
    show Host.Outcome.next (Option.getD (Option.map _ (s.linkKeys x)) _) = _
    cases s.linkKeys x with
    | none => rfl
    | some k => rw [Option.map_some, Option.getD_some, State.modPort]
  · intro sw
    rw [exec_keyRenewal hd hp hl hk hr hn hc hw hu]
    cases ecdh (freshPrivate s.free) x.peerEph <;> rfl
  · rw [exec_rekeyMessage hd hp hl hk]
    cases ecdh x.ownEph share <;> rfl
end

section
namespace Sys2Proof.Machine

/-! ### Positions, and the next hop where every port is live -/

section
variable {x y b s : Nat} (hx : x < 256) (hy : y < 256) (hb : b < 256) (hs : s < 256)
include hx hy hb hs

theorem mkPos_toNat : (mkPos x y b s).toNat = x + y * 2 ^ 8 + b * 2 ^ 16 + s * 2 ^ 24 := by
  unfold mkPos
  rw [BitVec.toNat_ofNat]
  exact Nat.mod_eq_of_lt (by omega)

theorem posX_mkPos : posX (mkPos x y b s) = x := by
  unfold posX
  rw [mkPos_toNat hx hy hb hs]
  omega

theorem posY_mkPos : posY (mkPos x y b s) = y := by
  unfold posY
  rw [mkPos_toNat hx hy hb hs]
  omega

theorem posB_mkPos : posB (mkPos x y b s) = b := by
  unfold posB
  rw [mkPos_toNat hx hy hb hs]
  omega

theorem posS_mkPos : posS (mkPos x y b s) = s := by
  unfold posS
  rw [mkPos_toNat hx hy hb hs]
  omega

/-- The hops from a position given by its parts. -/
theorem hopDist_mkPos (d : W32) : hopDist (mkPos x y b s) d = ringDist x (posX d) + ringDist y (posY d) + (if b = posB d then 0 else 1)
    + (if s = posS d then 0 else 1) := by
  unfold hopDist
  rw [posX_mkPos hx hy hb hs, posY_mkPos hx hy hb hs, posB_mkPos hx hy hb hs, posS_mkPos hx hy hb hs]

end

theorem pos_eq {a d : W32} (hx : posX a = posX d) (hy : posY a = posY d) (hb : posB a = posB d) (hs : posS a = posS d) : a = d := by
  unfold posX at hx
  unfold posY at hy
  unfold posB at hb
  unfold posS at hs
  exact BitVec.eq_of_toNat_eq (by omega)

theorem posOk_iff (p : W32) : posOk p = true ↔ posX p < 16 ∧ posY p < 16 ∧ posB p < 8 ∧ posS p < 8 := by
  simp only [posOk, Bool.and_eq_true, decide_eq_true_eq, and_assoc]

/-- One step the shorter way round a ring of 16 comes one nearer. -/
theorem ringDist_step {a d : Nat} (ha : a < 16) (hd : d < 16) (h : a ≠ d) :
    ringDist (if (d + 16 - a) % 16 ≤ 8 then (a + 1) % 16 else (a + 15) % 16) d + 1 = ringDist a d := by
  unfold ringDist
  split <;> omega

theorem State.hopRing_live {s : State} (h : ∀ p < 18, s.live p = true) {plus : Nat} (hp : plus + 1 < 18) (a d : Nat) :
    s.hopRing plus a d none = some (if (d + 16 - a) % 16 ≤ 8 then plus else plus + 1) := by
  have hf : ringPort plus a d none = if (d + 16 - a) % 16 ≤ 8 then plus else plus + 1 := rfl
  unfold State.hopRing
  dsimp only
  rw [hf, if_pos (h _ (by split <;> omega))]

theorem portTo_lt {a d : Nat} (ha : a < 8) (hd : d < 8) (h : a ≠ d) : portTo a d < 7 := by
  unfold portTo
  omega

theorem portTo_reaches {a d : Nat} (ha : a < 8) (hd : d < 8) : (a + portTo a d + 1) % 8 = d := by
  unfold portTo
  omega

theorem State.hopAmong_live {s : State} (h : ∀ p < 18, s.live p = true) {base a d : Nat} (hb : base + portTo a d < 18) :
    s.hopAmong base a d = some (base + portTo a d) := by
  unfold State.hopAmong
  rw [if_pos (h _ hb)]

/-- Where every port is live, the next hop's port leads to a module one hop nearer. -/
theorem State.nextPort_nearer {s : State} {dst : W32} (hl : ∀ p < 18, s.live p = true) (hme : posOk s.me = true) (hdst : posOk dst = true)
    (hne : dst ≠ s.me) : ∃ p < 18, s.nextPort dst = some p ∧ hopDist (wiredPeer s.me p) dst + 1 = hopDist s.me dst := by
  obtain ⟨hx, hy, hb, hs⟩ := (posOk_iff _).mp hme
  obtain ⟨hx', hy', hb', hs'⟩ := (posOk_iff _).mp hdst
  have hd : hopDist s.me dst = ringDist (posX s.me) (posX dst) + ringDist (posY s.me) (posY dst)
      + (if posB s.me = posB dst then 0 else 1) + (if posS s.me = posS dst then 0 else 1) := rfl
  unfold State.nextPort
  dsimp only
  by_cases h1 : posX s.me = posX dst
  · rw [if_neg (not_not.mpr h1)]
    by_cases h2 : posY s.me = posY dst
    · rw [if_neg (not_not.mpr h2)]
      by_cases h3 : posB s.me = posB dst
      · rw [if_neg (not_not.mpr h3)]
        have h4 : posS s.me ≠ posS dst := fun h4 => hne (pos_eq h1 h2 h3 h4).symm
        have hp := portTo_lt hs hs' h4
        rw [if_pos h4, State.hopAmong_live hl (by omega)]
        refine ⟨_, by omega, rfl, ?_⟩
        have hw : wiredPeer s.me (0 + portTo (posS s.me) (posS dst)) = mkPos (posX s.me) (posY s.me) (posB s.me) (posS dst) := by
          unfold wiredPeer
          dsimp only
          rw [if_pos (by omega), Nat.zero_add, portTo_reaches hs hs']
        rw [hw, hopDist_mkPos (by omega) (by omega) (by omega) (by omega), hd, if_pos (Eq.refl (posS dst)), if_neg h4]
      · have hp := portTo_lt hb hb' h3
        rw [if_pos h3, State.hopAmong_live hl (by omega)]
        refine ⟨_, by omega, rfl, ?_⟩
        have hw : wiredPeer s.me (7 + portTo (posB s.me) (posB dst)) = mkPos (posX s.me) (posY s.me) (posB dst) (posS s.me) := by
          unfold wiredPeer
          dsimp only
          rw [if_neg (by omega), if_pos (by omega), Nat.add_sub_cancel_left, portTo_reaches hb hb']
        rw [hw, hopDist_mkPos (by omega) (by omega) (by omega) (by omega), hd, if_pos (Eq.refl (posB dst)), if_neg h3]
        omega
    · rw [if_pos h2, State.hopRing_live hl (by omega)]
      refine ⟨_, by split <;> omega, rfl, ?_⟩
      have hw : wiredPeer s.me (if (posY dst + 16 - posY s.me) % 16 ≤ 8 then 16 else 16 + 1) = mkPos (posX s.me)
          (if (posY dst + 16 - posY s.me) % 16 ≤ 8 then (posY s.me + 1) % 16 else (posY s.me + 15) % 16) (posB s.me) (posS s.me) := by
        split <;> rfl
      rw [hw, hopDist_mkPos (by omega) (by split <;> omega) (by omega) (by omega), hd, ← ringDist_step hy hy' h2]
      omega
  · rw [if_pos h1, State.hopRing_live hl (by omega)]
    refine ⟨_, by split <;> omega, rfl, ?_⟩
    have hw : wiredPeer s.me (if (posX dst + 16 - posX s.me) % 16 ≤ 8 then 14 else 14 + 1) = mkPos
        (if (posX dst + 16 - posX s.me) % 16 ≤ 8 then (posX s.me + 1) % 16 else (posX s.me + 15) % 16) (posY s.me) (posB s.me) (posS s.me) := by
      split <;> rfl
    rw [hw, hopDist_mkPos (by split <;> omega) (by omega) (by omega) (by omega), hd, ← ringDist_step hx hx' h1]
    omega

/-! ### The code of the links -/

theorem fecDecode_nil : fecDecode [] = {} := rfl

theorem fecDecode_few {e : List (Nat × Sym)} (h : e ≠ []) (hl : e.length ≤ 32) : fecDecode e = { corrected := true, lost := false, left := [] } := by
  unfold fecDecode
  rw [if_neg (by rwa [List.isEmpty_iff]), if_pos hl]

theorem fecDecode_many {e : List (Nat × Sym)} (hl : 32 < e.length) : (fecDecode e).lost = true ∨ symCodeword (fecDecode e).left = true := by
  unfold fecDecode
  rw [if_neg (by rw [List.isEmpty_iff]; rintro rfl; exact absurd hl (by decide)), if_neg (Nat.not_le.mpr hl)]
  split
  · exact .inl rfl
  · dsimp only
    split
    · next h => exact .inr (Bool.and_eq_true_iff.mp h).2
    · exact .inl rfl

theorem fecDecode_lost (e : List (Nat × Sym)) (h : (fecDecode e).lost = true) : (fecDecode e).left = [] := by
  unfold fecDecode at h ⊢
  split
  · rfl
  · split
    · rfl
    · split
      · rfl
      · dsimp only
        next h1 h2 _ f hf =>
        rw [if_neg h1, if_neg h2, hf] at h
        split
        · next hc =>
          dsimp only at h
          rw [if_pos hc] at h
          cases h
        · rfl

/-- A pass over the numbers below `n` that gives something at one of them alone gives that. -/
theorem List.filterMap_range_single {α : Type} {f : Nat → Option α} {q : Nat} {a : α} (hq : f q = some a) (h : ∀ p, p ≠ q → f p = none) {n : Nat}
    (hn : q < n) : (List.range n).filterMap f = [a] := by
  induction n with
  | zero => exact absurd hn (Nat.not_lt_zero q)
  | succ n ih =>
    rw [List.range_succ, List.filterMap_append]
    by_cases hqn : q = n
    · subst hqn
      have h0 : (List.range q).filterMap f = [] :=
        List.filterMap_eq_nil_iff.mpr fun p hp => h p (Nat.ne_of_lt (List.mem_range.mp hp))
      rw [h0, List.filterMap_cons_some hq]
      rfl
    · rw [ih (by omega), List.filterMap_cons_none (h n fun hc => hqn hc.symm)]
      rfl

theorem symPattern_single {p : Nat} (hp : p < 576) {d : Sym} (hd : d ≠ 0) : symPattern [(p, d)] = [(p, d)] := by
  unfold symPattern
  rw [if_neg (by simp)]
  refine List.filterMap_range_single (q := p) ?_ (fun q hq => ?_) hp
  · simpa using hd
  · simp [Ne.symm hq]

theorem codewordErrors_single {used : List Nat} {lane index : Nat} {d : Sym} (hd : d ≠ 0)
    (h : used.length * index + used.idxOf lane < 576) :
    codewordErrors used [⟨lane, index, d⟩] = if lane ∈ used then [(used.length * index + used.idxOf lane, d)] else [] := by
  unfold codewordErrors symbolPosition
  by_cases hm : lane ∈ used
  · have hi : used.findIdx? (· == lane) = some (used.idxOf lane) := by
      rw [List.findIdx?_eq_some_iff_findIdx_eq]
      exact ⟨List.idxOf_lt_length_iff.mpr hm, rfl⟩
    rw [if_pos hm]
    simp only [List.filterMap_cons, List.filterMap_nil, hi, Option.map_some]
    exact symPattern_single h hd
  · have hi : used.findIdx? (· == lane) = none := by
      rw [List.findIdx?_eq_none_iff]
      intro x hx
      exact beq_eq_false_iff_ne.mpr fun hc => hm (hc ▸ hx)
    rw [if_neg hm]
    simp only [List.filterMap_cons, List.filterMap_nil, hi, Option.map_none]
    rfl

/-! ### Frames and control messages -/

section
variable {s : State} {p : Nat} (hd : s.su.linksDriven = true) (hp : p < 18)
include hd hp

theorem exec_frameReceive (h : (s.port p).hears = true) (rx : FrameRx) :
    let d := fecDecode (codewordErrors (lanesUsed (s.port p).lanes) rx.errs)
    exec (.frameReceive p rx) s = .next (if d.lost then (s.countCodeword p d).sendIdle p true
      else match (s.port p).unprotect (decide (p < 14)) (spoiledFrame rx d.left) with
        | some f => (s.countCodeword p d).takeFrame p f
        | none => (s.countCodeword p d).checkFailed p) := by
  intro d
  show execFrameReceive p rx s = _
  unfold execFrameReceive
  rw [onUnit_of_ok _ (portOk_of_lt hp)]
  exact congrArg Host.Outcome.next (if_pos (by rw [State.portOn_of_lt hd hp, h]; rfl))

theorem exec_retryTimeout (h : (s.port p).hears = true) (hu : (s.port p).unacked ≠ []) :
    exec (.retryTimeout p) s = .next (if 16 ≤ (s.port p).resends && (s.port p).live then s.losePort p
      else (s.setPort p { s.port p with resends := (s.port p).resends + 1 }).resendCounted p) := by
  have hc : ((s.port p).hears && !(s.port p).unacked.isEmpty) = true := by
    rw [h, Bool.true_and, Bool.not_eq_true', List.isEmpty_eq_false_iff]
    exact hu
  show execRetryTimeout p s = _
  unfold execRetryTimeout
  rw [onUnit_of_ok _ (portOk_of_lt hp)]
  dsimp only
  rw [if_pos (by rw [State.portOn_of_lt hd hp, Bool.and_assoc, hc]; rfl)]

theorem exec_idleFrameTimer (h : (s.port p).live = true) : exec (.idleFrameTimer p) s = .next (s.sendIdle p false) :=
  onUnit_portOn hd hp h _

theorem exec_creditMessage (h : (s.port p).hears = true) (cls n : Nat) : exec (.creditMessage p cls n) s = .next ((s.modPort p fun x =>
    if cls = 1 then { x with creditRed := min 256 (x.creditRed + n) }
    else if cls = 2 then { x with creditTrf := min 256 (x.creditTrf + n) } else x).flushWaiting) := onUnit_portOn hd hp h _

theorem exec_refusalMessage_here (h : (s.port p).hears = true) (status : W16) (b : Nat) (step origin : W32) :
    exec (.refusalMessage p status b step ⟨origin, s.me⟩) s = .next (s.takeRefusal status b step origin) :=
  (onUnit_portOn hd hp h _).trans (congrArg Host.Outcome.next (if_pos rfl))

theorem exec_refusalMessage_on (h : (s.port p).hears = true) (status : W16) (b : Nat) (step origin : W32) {dst : W32} {q : Nat}
    (hm : dst ≠ s.me) (hq : s.nextPort dst (some p) = some q) :
    exec (.refusalMessage p status b step ⟨origin, dst⟩) s = .next (s.sendRefusal q status.toNat b step origin dst) := by
  refine (onUnit_portOn hd hp h _).trans (congrArg Host.Outcome.next ((if_neg hm).trans ?_))
  dsimp only
  rw [hq]

end

/-- A frame that passed its checks, by the port as the acknowledgement leaves it. -/
theorem State.takeFrame_eq (s : State) (p : Nat) (f : Frame) :
    let u := (s.modPort p fun x => { x with tagRun := 0 }).acknowledge p f
    s.takeFrame p f = if f.ftype = 0 then (if newer f.seq ((u.port p).rxLast + 1) then u.sendIdle p true else u)
      else if f.seq = (u.port p).rxLast + 1 then (u.setPort p ({ u.port p with rxLast := f.seq }.gather f)).relay
      else if newer f.seq (u.port p).rxLast then u.sendIdle p true else u := rfl

theorem State.takeRefusal_tile {s : State} {b : Nat} (hb : b < 32) {c : Ctx} {r : Reshard} (hc : (s.part b).ctx = some c)
    (hr : c.reshard = some r) (step origin : W32) : s.takeRefusal 0x0265 b step origin =
      s.setPart b { s.part b with ctx := some { c with reshard := some (r.refuse origin step.toNat) } } := by
  unfold State.takeRefusal State.modPart
  rw [if_pos rfl, Nat.mod_eq_of_lt hb, Nat.div_eq_of_lt hb, Nat.zero_mul, Nat.zero_add]
  dsimp only
  rw [hc, Option.map_some, hr, Option.map_some]

theorem State.takeRefusal_other {s : State} {st : W16} (h : st ≠ 0x0265) (b : Nat) (step origin : W32) : s.takeRefusal st b step origin = s :=
  if_neg h

end Sys2Proof.Machine

open Sys2Proof Sys2Proof.Machine

/-- Settles O52: each row by the port's state, the next hop by the four parts of a position, the code by the number of errors. -/
theorem framesAndRoutes : Obligations.FramesAndRoutes := by
  refine ⟨?_, fun s dst hl hme hdst hne => State.nextPort_nearer hl hme hdst hne,
    fun e => ⟨fun h => by rw [h]; exact fecDecode_nil, fun h hl => fecDecode_few h hl, fun h => fecDecode_many h, fecDecode_lost e⟩,
    fun rx => rfl, fun used lane index diff _ hdiff hlt => codewordErrors_single hdiff hlt⟩
  intro s hd p hp x
  refine ⟨fun h rx => ?_, fun h hu => ⟨fun hr => ?_, fun hr hl => ?_⟩, fun h => exec_idleFrameTimer hd hp h,
    fun h n => ⟨exec_creditMessage hd hp h 1 n, exec_creditMessage hd hp h 2 n⟩, fun h st b step origin dst =>
      ⟨fun hm hb hst c r hc hr => ?_, fun hm hst => ?_, fun hm q hq => exec_refusalMessage_on hd hp h st b step origin hm hq⟩⟩
  · intro d t got
    rw [exec_frameReceive hd hp h rx]
    refine ⟨fun hl => ?_, fun hl hg => ?_, fun hl f hg => ?_⟩
    · rw [if_pos hl]
    · rw [if_neg (by rw [show (fecDecode _).lost = false from hl]; exact Bool.false_ne_true), show Port.unprotect _ _ _ = none from hg]
    · have hf : exec (.frameReceive p rx) s = .next (t.takeFrame p f) := by
        rw [exec_frameReceive hd hp h rx,
          if_neg (by rw [show (fecDecode _).lost = false from hl]; exact Bool.false_ne_true), show Port.unprotect _ _ _ = some f from hg]
      intro u y
      rw [← exec_frameReceive hd hp h rx, hf, State.takeFrame_eq]
      refine ⟨fun h0 => ?_, fun h0 h1 => ?_, fun h0 h1 => ?_⟩
      · rw [if_pos h0]
      · rw [if_neg h0, if_pos h1]
      · rw [if_neg h0, if_neg h1]
  · rw [exec_retryTimeout hd hp h hu, if_neg]
    rw [Bool.and_eq_true, decide_eq_true_eq]
    exact fun hc => Nat.not_le.mpr hr hc.1
  · rw [exec_retryTimeout hd hp h hu, if_pos]
    rw [Bool.and_eq_true, decide_eq_true_eq]
    exact ⟨hr, hl⟩
  · rw [hm, exec_refusalMessage_here hd hp h, hst, State.takeRefusal_tile hb hc hr]
  · rw [hm, exec_refusalMessage_here hd hp h, State.takeRefusal_other hst]
end

section
/-! PROOFS. Reduction, training and re-sharding (O53 to O55): chunks, sums and deliveries, the tandem and the gate, the winch. -/

namespace Sys2Proof.Machine

/-! ### Chunks -/

section
variable {s : State} {p : Nat} {u : ChunkUnit}

theorem State.forwardChunk_sent {dst : W32} {t : State}
    (h : s.trySend ((((s.bucket u.bucket).getLast?).map (·.part)).getD 0xff) 1 dst (chunkBytes u) (some p) = some t) :
    s.forwardChunk p u dst = t.chunkAt p u DigestRec.addTaken := by
  unfold State.forwardChunk
  rw [h]

section
variable (hd : s.su.linksDriven = true) (hp : p < 18)
include hd hp

theorem exec_chunkReceive_elsewhere (h : u.dst ≠ s.me) : exec (.chunkReceive p u) s = .next (s.forwardChunk p u u.dst) := by
  show execChunkReceive p u s = _
  unfold execChunkReceive
  rw [onUnit_of_ok _ (portOk_of_lt hp), if_neg (by rw [hd]; exact Bool.false_ne_true), if_pos h]

theorem exec_chunkReceive_undefined (h : u.dst = s.me) (hn : s.defFor u.bucket u.step = none) :
    exec (.chunkReceive p u) s = .next (s.refuseChunk p u 0x0420) := by
  show execChunkReceive p u s = _
  unfold execChunkReceive
  rw [onUnit_of_ok _ (portOk_of_lt hp), if_neg (by rw [hd]; exact Bool.false_ne_true), if_neg (not_not.mpr h), hn]

theorem exec_chunkReceive_defined (h : u.dst = s.me) {d : BktDef} (hn : s.defFor u.bucket u.step = some d) :
    exec (.chunkReceive p u) s = .next (if d.epoch ≠ u.epoch then s.refuseChunk p u 0x0420 else s.chunkHere p u d) := by
  show execChunkReceive p u s = _
  unfold execChunkReceive
  rw [onUnit_of_ok _ (portOk_of_lt hp), if_neg (by rw [hd]; exact Bool.false_ne_true), if_neg (not_not.mpr h), hn]

end

variable {d : BktDef} (hc : u.chunk < d.chunks.toNat)
include hc

/-- A result by the bucket's floor and by whether the partition takes results now. -/
theorem State.chunkHere_late (h5 : u.stage = 5) (hf : s.belowFloor u.bucket u.step = true) :
    s.chunkHere p u d = s.chunkAt p u DigestRec.addDisc := by
  unfold State.chunkHere
  rw [if_neg (Nat.not_le.mpr hc), if_pos h5, if_pos hf]

theorem State.chunkHere_shut (h5 : u.stage = 5) (hf : s.belowFloor u.bucket u.step = false) (hs : s.shut d.part = true) :
    s.chunkHere p u d = s := by
  unfold State.chunkHere
  rw [if_neg (Nat.not_le.mpr hc), if_pos h5, if_neg (by rw [hf]; exact Bool.false_ne_true), if_pos hs]

theorem State.chunkHere_result (h5 : u.stage = 5) (hf : s.belowFloor u.bucket u.step = false) (hs : s.shut d.part = false) {q : W32}
    (hq : s.resultRole d u.bucket u.step u.chunk = some q) : s.chunkHere p u d =
      (s.chunkAt p u DigestRec.addTaken).resultArrives d u.bucket u.step u.chunk q (chunkInput u 0) := by
  unfold State.chunkHere
  rw [if_neg (Nat.not_le.mpr hc), if_pos h5, if_neg (by rw [hf]; exact Bool.false_ne_true), if_neg (by rw [hs]; exact Bool.false_ne_true), hq]

/-- An input by who acts for its combining point. -/
theorem State.chunkHere_input (h5 : u.stage ≠ 5) {q : Place} (hq : d.placeOf u.stage u.origin = some q)
    (hm : s.acting d.part u.bucket u.step q.loc = s.me) (hk : (d.keys (s.awaits d) q.stage q.loc).contains q.key = true) :
    s.chunkHere p u d = s.takeChunk p u d q := by
  unfold State.chunkHere
  rw [if_neg (Nat.not_le.mpr hc), if_neg h5, hq]
  dsimp only
  rw [if_neg (not_not.mpr hm), if_pos hk]

theorem State.chunkHere_other (h5 : u.stage ≠ 5) {q : Place} (hq : d.placeOf u.stage u.origin = some q)
    (hm : s.acting d.part u.bucket u.step q.loc ≠ s.me) :
    s.chunkHere p u d = s.forwardChunk p u (s.acting d.part u.bucket u.step q.loc) := by
  unfold State.chunkHere
  rw [if_neg (Nat.not_le.mpr hc), if_neg h5, hq]
  dsimp only
  rw [if_pos hm]

end

/-! #### An input by its fate -/

section
variable {s : State} {p : Nat} {u : ChunkUnit} {d : BktDef} {q : Place}

theorem State.takeChunk_take (h : s.fate d u.bucket u.step u.chunk q (chunkInput u q.key (some p)) = .take) : s.takeChunk p u d q =
    ((s.takeInput d u.bucket u.step u.chunk q (chunkInput u q.key (some p)) 8).pruneSteps u.bucket).chunkAt p u DigestRec.addTaken := by
  unfold State.takeChunk State.input
  rw [h]

theorem State.takeChunk_late (h : s.fate d u.bucket u.step u.chunk q (chunkInput u q.key (some p)) = .late) : s.takeChunk p u d q =
    (s.noteChoice u.bucket u.step u.chunk q (chunkInput u q.key (some p))).chunkAt p u DigestRec.addDisc := by
  unfold State.takeChunk State.input
  rw [h]

theorem State.takeChunk_hold (h : s.fate d u.bucket u.step u.chunk q (chunkInput u q.key (some p)) = .hold) : s.takeChunk p u d q = s := by
  unfold State.takeChunk State.input
  rw [h]
  rfl

theorem State.takeChunk_refuse {st : Nat} (h : s.fate d u.bucket u.step u.chunk q (chunkInput u q.key (some p)) = .refuse st) :
    s.takeChunk p u d q = (s.noteChoice u.bucket u.step u.chunk q (chunkInput u q.key (some p))).refuseChunk p u st := by
  unfold State.takeChunk State.input
  rw [h]

end

/-! ### Sums, deliveries and transfers -/

section
variable {s t : State} {b : Nat} {step : W32} {chunk stage : Nat} {r : Reduction} {c : ChunkIn} {d : BktDef}

section
variable (hw : s.sumWaiting b step chunk stage = some (r, c)) (hdef : s.defFor b step = some d)
include hw hdef

theorem exec_sumSend_on (h5 : stage ≠ 5) {q : Place} (hq : d.nextPlace stage r.loc = some q)
    (ht : s.trySend d.part 1 (s.acting d.part b step q.loc) (chunkBytes (sumUnit d b step chunk stage (requant d.mode c))) = some t) :
    exec (.sumSend b step chunk stage) s = .next ((t.putReduction { r with sent := true, done := true }).pruneSteps b) := by
  show execSumSend b step chunk stage s = _
  unfold execSumSend
  rw [hw, hdef]
  dsimp only
  rw [if_neg h5, hq]
  dsimp only
  rw [ht]

theorem exec_sumSend_owner (h5 : stage ≠ 5) (hq : d.nextPlace stage r.loc = none) (hm : 3 ≤ d.mode) :
    exec (.sumSend b step chunk stage) s = .next (if s.shut d.part then s
      else ((s.putReduction { r with sent := true, done := true }).resultArrives d b step chunk r.loc c).pruneSteps b) := by
  have hor : d.mode ≤ 2 ∨ s.shut d.part = true ↔ s.shut d.part = true := or_iff_right (by omega)
  show execSumSend b step chunk stage s = _
  unfold execSumSend
  rw [hw, hdef]
  dsimp only
  rw [if_neg h5, hq]
  exact congrArg Host.Outcome.next (if_congr hor rfl rfl)

theorem exec_sumSend_result (h5 : stage = 5)
    (ht : s.passAll d b step chunk { c with data := c.data.slice 0 8 } (d.childrenOf (s.awaits d) d.owner r.loc) = some t) :
    exec (.sumSend b step chunk stage) s =
      .next ((t.putReduction { r with sent := true, done := decide (1 ≤ r.delivered) || !s.awaits d r.loc }).pruneSteps b) := by
  show execSumSend b step chunk stage s = _
  unfold execSumSend
  rw [hw, hdef]
  dsimp only
  rw [if_pos h5, ht]

end

theorem exec_chunkDeliver (hdef : s.defFor b step = some d) (hw : s.deliveryWaiting d b step chunk = some (r, c))
    (htd : s.takesDeliveries d.part = true) {k : Nat} (hk : s.rankCore d.part (d.rankFor chunk) = some k)
    (ht : s.linkDeliver k d.landChan step (deliveryWord b chunk r.delivered c) (deliveryTile d.mode r.delivered c) = some t) :
    exec (.chunkDeliver b step chunk) s = .next ((t.delivered d r c).pruneSteps b) := by
  show execChunkDeliver b step chunk s = _
  unfold execChunkDeliver
  rw [hdef]
  dsimp only
  rw [hw]
  dsimp only
  rw [hk]
  dsimp only
  rw [if_pos htd, ht]

end

section
variable {s u : State} {t : TransferUnit} (hd : s.su.linksDriven = true)
include hd

theorem exec_transferDeliver_on (h : (s.transferGoal t).1 ≠ s.me)
    (hu : s.trySend (s.transferGoal t).2 2 (s.transferGoal t).1 (transferBytes t) (s.portWith 2 (transferBytes t)) = some u) :
    exec (.transferDeliver t) s = .next (u.freeAny 2 (transferBytes t)) := by
  show execTransferDeliver t s = _
  unfold execTransferDeliver
  rw [if_neg (by rw [hd]; exact Bool.false_ne_true)]
  dsimp only
  rw [if_pos h, hu]

theorem exec_transferDeliver_drop (h : (s.transferGoal t).1 = s.me) {part : Nat} (hl : s.landing t = .drop part) :
    exec (.transferDeliver t) s = .next ((s.takeTransfer t).lnkEvent 4 { status := 0x0436, part := some part, words := [part] }) := by
  show execTransferDeliver t s = _
  unfold execTransferDeliver
  rw [if_neg (by rw [hd]; exact Bool.false_ne_true)]
  dsimp only
  rw [if_neg (not_not.mpr h), hl]

theorem exec_transferDeliver_pass (h : (s.transferGoal t).1 = s.me) (hl : s.landing t = .pass) :
    exec (.transferDeliver t) s = .next (s.takeTransfer t) := by
  show execTransferDeliver t s = _
  unfold execTransferDeliver
  rw [if_neg (by rw [hd]; exact Bool.false_ne_true)]
  dsimp only
  rw [if_neg (not_not.mpr h), hl]

theorem exec_transferDeliver_core (h : (s.transferGoal t).1 = s.me) {part k : Nat} (hl : s.landing t = .core part k)
    (htd : s.takesDeliveries part = true) (hu : s.linkDeliver k t.chan t.word0 t.word1 t.tile = some u) :
    exec (.transferDeliver t) s = .next (u.takeTransfer t) := by
  show execTransferDeliver t s = _
  unfold execTransferDeliver
  rw [if_neg (by rw [hd]; exact Bool.false_ne_true)]
  dsimp only
  rw [if_neg (not_not.mpr h), hl]
  dsimp only
  rw [if_pos htd, hu]

end

/-! ### Posts and the bucket table -/

section
variable {s : State} {k j n : Nat} {o : InFlight} {r : SlotRef} {a : W64} {d : TileData} (hk : k < 256)
  (h : s.writeDue k j = some (o, n, r, .postPort, a, d)) (hw : s.winching n = false)
include hk h hw

theorem exec_postWrite_took {t : State} (ht : s.postUnit n d = .took t) : exec (.postWrite k j) s = .next (t.accepted k j o a d) := by
  show execPostWrite k j s = _
  unfold execPostWrite
  rw [onUnit_of_ok _ (coreOk_of_lt hk), h]
  dsimp only
  rw [if_neg (by rw [hw]; exact Bool.false_ne_true), ht]

theorem exec_postWrite_wait (ht : s.postUnit n d = .wait) : exec (.postWrite k j) s = .next s := by
  show execPostWrite k j s = _
  unfold execPostWrite
  rw [onUnit_of_ok _ (coreOk_of_lt hk), h]
  dsimp only
  rw [if_neg (by rw [hw]; exact Bool.false_ne_true), ht]

theorem exec_postWrite_invalid (ht : s.postUnit n d = .invalid) : exec (.postWrite k j) s = .next ((s.lnkEvent 4
    { status := 0x0435, part := some n, words := [n, d.side.readNat 2 2] }).accepted k j o a d) := by
  show execPostWrite k j s = _
  unfold execPostWrite
  rw [onUnit_of_ok _ (coreOk_of_lt hk), h]
  dsimp only
  rw [if_neg (by rw [hw]; exact Bool.false_ne_true), ht]

end

theorem State.unfinished_any (s : State) (i : Nat) :
    s.unfinished i (fun _ => true) = s.lnk.reductions.any fun r => decide (r.bucket = i) && !r.done := by
  unfold State.unfinished
  simp only [Bool.and_true]

theorem exec_bucketDefRetire {s : State} {i : Nat} (hi : i < 4096) {d e : BktDef} (hb : s.bucket i = [d, e])
    (hu : s.unfinished i (fun t => decide (s.defFor i t = some d)) = false) : exec (.bucketDefRetire i) s = .next (s.setBucket i [e]) := by
  show execBucketDefRetire i s = _
  unfold execBucketDefRetire
  rw [onUnit_of_ok _ (decide_eq_true hi), hb]
  dsimp only
  rw [if_neg (by rw [hu]; exact Bool.false_ne_true)]

end Sys2Proof.Machine

open Sys2Proof Sys2Proof.Machine

/-- Settles O53: the commands by their checks; a chunk, a sum and a delivery by where they are and whether the links can take them. -/
theorem reductionRuns : Obligations.ReductionRuns := by
  intro s
  refine ⟨fun o ref c h => ?_, fun o ref c h => ?_, fun o ref c h => ?_, fun o ref c h => ?_, fun o ref c h => ?_,
    fun i hi d e hb hu => exec_bucketDefRetire hi hb hu,
    fun k hk j o n r a d h hw => ⟨fun t ht => exec_postWrite_took hk h hw ht, exec_postWrite_wait hk h hw, exec_postWrite_invalid hk h hw⟩,
    fun hd p hp u => ⟨fun hm => ?_, exec_chunkReceive_undefined hd hp, fun d hm hdef => ⟨fun he => ?_, fun he hc => ?_⟩⟩,
    fun b step chunk stage r c d hw hdef => ⟨fun h5 q t hq ht => exec_sumSend_on hw hdef h5 hq ht,
      fun h5 hq hm => exec_sumSend_owner hw hdef h5 hq hm, fun h5 t ht => exec_sumSend_result hw hdef h5 ht⟩,
    fun b step chunk r c d hdef hw htd k t hk ht => exec_chunkDeliver hdef hw htd hk ht,
    fun hd t => ⟨fun hm u hu => exec_transferDeliver_on hd hm hu, fun hm => ⟨fun part hl => exec_transferDeliver_drop hd hm hl,
      exec_transferDeliver_pass hd hm, fun part k hl htd u hu => exec_transferDeliver_core hd hm hl htd hu⟩⟩⟩
  · exact carriesOut_of_checked h (Eq.refl (execBktDef o s)) rfl
  · intro i u
    refine carriesOut_of_checked h (Eq.refl (execBktDel o s)) ?_
    rw [← State.unfinished_any u i]
    rfl
  · exact carriesOut_of_checked h (Eq.refl (execBktSubst o s)) rfl
  · exact carriesOut_of_checked h (Eq.refl (execPostCfg o s)) rfl
  · exact carriesOut_of_checked h (Eq.refl (execDigestRead o s)) rfl
  · intro part t ht
    rw [exec_chunkReceive_elsewhere hd hp hm, State.forwardChunk_sent ht]
  · rw [exec_chunkReceive_defined hd hp hm hdef, if_pos he]
  · rw [exec_chunkReceive_defined hd hp hm hdef, if_neg (not_not.mpr he)]
    refine ⟨fun h5 hf => ?_, fun h5 hf hs => ?_, fun h5 hf hs q hq => ?_, fun h5 q hq => ?_⟩
    · rw [State.chunkHere_late hc h5 hf]
    · rw [State.chunkHere_shut hc h5 hf hs]
    · rw [State.chunkHere_result hc h5 hf hs hq]
    · intro at_
      refine ⟨fun hme hk => ?_, fun hme => ?_⟩
      · rw [State.chunkHere_input hc h5 hq hme hk]
        exact ⟨fun hf => by rw [State.takeChunk_take hf], fun hf => by rw [State.takeChunk_late hf], fun hf => by rw [State.takeChunk_hold hf],
          fun st hf => by rw [State.takeChunk_refuse hf]⟩
      · intro part t ht
        rw [State.chunkHere_other hc h5 hq hme, State.forwardChunk_sent ht]
end

section
namespace Sys2Proof.Machine

/-- A command by its list of checks, as long as the first failing one and the effect on the started state are those named. -/
theorem carriesOut_of_checked_as {s : State} {o : RingId} {op : Nat} {ref : CmdRef} {c : BitVec 512} {i : Instr}
    {f : CmdRef → BitVec 512 → State → State} {K L : List (Bool × Nat)} {E F : State → State} (h : s.starts o op ref c = true)
    (hi : exec i s = hostCommand o op s f) (hf : f ref c (s.started o) = (s.started o).checked ref K F)
    (hL : firstFail K = firstFail L) (hE : F (s.started o) = E (s.started o)) : s.carriesOut o i ref L E := by
  refine carriesOut_of_checked_started h hi (hf.trans ?_)
  unfold State.checked
  rw [hL, hE]

/-- A check that passes may be left out. -/
theorem firstFail_append_pass (A : List (Bool × Nat)) (st : Nat) (B : List (Bool × Nat)) :
    firstFail (A ++ (false, st) :: B) = firstFail (A ++ B) := by
  induction A with
  | nil => rfl
  | cons e r ih => rw [List.cons_append, List.cons_append, firstFail, firstFail, ih]

/-! ### The tandem -/

section
variable {s : State} {n : Nat} (hn : n < 32)
include hn

theorem exec_tandemRestoreComplete_shut (hs : s.shut n = true) (tiles : Option (List TileData)) :
    exec (.tandemRestoreComplete n tiles) s = .next s := by
  show execTandemRestoreComplete n tiles s = _
  unfold execTandemRestoreComplete
  rw [onUnit_of_ok _ (partOk_of_lt hn), if_pos hs]

theorem exec_tandemAcknowledge_shut (hs : s.shut n = true) (pos v : W32) : exec (.tandemAcknowledge n pos v) s = .next s := by
  show execTandemAcknowledge n pos v s = _
  unfold execTandemAcknowledge
  rw [onUnit_of_ok _ (partOk_of_lt hn), if_pos hs]

theorem exec_tandemCopyReceive_shut (hs : s.shut n = true) (pos tag v : W32) (i : Nat) (tile : TileData) :
    exec (.tandemCopyReceive n pos tag v i tile) s = .next s := by
  show execTandemCopyReceive n pos tag v i tile s = _
  unfold execTandemCopyReceive
  rw [onUnit_of_ok _ (partOk_of_lt hn), if_pos hs]

variable (hs : s.shut n = false)
include hs

section
variable {x : Ctx} {ref : CmdRef} {v pos : W32} {l : List (CmdRef × W32 × W32)} (hx : (s.part n).ctx = some x)
  (hr : x.restoring = (ref, v, pos) :: l)
include hx hr

theorem exec_tandemRestoreComplete_none : exec (.tandemRestoreComplete n none) s = .next (((s.dropReplies n v).modPart n fun p =>
    { p with ctx := some { x with restoring := l } }).complete ref 0x0244) := by
  show execTandemRestoreComplete n none s = _
  unfold execTandemRestoreComplete
  rw [onUnit_of_ok _ (partOk_of_lt hn), if_neg (by rw [hs]; exact Bool.false_ne_true), hx]
  dsimp only
  rw [hr]

theorem exec_tandemRestoreComplete_some {tl : List TileData} (hl : tl.length = (x.oldRegion.bankSlots (v.toNat % 2)).length) :
    exec (.tandemRestoreComplete n (some tl)) s = .next
      ((((((x.oldRegion.bankSlots (v.toNat % 2)).zip tl).foldl (fun t e => t.putTile n e.1 e.2) (s.dropReplies n v)).cancelReshard x).putCtx n
        (x.restored v pos)).complete ref 0) := by
  show execTandemRestoreComplete n (some tl) s = _
  unfold execTandemRestoreComplete
  rw [onUnit_of_ok _ (partOk_of_lt hn), if_neg (by rw [hs]; exact Bool.false_ne_true), hx]
  dsimp only
  rw [hr]
  dsimp only
  rw [if_pos hl]

end

section
variable (pos tag v : W32) (i : Nat) (tile : TileData)

/-- The store that a tandem's copy is for: the one that mirrors the sender, under the partition's job tag. -/
def State.storeOf (u : State) (n : Nat) (pos tag : W32) : Option TandemStore :=
  (u.part n).stores.find? fun t => decide (t.mirrored = pos) && decide ((u.part n).jobTag = tag)

theorem exec_tandemCopyReceive_none (h : (s.freeAny 2 (tandemBytes kindTandem n tag pos s.me v i tile)).storeOf n pos tag = none) :
    exec (.tandemCopyReceive n pos tag v i tile) s = .next ((s.freeAny 2 (tandemBytes kindTandem n tag pos s.me v i tile)).raise
      { status := 0x0253, part := some n, words := [n, pos.toNat] }) := by
  unfold State.storeOf at h
  show execTandemCopyReceive n pos tag v i tile s = _
  unfold execTandemCopyReceive
  rw [onUnit_of_ok _ (partOk_of_lt hn), if_neg (by rw [hs]; exact Bool.false_ne_true)]
  dsimp only
  rw [h]

theorem exec_tandemCopyReceive_some {t : TandemStore}
    (h : (s.freeAny 2 (tandemBytes kindTandem n tag pos s.me v i tile)).storeOf n pos tag = some t) (hi : i < t.bankSize) :
    let u := s.freeAny 2 (tandemBytes kindTandem n tag pos s.me v i tile)
    let w := (u.putTile n (t.base.toNat / 8192 + 1 + v.toNat % 2 * t.bankSize + i) tile).putStore n (t.take v i)
    exec (.tandemCopyReceive n pos tag v i tile) s =
      .next (if (t.take v i).completeFor v then w.dispatch n 2 pos (tandemBytes kindAck n tag u.me pos v 0 {}) else w) := by
  intro u w
  unfold State.storeOf at h
  show execTandemCopyReceive n pos tag v i tile s = _
  unfold execTandemCopyReceive
  rw [onUnit_of_ok _ (partOk_of_lt hn), if_neg (by rw [hs]; exact Bool.false_ne_true)]
  dsimp only
  rw [h]
  dsimp only
  rw [if_pos hi]

end

theorem exec_tandemAcknowledge (pos v : W32) {x : Ctx}
    (hx : ((s.freeAny 2 (tandemBytes kindAck n (s.part n).jobTag pos s.me v 0 {})).part n).ctx = some x) (ht : x.tandem = some pos) :
    let u := s.freeAny 2 (tandemBytes kindAck n (s.part n).jobTag pos s.me v 0 {})
    let y := { x with
      tandemK := x.tandemK || decide (v = x.version), awaitK := x.awaitK && decide (v ≠ x.version)
      tandemK1 := x.tandemK1 || (decide (v = x.version + 1) && (decide (x.st = .copying) || decide (x.st = .voting))) }
    exec (.tandemAcknowledge n pos v) s = .next (if y.st = .copying && !y.awaitK && y.tandemK1 then
      (u.putCtx n { y with st := .voting }).postToken n else u.putCtx n y) := by
  intro u y
  show execTandemAcknowledge n pos v s = _
  unfold execTandemAcknowledge
  rw [onUnit_of_ok _ (partOk_of_lt hn), if_neg (by rw [hs]; exact Bool.false_ne_true)]
  dsimp only
  rw [hx]
  dsimp only
  rw [if_neg (not_not.mpr ht)]

end

/-! ### The update-done mark -/

theorem exec_updateDoneMark {s : State} {k j n : Nat} (hk : k < 256) {o : InFlight} {r : SlotRef} {a : W64} {d : TileData} {x : Ctx}
    (h : s.writeDue k j = some (o, n, r, .stepPort, a, d)) (hx : (s.part n).ctx = some x) :
    let y := { x with st := .copying, tandemK1 := false }
    exec (.updateDoneMark k j) s = .next ((if (x.st = .updating ∨ x.st = .applying) ∧ d.payload.read 32 0 = x.linkStep ∧ d.payload.byte 4 = 1
      then (s.putCtx n y).copyVersion n y (x.version + 1)
      else s.raise { status := 0x0255, part := some n, words := [n, x.linkStep.toNat] }).accepted k j o a d) := by
  intro y
  show execUpdateDoneMark k j s = _
  unfold execUpdateDoneMark
  rw [onUnit_of_ok _ (coreOk_of_lt hk), h]
  dsimp only
  rw [hx]

/-! ### The norm gate and the commit -/

theorem verdict_mem (p q : Prop) [Decidable p] [Decidable q] (a b c : W32 × W64) :
    (if p then ((3 : Byte), a) else if q then (1, b) else (2, c)).1 ∈ [(1 : Byte), 2, 3] := by
  by_cases hp : p
  · rw [if_pos hp]
    exact .tail _ (.tail _ (.head _))
  · rw [if_neg hp]
    by_cases hq : q
    · rw [if_pos hq]
      exact .head _
    · rw [if_neg hq]
      exact .tail _ (.head _)

theorem Ctx.gate_verdict (x : Ctx) (sum : W64) : (x.gate sum).1 ∈ [1, 2, 3] := verdict_mem _ _ _ _ _

theorem State.normArrives_reducing {s : State} {n : Nat} {x : Ctx} (hx : (s.part n).ctx = some x) (hst : x.st = .reducing) (sum : W64) :
    s.normArrives n x.linkStep sum = s.applyGate n x sum := by
  unfold State.normArrives
  rw [hx]
  dsimp only
  rw [hst]
  exact if_pos rfl

theorem State.applyGate_passed (s : State) (n : Nat) {x : Ctx} {sum : W64} (h : (x.gate sum).1 ≠ 3) : s.applyGate n x sum = s.putCtx n { x with
    verdict := (x.gate sum).1, kappa := (x.gate sum).2.1, sum, norm := (x.gate sum).2.2, st := if x.twoPass then .applying else .updating } :=
  if_neg h

theorem State.tokenArrives_voting {s : State} {n : Nat} {x : Ctx} (hx : (s.part n).ctx = some x) (hst : x.st = .voting) (w : W64) :
    s.tokenArrives n x.lastStep w = if w = tokenWord (x.version + 1) then s.commit n x
      else (s.putCtx n { x with st := .faulted }).raise { status := 0x0251, part := some n, words := [n, x.linkStep.toNat] } := by
  unfold State.tokenArrives
  rw [hx]
  exact if_pos ⟨hst, rfl⟩

theorem State.commit_noReshard (s : State) (n : Nat) {x : Ctx} (h : x.reshard = none) : s.commit n x = s.enterReducing n { x with
    version := x.version + 1, committed := x.committed + 1, linkStep := x.linkStep + BitVec.ofNat 32 x.passes
    verdict := 0, tandemK := x.tandemK1, tandemK1 := false } :=
  if_neg (by rw [h]; exact Bool.false_ne_true)

end Sys2Proof.Machine

open Sys2Proof Sys2Proof.Machine

/-- Settles O54: the commands by their checks, the tandem's messages by what is held, the gate and the token by the context's state. -/
theorem trainingSteps : Obligations.TrainingSteps := by
  intro s
  refine ⟨fun o ref c h => ?_, fun o ref c x h => ?_, fun o ref c x h => ?_, fun o ref c h => ?_, fun o ref c h => ?_,
    fun n hn hs x ref v pos l hx hr => ?_,
    fun n hs => ⟨fun tiles hn => exec_tandemRestoreComplete_shut hn hs tiles, fun pos v hn => exec_tandemAcknowledge_shut hn hs pos v,
      fun pos tag v i tile hn => exec_tandemCopyReceive_shut hn hs pos tag v i tile⟩,
    fun k hk j o n r a d x h hx => ⟨fun h1 h2 h3 => ?_, fun hne => ?_⟩, fun n hn hs pos tag v i tile => ?_, fun n hn hs pos v => ?_,
    fun n x sum hx hst => ⟨State.normArrives_reducing hx hst sum, x.gate_verdict sum, fun hg => ?_⟩,
    fun n x hx hst => ⟨fun hr => ?_, fun w hw => ?_⟩⟩
  · exact carriesOut_of_checked h (Eq.refl (execTrainCfg o s)) rfl
  · intro n u hx
    refine carriesOut_of_checked_as h (Eq.refl (execStepRedo o s)) rfl ?_ ?_
    · show firstFail (_ ++ [(match u.ctxIn n [.interrupted] with | none => true | some x => x.twoPass, 0x0242)]) = _
      rw [hx]
    · show State.complete (match u.ctxIn n [.interrupted] with | none => u | some x => u.putCtx n { x with st := .updating }) ref 0 = _
      rw [hx]
  · intro n v u hx
    refine carriesOut_of_checked_as h (Eq.refl (execStepRevert o s)) rfl ?_ ?_
    · show firstFail (_ ++ [((u.ctxIn n [.reducing, .copying, .voting, .interrupted, .faulted]).isNone, 0x0242),
        (!((u.ctxIn n [.reducing, .copying, .voting, .interrupted, .faulted]).any fun x => x.holds v), 0x0243)]) = _
      rw [hx]
      exact firstFail_append_pass _ _ _
    · dsimp only
      rw [hx]
      rfl
  · exact carriesOut_of_checked h (Eq.refl (execTandemCfg o s)) rfl
  · exact carriesOut_of_checked h (Eq.refl (execTandemRestore o s)) rfl
  · exact ⟨exec_tandemRestoreComplete_none hn hs hx hr, fun tl hl => exec_tandemRestoreComplete_some hn hs hx hr hl⟩
  · intro y
    rw [exec_updateDoneMark hk h hx, if_pos ⟨h1, h2, h3⟩]
  · rw [exec_updateDoneMark hk h hx, if_neg]
    tauto
  · exact ⟨exec_tandemCopyReceive_none hn hs pos tag v i tile, fun t ht hi => exec_tandemCopyReceive_some hn hs pos tag v i tile ht hi⟩
  · intro u x hx ht y
    rw [exec_tandemAcknowledge hn hs pos v hx ht]
    refine ⟨fun h1 h2 h3 => ?_, fun hne => ?_⟩
    · rw [if_pos]
      rw [Bool.and_eq_true, Bool.and_eq_true, decide_eq_true_eq, Bool.not_eq_true']
      exact ⟨⟨h1, h2⟩, h3⟩
    · rw [if_neg]
      rw [Bool.and_eq_true, Bool.and_eq_true, decide_eq_true_eq, Bool.not_eq_true']
      rintro ⟨⟨h1, h2⟩, h3⟩
      rcases hne with hc | hc | hc
      · exact hc h1
      · exact Bool.false_ne_true (h2.symm.trans hc)
      · exact Bool.false_ne_true (hc.symm.trans h3)
  · rw [State.normArrives_reducing hx hst, State.applyGate_passed s n hg]
  · exact (State.tokenArrives_voting hx hst _).trans ((if_pos rfl).trans (State.commit_noReshard s n hr))
  · rw [State.tokenArrives_voting hx hst, if_neg (show ¬ w = tokenWord (x.version + 1) from hw)]
end

section
namespace Sys2Proof.Machine

/-! ### A re-shard that is held -/

theorem State.holdReshard_ctx {s : State} {n : Nat} {x : Ctx} (h : (s.part n).ctx = some x) (r : Reshard) :
    s.holdReshard n r = s.setPart n { s.part n with ctx := some { x with reshard := some r } } := by
  unfold State.holdReshard
  rw [h]
  rfl

theorem State.holdReshard_joins {s : State} {n : Nat} (h : (s.part n).ctx = none) (r : Reshard) :
    ∃ x, s.holdReshard n r = s.tick.putCtx n x ∧ x.geo = r.geo ∧ x.st = .winching ∧ x.hasVersion = false ∧ x.reshard = some r := by
  unfold State.holdReshard
  rw [h]
  exact ⟨_, rfl, rfl, rfl, rfl, rfl⟩

/-! ### The winch -/

section
variable {s : State} {n : Nat} (hn : n < 32) {x : Ctx} {r : Reshard} (hw : s.winch n = some (x, r))
include hn hw

section
variable {src dst : Nat} {pos : W32} (ht : planTile r.plan r.left = some (src, dst, pos))
include ht

theorem exec_winchSend_none (hf : (s.fetchTile n src).2 = none) : exec (.winchSend n) s = .next (s.fetchTile n src).1 := by
  show execWinchSend n s = _
  unfold execWinchSend
  rw [onUnit_of_ok _ (partOk_of_lt hn), hw]
  dsimp only
  rw [ht]
  dsimp only
  rw [hf]

theorem exec_winchSend_away {d : TileData} (hf : (s.fetchTile n src).2 = some d) (hp : pos ≠ s.me) {t : State}
    (hs : (s.fetchTile n src).1.sendWinch n x r { pos, dst := BitVec.ofNat 64 (8192 * dst), tile := d } = some t) :
    let w : WinchOut := { pos, dst := BitVec.ofNat 64 (8192 * dst), tile := d }
    let u := t.unstage n { r with left := r.left + 1, sent := r.sent ++ [w] } src
    exec (.winchSend n) s = .next (u.1.putReshard n x u.2) := by
  intro w u
  show execWinchSend n s = _
  unfold execWinchSend
  rw [onUnit_of_ok _ (partOk_of_lt hn), hw]
  dsimp only
  rw [ht]
  dsimp only
  rw [hf]
  dsimp only
  rw [if_neg hp, hs]

theorem exec_winchSend_here {d : TileData} (hf : (s.fetchTile n src).2 = some d) (hp : pos = s.me) :
    let w : WinchOut := { pos, dst := BitVec.ofNat 64 (8192 * dst), tile := d }
    let q := { r with left := r.left + 1 }
    let p := ((s.fetchTile n src).1.placeTile n q dst w.tile).getD ((s.fetchTile n src).1, { q with refused := q.refused ++ [w] })
    let u := p.1.unstage n p.2 src
    exec (.winchSend n) s = .next ((u.1.putReshard n x u.2).afterWinch n) := by
  intro w q p u
  show execWinchSend n s = _
  unfold execWinchSend
  rw [onUnit_of_ok _ (partOk_of_lt hn), hw]
  dsimp only
  rw [ht]
  dsimp only
  rw [hf]
  dsimp only
  rw [if_pos hp]

end

section
variable {w : WinchOut} {l : List WinchOut} (hr : r.refused = w :: l)
include hr

theorem exec_winchResend_away (hp : w.pos ≠ s.me) {t : State} (ht : s.sendWinch n x r w = some t) :
    exec (.winchResend n) s = .next (t.putReshard n x { r with refused := l }) := by
  show execWinchResend n s = _
  unfold execWinchResend
  rw [onUnit_of_ok _ (partOk_of_lt hn), hw]
  dsimp only
  rw [hr]
  dsimp only
  rw [if_neg hp, ht]

theorem exec_winchResend_here (hp : w.pos = s.me) {t : State} {q : Reshard}
    (ht : s.placeTile n { r with refused := l } (w.dst.toNat / 8192) w.tile = some (t, q)) :
    exec (.winchResend n) s = .next ((t.putReshard n x q).afterWinch n) := by
  show execWinchResend n s = _
  unfold execWinchResend
  rw [onUnit_of_ok _ (partOk_of_lt hn), hw]
  dsimp only
  rw [hr]
  dsimp only
  rw [if_pos hp, ht]

end

end

theorem exec_reshardComplete {s : State} {n : Nat} (hn : n < 32) {x : Ctx} {r : Reshard} (hw : (s.winchPart n).winch n = some (x, r))
    (hd : r.partDone = true) (hg : ((s.winchPart n).part n).reached r.spoolGen = true) :
    exec (.reshardComplete n) s = .next (((s.winchPart n).enterReducing n { x with reshard := none }).complete r.ref 0) := by
  show execReshardComplete n s = _
  unfold execReshardComplete
  rw [onUnit_of_ok _ (partOk_of_lt hn)]
  dsimp only
  rw [hw]
  dsimp only
  rw [if_pos hd]
  exact congrArg Host.Outcome.next (if_pos hg)

/-! ### A tile that arrives -/

section
variable {s : State} {w : WinchTile} (hp : w.port < 18) (hn : w.part < 32) (hs : s.shut w.part = false)
include hp hn hs

theorem exec_winchTileArrive_notHere (h : (s.freeUnit w.port 2 (winchBytes s.me w)).winchHere w = false) :
    exec (.winchTileArrive w) s = .next ((s.freeUnit w.port 2 (winchBytes s.me w)).discardWinch w) := by
  show execWinchTileArrive w s = _
  unfold execWinchTileArrive
  rw [onUnit_of_ok _ (Bool.and_eq_true_iff.mpr ⟨portOk_of_lt hp, partOk_of_lt hn⟩), if_neg (by rw [hs]; exact Bool.false_ne_true)]
  dsimp only
  rw [if_pos (by rw [h]; rfl)]

variable (h : (s.freeUnit w.port 2 (winchBytes s.me w)).winchHere w = true)
include h

theorem exec_winchTileArrive_noWinch (hw : (s.freeUnit w.port 2 (winchBytes s.me w)).winch w.part = none) :
    exec (.winchTileArrive w) s = .next ((s.freeUnit w.port 2 (winchBytes s.me w)).refuseWinch w) := by
  show execWinchTileArrive w s = _
  unfold execWinchTileArrive
  rw [onUnit_of_ok _ (Bool.and_eq_true_iff.mpr ⟨portOk_of_lt hp, partOk_of_lt hn⟩), if_neg (by rw [hs]; exact Bool.false_ne_true)]
  dsimp only
  rw [if_neg (by rw [h]; exact Bool.false_ne_true), hw]

/-- A tile for a place here, by the epoch, by what a joining module has taken, and by whether its slot can take it. -/
theorem exec_winchTileArrive {x : Ctx} {r : Reshard} (hw : (s.freeUnit w.port 2 (winchBytes s.me w)).winch w.part = some (x, r)) :
    let u := s.freeUnit w.port 2 (winchBytes s.me w)
    (r.epoch ≠ w.epoch → exec (.winchTileArrive w) s = .next (u.refuseWinch w))
    ∧ (r.epoch = w.epoch → joinDiffers x r w = true → exec (.winchTileArrive w) s = .next (u.discardWinch w))
    ∧ (r.epoch = w.epoch → joinDiffers x r w = false →
        (u.placeTile w.part r (w.dst.toNat / 8192) w.tile = none → exec (.winchTileArrive w) s = .next (u.refuseWinch w))
        ∧ ∀ t q, u.placeTile w.part r (w.dst.toNat / 8192) w.tile = some (t, q) →
          exec (.winchTileArrive w) s = .next ((if x.hasVersion then t.putReshard w.part x { q with taken := q.taken + 1 }
            else t.putCtx w.part { x with
              version := w.version, linkStep := w.linkStep, hasVersion := true
              reshard := some { q with taken := q.taken + 1 } }).afterWinch w.part)) := by
  intro u
  have hx : exec (.winchTileArrive w) s = execWinchTileArrive w s := rfl
  unfold execWinchTileArrive at hx
  rw [onUnit_of_ok _ (Bool.and_eq_true_iff.mpr ⟨portOk_of_lt hp, partOk_of_lt hn⟩), if_neg (by rw [hs]; exact Bool.false_ne_true)] at hx
  dsimp only at hx
  rw [if_neg (by rw [h]; exact Bool.false_ne_true), hw] at hx
  dsimp only at hx
  rw [hx]
  refine ⟨fun he => ?_, fun he hj => ?_, fun he hj => ⟨fun hp => ?_, fun t q hp => ?_⟩⟩
  · rw [if_pos he]
  · rw [if_neg (not_not.mpr he), if_pos hj]
  · rw [if_neg (not_not.mpr he), if_neg (by rw [hj]; exact Bool.false_ne_true), hp]
  · rw [if_neg (not_not.mpr he), if_neg (by rw [hj]; exact Bool.false_ne_true), hp]

end

end Sys2Proof.Machine

open Sys2Proof Sys2Proof.Machine

/-- Settles O55: RESHARD by the two reads that its checks let it come to, the winch's rows by the tile and by where it goes. -/
theorem winchMovesTiles : Obligations.WinchMovesTiles := by
  intro s
  refine ⟨fun o ref c errs h => ?_, fun o ref c h => ?_, fun n hn x r hw => ⟨fun src dst pos ht => ⟨exec_winchSend_none hn hw ht, fun d hf =>
    ⟨fun hp t hs => exec_winchSend_away hn hw ht hf hp hs, fun hp => exec_winchSend_here hn hw ht hf hp⟩⟩,
      fun w l hr => ⟨fun hp t ht => exec_winchResend_away hn hw hr hp ht, fun hp t q ht => exec_winchResend_here hn hw hr hp ht⟩,
      fun hd hwp hg => exec_reshardComplete hn hwp hd hg⟩,
    fun w hp hn hs => ⟨exec_winchTileArrive_notHere hp hn hs, exec_winchTileArrive_noWinch hp hn hs,
      fun x r h hw => exec_winchTileArrive hp hn hs h hw⟩⟩
  · intro n a u first v m pa pl second w bad checks r
    refine ⟨readsAndCarriesOut_of_checked h (Eq.refl (execReshard ⟨o, errs⟩ s)) ?_, fun x hx => State.holdReshard_ctx hx r,
      fun hx => State.holdReshard_joins hx r⟩
    have hv : u.afterChecks first (fun s => s.meetCodewords n a 128 errs) = v := State.afterChecks_eq u first _
    have hw : v.afterChecks second (fun s => s.meetCodewords n pa pl errs) = w := State.afterChecks_eq v second _
    dsimp only
    rw [show (s.started o).afterChecks _ _ = v from hv, show State.afterChecks v _ _ = w from hw]
  · exact carriesOut_of_checked h (Eq.refl (execReserveSet o s)) rfl
end

section
/-! PROOFS. Partitions, keys and requests (O56 to O58): what FREEZE, SAVE and RESTORE leave, the records of binding sets, the streams of imports. -/

namespace Sys2Proof.Machine

/-! ### FREEZE, SAVE and their ends -/

theorem exec_freezeComplete {s : State} {n : Nat} (hn : n < 32) (hst : (s.part n).st = .freezing) (hs : s.stopped n = true)
    (hsn : s.snapping n = false) :
    exec (.freezeComplete n) s = .next (((((s.coresIn n).foldl State.dropCredit (s.dropBatcher n)).writeBack
      fun k _ => (s.coresIn n).contains k).modPart n fun p => { p with st := .frozen, freezeRef := none }).completeOpt
        (s.part n).freezeRef 0 ((((s.coresIn n).foldl State.dropCredit (s.dropBatcher n)).writeBack
          fun k _ => (s.coresIn n).contains k).imageLength n)) := by
  show execFreezeComplete n s = _
  unfold execFreezeComplete
  rw [onUnit_of_ok _ (partOk_of_lt hn), if_pos (by rw [hst, hs, hsn]; rfl)]

/-- SAVE is a host command once its segment list can be read. -/
theorem exec_save {s : State} {o : RingId} (segs : List (W64 × W64)) (h : s.canPost o.fn = true) :
    exec (.save o segs) s = hostCommand o 0x21 s fun ref c s =>
      s.checked ref [
        (!(partOk (tetPart c) && segFieldsOk c && tetUnused c true false true false false), 0x0227), (!s.hasPart (tetPart c), 0x0223),
        (decide ((s.part (tetPart c)).st ≠ .frozen), 0x0230),
        (!segsOk (segs.take (cmdField c 0x20 4))
          || decide (((segs.take (cmdField c 0x20 4)).map fun e => e.2.toNat).sum < s.imageLength (tetPart c)), 0x0232)]
        fun s => s.modPart (tetPart c) fun p => { p with st := .saving, busyRef := some ref, saveSegs := segs.take (cmdField c 0x20 4) } := by
  show execSave o segs s = _
  unfold execSave
  rw [if_neg (by rw [h, Bool.not_true, Bool.and_false, Bool.false_and]; exact Bool.false_ne_true)]

section
variable {s : State} {n : Nat} {ref : CmdRef} (hn : n < 32) (hb : (s.part n).busyRef = some ref)
include hb

/-- The host memory of a SAVE or RESTORE is its command's function's. -/
theorem State.busyPost_of_ref : s.busyPost (s.part n) = s.canPost ref.ring.fn := by
  unfold State.busyPost
  rw [hb, Option.any_some]

include hn

theorem exec_saveComplete (hst : (s.part n).st = .saving) (hp : s.canPost ref.ring.fn = true) (ok : Bool) (errs : List (Nat × CodeErrs)) :
    exec (.saveComplete n ⟨ok, errs⟩) s = .next (((if ok then (errs.foldl (fun t e => t.codewords n e.1 e.2) s).tick.writeSegs ref.ring.fn
        (s.part n).saveSegs ((errs.foldl (fun t e => t.codewords n e.1 e.2) s).imageBytes n)
      else errs.foldl (fun t e => t.codewords n e.1 e.2) s).modPart n fun p => { p with st := .frozen, busyRef := none, saveSegs := [] }).complete
        ref (if ok then 0 else 0x0104)) := by
  show execSaveComplete n ⟨ok, errs⟩ s = _
  unfold execSaveComplete
  rw [onUnit_of_ok _ (partOk_of_lt hn)]
  dsimp only
  rw [if_pos (by rw [hst, State.busyPost_of_ref hb, hp]; rfl), hb]
  rfl

theorem exec_saveComplete_waits (hp : s.canPost ref.ring.fn = false) (r : ImageWritten) : exec (.saveComplete n r) s = .next s := by
  show execSaveComplete n r s = _
  unfold execSaveComplete
  rw [onUnit_of_ok _ (partOk_of_lt hn)]
  dsimp only
  rw [if_neg (by rw [State.busyPost_of_ref hb, hp, Bool.and_false]; exact Bool.false_ne_true)]

/-! ### RESTORE -/

section
variable {k : W32} {hbm ballast link : Byte} (hst : (s.part n).st = .restoring) (hr : (s.part n).restoring = some (k, hbm, ballast, link))
  (hp : s.canPost ref.ring.fn = true)
include hst hr hp

theorem exec_restoreComplete_none :
    exec (.restoreComplete n none) s = .next ((s.setPart n (s.part n).regs).complete ref 0x0104) := by
  show execRestoreComplete n none s = _
  unfold execRestoreComplete
  rw [onUnit_of_ok _ (partOk_of_lt hn)]
  dsimp only
  rw [hst, hr]
  dsimp only
  rw [if_pos ((State.busyPost_of_ref hb).trans hp), hb]
  rfl

theorem exec_restoreComplete_error {i : Image} {st : Nat}
    (h : (s.setPart n (s.part n).regs).restorable n i k hbm ballast link = .error st) :
    exec (.restoreComplete n (some i)) s = .next ((s.setPart n (s.part n).regs).complete ref st) := by
  show execRestoreComplete n (some i) s = _
  unfold execRestoreComplete
  rw [onUnit_of_ok _ (partOk_of_lt hn)]
  dsimp only
  rw [hst, hr]
  dsimp only
  rw [if_pos ((State.busyPost_of_ref hb).trans hp), hb, h]
  rfl

theorem exec_restoreComplete_ok {i : Image} {x : Opened}
    (h : (s.setPart n (s.part n).regs).restorable n i k hbm ballast link = .ok x) :
    exec (.restoreComplete n (some i)) s = .next (((s.setPart n (s.part n).regs).install n i x k hbm ballast link).complete ref 0) := by
  show execRestoreComplete n (some i) s = _
  unfold execRestoreComplete
  rw [onUnit_of_ok _ (partOk_of_lt hn)]
  dsimp only
  rw [hst, hr]
  dsimp only
  rw [if_pos ((State.busyPost_of_ref hb).trans hp), hb, h]
  rfl

end

theorem exec_restoreComplete_waits (hst : (s.part n).st = .restoring) (hp : s.canPost ref.ring.fn = false) (img : Option Image) :
    exec (.restoreComplete n img) s = .next s := by
  show execRestoreComplete n img s = _
  unfold execRestoreComplete
  rw [onUnit_of_ok _ (partOk_of_lt hn)]
  dsimp only
  rw [hst]
  cases (s.part n).restoring with
  | none => rfl
  | some r =>
    dsimp only
    rw [if_neg (by rw [State.busyPost_of_ref hb, hp]; exact Bool.false_ne_true)]

end

section
variable {t : State} {n : Nat} {img : Image} {k : W32} {hbm ballast link : Byte}

theorem State.restorable_of_error {st : Nat} (h : t.openImage img = .error st) : t.restorable n img k hbm ballast link = .error st := by
  unfold State.restorable
  rw [h]

theorem State.restorable_of_fails {x : Opened} {st : Nat} (h : t.openImage img = .ok x)
    (hf : firstFail (t.imageChecks n img x k hbm ballast link) = some st) : t.restorable n img k hbm ballast link = .error st := by
  unfold State.restorable
  rw [h]
  dsimp only
  rw [hf]

theorem State.restorable_of_passes {x : Opened} (h : t.openImage img = .ok x)
    (hf : firstFail (t.imageChecks n img x k hbm ballast link) = none) : t.restorable n img k hbm ballast link = .ok x := by
  unfold State.restorable
  rw [h]
  dsimp only
  rw [hf]

end

/-- An image whose header is not in form, that is not signed, or whose own envelope's key does not unwrap is refused with that status. -/
theorem State.openImage_refuses {t : State} {img : Image} (h : (imgFormOk img.bytes && t.imgSigned img.bytes
      && ((t.imgKek img.bytes).bind fun kek => unwrapEnv kek (seg img.bytes 0x68 72)).isSome) = false) :
    t.openImage img = .error (if imgFormOk img.bytes then 0x0233 else 0x0237) := by
  unfold State.openImage
  dsimp only
  cases hf : imgFormOk img.bytes with
  | false => rfl
  | true =>
    cases hs : t.imgSigned img.bytes with
    | false => rfl
    | true =>
      rw [hf, hs, Bool.true_and, Bool.true_and] at h
      have hk : ((t.imgKek img.bytes).bind fun k => (unwrapEnv k (seg img.bytes 0x68 72)).map fun own => (k, own)) = none := by
        cases hq : t.imgKek img.bytes with
        | none => rfl
        | some q =>
          rw [hq, Option.bind_some, Option.isSome_eq_false_iff, Option.isNone_iff_eq_none] at h
          rw [Option.bind_some, h, Option.map_none]
      rw [hk]
      rfl

end Sys2Proof.Machine

open Sys2Proof Sys2Proof.Machine

/-- Settles O56: the commands by their lists of checks, the ends by what the partition waits for. -/
theorem partitionsLive : Obligations.PartitionsLive := by
  intro s
  refine ⟨fun o ref c h => ?_, fun o ref c h => ?_, fun o ref c h => ?_, fun o ref c h => ?_, fun n hn hst hs hsn => ?_, fun o ref c h => ?_,
    fun o ref c segs hp h => ?_, fun n hn ref hst hb => ⟨fun hp errs => ⟨?_, ?_⟩, fun hp ok errs => ?_⟩, fun o ref c h => ?_,
    fun n hn k hbm ballast link ref hst hr hb hp => ⟨?_, fun img => ⟨?_, ?_⟩⟩, fun n hn ref hst hb hp img => ?_⟩
  · exact carriesOut_of_checked h (Eq.refl (execPartCreate o s)) rfl
  · exact carriesOut_of_checked h (Eq.refl (execPartResize o s)) rfl
  · exact carriesOut_of_checked h (Eq.refl (execPartDelete o s)) rfl
  · exact carriesOut_of_checked h (Eq.refl (execFreeze o s)) rfl
  · exact exec_freezeComplete hn hst hs hsn
  · exact carriesOut_of_checked h (Eq.refl (execThaw o s)) rfl
  · exact carriesOut_of_checked h (exec_save segs hp) rfl
  · exact exec_saveComplete hn hb hst hp true errs
  · exact exec_saveComplete hn hb hst hp false errs
  · exact exec_saveComplete_waits hn hb hp ⟨ok, errs⟩
  · exact carriesOut_of_checked h (Eq.refl (execRestore o s)) rfl
  · exact exec_restoreComplete_none hn hb hst hr hp
  · cases ho : (s.setPart n (s.part n).regs).openImage img with
    | error st => exact exec_restoreComplete_error hn hb hst hr hp (State.restorable_of_error ho)
    | ok x =>
      cases hf : firstFail ((s.setPart n (s.part n).regs).imageChecks n img x k hbm ballast link) with
      | none =>
        refine (exec_restoreComplete_ok hn hb hst hr hp (State.restorable_of_passes ho hf)).trans (congrArg Host.Outcome.next ?_)
        unfold State.imageChecks at hf
        dsimp only
        rw [hf]
      | some st =>
        refine (exec_restoreComplete_error hn hb hst hr hp (State.restorable_of_fails ho hf)).trans (congrArg Host.Outcome.next ?_)
        unfold State.imageChecks at hf
        dsimp only
        rw [hf]
  · exact State.openImage_refuses
  · exact exec_restoreComplete_waits hn hb hst hp img
end

section
namespace Sys2Proof.Machine

/-! ### The records of binding sets -/

section
variable {s : State} {l : List Byte}

theorem State.takeRecord_badForm (h : recordOk l = false) : s.takeRecord l = (s, 0x0615) := by
  unfold State.takeRecord
  rw [if_pos (by rw [h]; rfl)]

variable (hf : recordOk l = true)
include hf

theorem State.takeRecord_notMember (h : s.recordKey l = none) : s.takeRecord l = (s, 0x0616) := by
  unfold State.takeRecord
  rw [if_neg (by rw [hf]; exact Bool.false_ne_true), h]

theorem State.takeRecord_noKey (h : s.recordKey l = some none) : s.takeRecord l = (s, 0x0615) := by
  unfold State.takeRecord
  rw [if_neg (by rw [hf]; exact Bool.false_ne_true), h]

variable {w : List Byte} (hk : s.recordKey l = some (some w))
include hk

theorem State.takeRecord_badMac (h : recordMacOk l w = false) : s.takeRecord l = (s, 0x0615) := by
  unfold State.takeRecord
  rw [if_neg (by rw [hf]; exact Bool.false_ne_true), hk]
  dsimp only
  rw [if_pos (by rw [h]; rfl)]

variable (hm : recordMacOk l w = true)
include hm

theorem State.takeRecord_known {x : Binding} (h : s.binding (BitVec.ofNat 128 (natLE (seg l 0x10 16))) = some x) :
    s.takeRecord l = (s, if x.kcv = BitVec.ofNat 128 (natLE (seg l 0x90 16)) then 0 else 0x0619) := by
  unfold State.takeRecord
  rw [if_neg (by rw [hf]; exact Bool.false_ne_true), hk]
  dsimp only
  rw [if_neg (by rw [hm]; exact Bool.false_ne_true), h]

variable (hn : s.binding (BitVec.ofNat 128 (natLE (seg l 0x10 16))) = none)
include hn

theorem State.takeRecord_full (h : 256 ≤ s.sec.bindings.length) : s.takeRecord l = (s, 0x0617) := by
  unfold State.takeRecord
  rw [if_neg (by rw [hf]; exact Bool.false_ne_true), hk]
  dsimp only
  rw [if_neg (by rw [hm]; exact Bool.false_ne_true), hn]
  dsimp only
  rw [if_pos h]

theorem State.takeRecord_new (h : s.sec.bindings.length < 256) : s.takeRecord l =
    ({ s with sec := { s.sec with bindings := s.sec.bindings ++ [{
      ident := BitVec.ofNat 128 (natLE (seg l 0x10 16)), w := BitVec.ofNat 256 (natLE w), members := BitVec.ofNat 32 (natLE (seg l 8 4))
      kcv := BitVec.ofNat 128 (natLE (seg l 0x90 16)) }] } }, 0) := by
  unfold State.takeRecord
  rw [if_neg (by rw [hf]; exact Bool.false_ne_true), hk]
  dsimp only
  rw [if_neg (by rw [hm]; exact Bool.false_ne_true), hn]
  dsimp only
  rw [if_neg (Nat.not_le.mpr h)]

end

/-- A record that has been read ends its BIND as taking it gives. -/
theorem exec_hostMemoryAccessComplete_bind {s : State} {k : Nat} {ref : CmdRef} {host : W64} {l : List Byte}
    (h : s.hif.hostOps[k]? = some (.bind ref host l.length)) (hp : s.canPost ref.ring.fn = true) {u : State} {st : Nat}
    (ht : ({ s with hif := { s.hif with hostOps := listDrop s.hif.hostOps k } } : State).takeRecord l = (u, st)) (errs : List (Nat × CodeErrs)) :
    exec (.hostMemoryAccessComplete k ⟨some l, errs⟩) s = .next (u.complete ref st) := by
  have hl : (some l).all (HostOp.bind ref host l.length).lengthOk = true := decide_eq_true rfl
  exact (exec_hostMemoryAccessComplete (r := ⟨some l, errs⟩) h hp hl).trans
    (congrArg (fun r : State × Nat => Host.Outcome.next (State.complete r.1 ref r.2)) ht)

/-! ### The streams of imports -/

section
variable {s : State} {ref : CmdRef} {n env segs tiles : Nat} {l : List Byte}

theorem State.endImport_refuses (h : (segList l segs).all (fun e => e.1 % 4096 == 0 && e.2 % 4096 == 0) = false ∨ s.env n env = none
      ∨ spanEntries tiles (l.drop (16 * segs)) = none) : s.endImport ref n env segs tiles l = s.complete ref 0x061e := by
  unfold State.endImport importBytes
  cases ha : (segList l segs).all fun e => e.1 % 4096 == 0 && e.2 % 4096 == 0 with
  | false => rfl
  | true =>
    rw [if_pos rfl]
    cases he : s.env n env with
    | none => rfl
    | some e =>
      rw [ha, he] at h
      have hs : spanEntries tiles (l.drop (16 * segs)) = none := (h.resolve_left nofun).resolve_left nofun
      dsimp only
      rw [hs]

section
variable (ha : (segList l segs).all (fun e => e.1 % 4096 == 0 && e.2 % 4096 == 0) = true) {e : Env} {ts : List SpanEntry}
  (he : s.env n env = some e) (hs : spanEntries tiles (l.drop (16 * segs)) = some ts)
include ha he hs

theorem State.endImport_badEntry (h : e.bindSet = none ∨ ts.all (s.importOk n env) = false) :
    s.endImport ref n env segs tiles l = s.complete ref 0x061e := by
  unfold State.endImport importBytes
  rw [if_pos ha, he]
  dsimp only
  rw [hs]
  refine if_pos ?_
  rcases h with h | h
  · rw [h]; rfl
  · rw [h, Bool.not_false, Bool.or_true]

theorem State.endImport_stores (hb : e.bindSet ≠ none) (h : ts.all (s.importOk n env) = true) :
    s.endImport ref n env segs tiles l =
      (if (s.importAll n e.key ts).2 = 0 then (s.importAll n e.key ts).1
        else { (s.importAll n e.key ts).1 with sec := { (s.importAll n e.key ts).1.sec with
          event := setBit (s.importAll n e.key ts).1.sec.event 2 } }).complete ref (if (s.importAll n e.key ts).2 = 0 then 0 else 0x061f)
            (s.importAll n e.key ts).2 := by
  unfold State.endImport importBytes
  rw [if_pos ha, he]
  dsimp only
  rw [hs]
  dsimp only
  rw [if_neg (by rw [h, Option.isNone_eq_false_iff.mpr (Option.isSome_iff_ne_none.mpr hb)]; exact Bool.false_ne_true)]
  by_cases hz : (s.importAll n e.key ts).2 = 0
  · rw [if_pos hz, if_pos hz, if_pos hz, hz]
  · rw [if_neg hz, if_neg hz, if_neg hz]

end
end

/-- A stream that has been read ends its IMPORT. -/
theorem exec_hostMemoryAccessComplete_import {s : State} {k : Nat} {ref : CmdRef} {n env : Nat} {host : W64} {segs tiles : Nat} {l : List Byte}
    (h : s.hif.hostOps[k]? = some (.importTiles ref n env host segs tiles)) (hp : s.canPost ref.ring.fn = true)
    (hl : 16 * segs ≤ l.length) (hs : l.length = segTotal l segs) (errs : List (Nat × CodeErrs)) {u : State}
    (hu : ({ s with hif := { s.hif with hostOps := listDrop s.hif.hostOps k } } : State).endImport ref n env segs tiles l = u) :
    exec (.hostMemoryAccessComplete k ⟨some l, errs⟩) s = .next u := by
  have hk : (some l).all (HostOp.importTiles ref n env host segs tiles).lengthOk = true :=
    Bool.and_eq_true_iff.mpr ⟨decide_eq_true hl, decide_eq_true hs⟩
  exact (exec_hostMemoryAccessComplete (r := ⟨some l, errs⟩) h hp hk).trans (congrArg Host.Outcome.next hu)

end Sys2Proof.Machine

open Sys2Proof Sys2Proof.Machine

/-- Settles O57: the commands by their lists of checks; a record by what taking it gives, a stream by its segments and entries. -/
theorem keysAndRecords : Obligations.KeysAndRecords := by
  intro s
  refine ⟨fun o ref c h => ?_, ?_, fun o ref c h => ?_, fun o ref c h => ?_, fun o ref c h => ?_, fun o ref c h => ?_, fun o ref c h => ?_, ?_,
    fun o ref c h => ?_, fun o ref c h => ?_, fun o ref c h => ?_, ?_⟩
  · exact carriesOut_of_checked h (Eq.refl (execBind o s)) rfl
  · intro k ref host len l h hp hl t ends
    subst hl
    refine ⟨fun hf => ?_, fun hf hk => ?_, fun hf hk => ?_, fun w hf hk => ⟨fun hm => ?_, fun hm => ?_⟩⟩
    · exact exec_hostMemoryAccessComplete_bind h hp (State.takeRecord_badForm hf)
    · exact exec_hostMemoryAccessComplete_bind h hp (State.takeRecord_notMember hf hk)
    · exact exec_hostMemoryAccessComplete_bind h hp (State.takeRecord_noKey hf hk)
    · exact exec_hostMemoryAccessComplete_bind h hp (State.takeRecord_badMac hf hk hm)
    · refine ⟨fun x hx => ?_, fun hn hb => ?_, fun hn hb => ?_⟩
      · exact exec_hostMemoryAccessComplete_bind h hp (State.takeRecord_known hf hk hm hx)
      · exact exec_hostMemoryAccessComplete_bind h hp (State.takeRecord_full hf hk hm hn hb)
      · exact exec_hostMemoryAccessComplete_bind h hp (State.takeRecord_new hf hk hm hn hb)
  · exact carriesOut_of_checked h (Eq.refl (execUnbind o s)) rfl
  · exact carriesOut_of_checked h (Eq.refl (execEnvCreate o s)) rfl
  · exact carriesOut_of_checked h (Eq.refl (execEnvBind o s)) rfl
  · exact carriesOut_of_checked h (Eq.refl (execEnvDestroy o s)) rfl
  · exact carriesOut_of_checked h (Eq.refl (execImportTiles o s)) rfl
  · intro k ref n env host segs tiles l h hp hl hs errs t ends entries
    refine ⟨fun hr => ?_, fun ha e ts he hts => ⟨fun hb => ?_, fun hb hok => ?_⟩⟩
    · exact exec_hostMemoryAccessComplete_import h hp hl hs errs (State.endImport_refuses hr)
    · exact exec_hostMemoryAccessComplete_import h hp hl hs errs (State.endImport_badEntry ha he hts hb)
    · exact exec_hostMemoryAccessComplete_import h hp hl hs errs (State.endImport_stores ha he hts hb hok)
  · exact carriesOut_of_checked h (Eq.refl (execLock o s)) rfl
  · exact carriesOut_of_checked h (Eq.refl (execImageBind o s)) rfl
  · exact carriesOut_of_checked_at h (Eq.refl (execAttest o s)) rfl rfl
  · intro k ref host r h hp l t errs
    exact exec_hostMemoryAccessComplete h hp rfl
end

section
namespace Sys2Proof.Machine

/-! ### The responder -/

theorem State.responder_iff {s : State} : s.responder = true ↔ s.su.awake = true ∧ s.sec.ready = true := Bool.and_eq_true_iff

section
variable {s : State} (hr : s.responder = true)
include hr

/-- What the responder does happens once its keys are there. -/
theorem State.next_of_responder {t u : State} (h : t = u) :
    (.next (if !s.responder then s else t) : Res) = .next u := by
  rw [if_neg (by rw [hr]; exact Bool.false_ne_true), h]

theorem State.ownerRequest_accepts {code : Nat} {ok : Bool} (h : ok = true) (f : State → State) :
    s.ownerRequest code ok f = .next ((f s).spdm code true []) := State.next_of_responder hr (if_pos h)

theorem State.ownerRequest_refuses {code : Nat} {ok : Bool} (h : ok = false) (f : State → State) :
    s.ownerRequest code ok f = .next (s.spdm code false []).authFailed :=
  State.next_of_responder hr (if_neg (by rw [h]; exact Bool.false_ne_true))

/-- A share that is a point of the curve opens a session, if there is entropy and room for one. -/
theorem exec_keyExchange_opens {path : SpdmPath} {share chain z : List Byte} (hc : chain = [] ∨ chainSigned chain = true)
    (hz : ecdh (freshPrivate s.free) share = some z) (hd : s.sec.drbgOk = true) (hn : s.sec.sessions.length < 4) :
    exec (.spdmRequest (.keyExchange path share chain)) s = .next ((({ s with sec := { s.sec with sessions :=
      { owner := s.fuses.ownerLock && chainOk s.fuses.owner chain, path, secret := BitVec.ofNat 384 (natLE z) } :: s.sec.sessions } } :
        State).tick).spdm
        0xe4 true (freshShare s.free ++ s.tick.sign (share ++ freshShare s.free))) := by
  refine State.next_of_responder hr ?_
  dsimp only
  unfold State.openSession
  have hs : (chain.isEmpty || chainSigned chain) = true := by
    rcases hc with hc | hc
    · rw [hc]; rfl
    · rw [hc, Bool.or_true]
  rw [if_neg (by rw [hs]; exact Bool.false_ne_true), hz]
  dsimp only
  rw [if_pos (Bool.and_eq_true_iff.mpr ⟨hd, decide_eq_true hn⟩)]
  rfl

theorem exec_keyExchange_noSession {path : SpdmPath} {share chain : List Byte} (hc : chain = [] ∨ chainSigned chain = true)
    (h : ecdh (freshPrivate s.free) share = none ∨ s.sec.drbgOk = false ∨ 4 ≤ s.sec.sessions.length) :
    exec (.spdmRequest (.keyExchange path share chain)) s = .next (s.spdm 0xe4 false []) := by
  refine State.next_of_responder hr ?_
  dsimp only
  unfold State.openSession
  have hs : (chain.isEmpty || chainSigned chain) = true := by
    rcases hc with hc | hc
    · rw [hc]; rfl
    · rw [hc, Bool.or_true]
  rw [if_neg (by rw [hs]; exact Bool.false_ne_true)]
  cases hz : ecdh (freshPrivate s.free) share with
  | none => rfl
  | some z =>
    rw [hz] at h
    refine if_neg fun hok => ?_
    obtain ⟨hd, hn⟩ := Bool.and_eq_true_iff.mp hok
    rcases h.resolve_left nofun with h | h
    · rw [h] at hd
      exact Bool.false_ne_true hd
    · exact Nat.not_lt.mpr h (of_decide_eq_true hn)

theorem exec_keyExchange_badChain {path : SpdmPath} {share chain : List Byte} (h0 : chain ≠ []) (hc : chainSigned chain = false) :
    exec (.spdmRequest (.keyExchange path share chain)) s = .next (s.spdm 0xe4 false []).authFailed := by
  refine State.next_of_responder hr ?_
  dsimp only
  unfold State.openSession
  rw [if_pos (by rw [hc, Bool.or_false, Bool.not_eq_true', List.isEmpty_eq_false_iff]; exact h0)]

end

theorem State.chainOf_one {s : State} (h : s.sec.chain1 ≠ []) : s.chainOf 1 = some s.sec.chain1 := by
  unfold State.chainOf
  rw [if_neg Nat.one_ne_zero, if_pos (by rw [List.isEmpty_eq_false_iff.mpr h]; rfl)]

/-! ### The floor and the certificates -/

/-- A word whose lowest `n` bits are set has at least `n` bits set. -/
theorem le_popCountTo {w : Nat} {y : BitVec w} {n : Nat} (h : ∀ i < n, y.getLsbD i = true) : n ≤ popCountTo y n := by
  induction n with
  | zero => exact Nat.zero_le _
  | succ n ih =>
    rw [popCountTo, if_pos (h n (Nat.lt_succ_self n))]
    exact Nat.succ_le_succ (ih fun i hi => h i (Nat.lt_succ_of_lt hi))

theorem popCountTo_mono {w : Nat} (y : BitVec w) {n m : Nat} (h : n ≤ m) : popCountTo y n ≤ popCountTo y m := by
  induction h with
  | refl => exact le_refl _
  | step _ ih => exact ih.trans (Nat.le_add_right _ _)

theorem le_popCount_or_ones (x : W64) {n : Nat} (h : n ≤ 64) : n ≤ popCount (x ||| BitVec.ofNat 64 (2 ^ n - 1)) := by
  refine (le_popCountTo fun i hi => ?_).trans (popCountTo_mono _ h)
  have hb : (BitVec.ofNat 64 (2 ^ n - 1)).getLsbD i = true := by
    rw [BitVec.getLsbD_ofNat, Nat.testBit_two_pow_sub_one, decide_eq_true (hi.trans_le h), decide_eq_true hi]
    rfl
  rw [BitVec.getLsbD_or, hb, Bool.or_true]

/-- The state once the security floor is raised to `n`. -/
def State.raiseFloor (s : State) (n : Nat) : State :=
  { s with fuses := { s.fuses with floorBits := s.fuses.floorBits ||| BitVec.ofNat 64 (2 ^ n - 1) } }

theorem State.raiseFloor_fuses_only (s : State) (n : Nat) : s.raiseFloor n = { s with fuses := (s.raiseFloor n).fuses } := rfl

theorem State.raiseFloor_grown (s : State) (n : Nat) : s.fuses.grown (s.raiseFloor n).fuses :=
  ⟨rfl, rfl, rfl, rfl, rfl, rfl, rfl, fun hl => ⟨hl, rfl⟩, popCount_le_or _ _⟩

theorem State.le_raiseFloor_floor (s : State) {n : Nat} (h : n ≤ 64) : n ≤ (s.raiseFloor n).fuses.floor := le_popCount_or_ones _ h

/-- The state once the chain of slot 1 is written, and each port held for want of it trains again. -/
def State.putChain (s : State) (chain : List Byte) : State :=
  (List.range 18).foldl (fun s p => s.modPort p Port.newChain) { s with sec := { s.sec with chain1 := chain } }

theorem State.putChain_sec (s : State) (chain : List Byte) : (s.putChain chain).sec = { s.sec with chain1 := chain } := by
  have h : ∀ (t : State) (p : Nat), (t.modPort p Port.newChain).sec = t.sec := fun _ _ => rfl
  unfold State.putChain
  rw [foldl_view State.sec h]

theorem State.putChain_fuses (s : State) (chain : List Byte) : (s.putChain chain).fuses = s.fuses := by
  have h : ∀ (t : State) (p : Nat), (t.modPort p Port.newChain).fuses = t.fuses := fun _ _ => rfl
  unfold State.putChain
  rw [foldl_view State.fuses h]

theorem State.putChain_port (s : State) (chain : List Byte) (hwf : SMap.wf Port.blank s.lnk.ports = true) {p : Nat} (hp : p < 18) :
    (s.putChain chain).port p = (s.port p).newChain := by
  have hw : SMap.wf Port.blank ({ s with sec := { s.sec with chain1 := chain } } : State).lnk.ports = true := hwf
  unfold State.putChain
  rw [State.port_foldl_modPort (fun _ => Port.newChain) List.nodup_range hw p, if_pos (List.mem_range.mpr hp)]
  rfl

/-! ### The requests of owners -/

section
variable {s : State} (hr : s.responder = true)
include hr

theorem exec_ownerProvision (digest : BitVec 384) (hl : s.fuses.ownerLock = false) (hs : s.sessionBy .smbus = true) :
    exec (.ownerProvision true digest) s =
      .next (({ s with fuses := { s.fuses with owner := digest, ownerLock := true } } : State).spdm 0xfe true []) := by
  show execOwnerProvision true digest s = _
  unfold execOwnerProvision
  exact State.ownerRequest_accepts hr (by rw [hl, hs]; rfl) _

theorem exec_ownerProvision_refused {smbus : Bool} (digest : BitVec 384)
    (h : s.fuses.ownerLock = true ∨ smbus = false ∨ s.sessionBy .smbus = false) :
    exec (.ownerProvision smbus digest) s = .next (s.spdm 0xfe false []).authFailed := by
  show execOwnerProvision smbus digest s = _
  unfold execOwnerProvision
  refine State.ownerRequest_refuses hr ?_ _
  rcases h with h | h | h
  · rw [h]; rfl
  · rw [h, Bool.and_false, Bool.false_and]
  · rw [h, Bool.and_false]

theorem exec_floorAdvance {n : Nat} (ho : s.ownerSession = true) (hf : s.fuses.floor < n) (hn : n ≤ 64) (hv : n ≤ securityVersion s.su.image) :
    exec (.floorAdvance n) s = .next ((s.raiseFloor n).spdm 0xfe true []) := by
  show execFloorAdvance n s = _
  unfold execFloorAdvance
  exact State.ownerRequest_accepts hr (by rw [ho, decide_eq_true hf, decide_eq_true hn, decide_eq_true hv]; rfl) _

theorem exec_floorAdvance_refused {n : Nat}
    (h : s.ownerSession = false ∨ n ≤ s.fuses.floor ∨ 64 < n ∨ securityVersion s.su.image < n) :
    exec (.floorAdvance n) s = .next (s.spdm 0xfe false []).authFailed := by
  show execFloorAdvance n s = _
  unfold execFloorAdvance
  refine State.ownerRequest_refuses hr ?_ _
  rcases h with h | h | h | h
  · rw [h]; rfl
  · rw [decide_eq_false (Nat.not_lt.mpr h), Bool.and_false]; rfl
  · rw [decide_eq_false (Nat.not_le.mpr h), Bool.and_false]; rfl
  · rw [decide_eq_false (Nat.not_le.mpr h), Bool.and_false]

theorem exec_setCertificate {chain : List Byte} (ho : s.ownerSession = true) (hc : chain.length ≤ 4096) :
    exec (.setCertificate 1 chain) s = .next ((s.putChain chain).spdm 0xee true []) := by
  show execSetCertificate 1 chain s = _
  unfold execSetCertificate
  exact State.ownerRequest_accepts hr (by rw [ho, decide_eq_true hc]; rfl) _

end

/-! ### IDE_KM -/

section
variable {s : State} {fn : Nat} (hf : fnOk fn = true) (hr : s.responder = true) (hl : s.hif.linkUp = true) (hp : s.su.perstN = true)
include hf hr hl hp

theorem State.ideKm_accepts (hs : s.sessionBy .doe = true) (hflit : s.hif.flit = true) {code : Nat} {ok : Bool} (hok : ok = true)
    (f : State → State) : s.ideKm fn code ok f = .next ((f s).emit (.ideKm fn code true)) := by
  unfold State.ideKm
  rw [onUnit_of_ok _ hf, if_pos (by rw [hr, hl, hp]; rfl), if_pos (by rw [hok, hs, hflit]; rfl)]

theorem State.ideKm_refuses {code : Nat} {ok : Bool} (h : (ok && s.sessionBy .doe && s.hif.flit) = false) (f : State → State) :
    s.ideKm fn code ok f = .next (s.emit (.ideKm fn code false)) := by
  unfold State.ideKm
  rw [onUnit_of_ok _ hf, if_pos (by rw [hr, hl, hp]; rfl), if_neg (by rw [h]; exact Bool.false_ne_true)]

end

theorem exec_query (fn : Nat) (s : State) : exec (.query fn) s = s.ideKm fn 0 true id := rfl

theorem exec_keyProg (fn : Nat) (key : BitVec 256) (s : State) :
    exec (.keyProg ⟨fn, key⟩) s = s.ideKm fn 2 true fun s => s.setFunc fn { s.func fn with ideKey := some key } := rfl

theorem exec_kSetGo (fn : Nat) (s : State) :
    exec (.kSetGo fn) s = s.ideKm fn 4 (s.func fn).ideKey.isSome fun s => s.setFunc fn { s.func fn with ideSecure := true, ideCount := 1 } := rfl

theorem exec_kSetStop (fn : Nat) (s : State) :
    exec (.kSetStop fn) s = s.ideKm fn 5 true fun s => (s.leaveSecure fn).setFunc fn { (s.leaveSecure fn).func fn with ideKey := none } := rfl

theorem State.leaveSecure_of_secure {s : State} {fn : Nat} (h : (s.func fn).ideSecure = true) :
    s.leaveSecure fn = (((s.setFunc fn { s.func fn with ideSecure := false }).hif.hostOps.filter
        ((s.setFunc fn { s.func fn with ideSecure := false }).ideOp fn)).foldl (fun t x => t.stopCopyOp x 0x061c)
      { s.setFunc fn { s.func fn with ideSecure := false } with hif := { (s.setFunc fn { s.func fn with ideSecure := false }).hif with
        hostOps := (s.setFunc fn { s.func fn with ideSecure := false }).hif.hostOps.filter fun x =>
          !(s.setFunc fn { s.func fn with ideSecure := false }).ideOp fn x } }) := by
  unfold State.leaveSecure
  exact if_pos h

/-! ### Readings -/

section
variable {s : State} {n : Nat} (hn : n < 32) (r : Readings)
include hn

theorem exec_readingsWrite {x : SlotRef} (hx : s.addrRef n (s.part n).readSlot = some x) (hro : x.ro = false) (h0 : (s.part n).readSlot ≠ 0) :
    exec (.readingsWrite n r) s = .next (((s.modPart n fun p => { p with since := [] }).modPart n fun p =>
      { p with readNo := p.readNo + 1 }).spanWrite n
      (s.part n).readSlot.toNat 8192 (Mem.ofList (wordBytes ((s.part n).readNo + 1) ++ s.readings n r))) := by
  show execReadingsWrite n r s = _
  unfold execReadingsWrite
  rw [onUnit_of_ok _ (partOk_of_lt hn)]
  dsimp only
  rw [hx]
  dsimp only
  rw [if_neg (by rw [decide_eq_false h0, hro]; exact Bool.false_ne_true)]

theorem exec_readingsWrite_noSlot (h0 : (s.part n).readSlot = 0) :
    exec (.readingsWrite n r) s = .next (s.modPart n fun p => { p with since := [] }) := by
  show execReadingsWrite n r s = _
  unfold execReadingsWrite
  rw [onUnit_of_ok _ (partOk_of_lt hn)]
  dsimp only
  cases s.addrRef n (s.part n).readSlot with
  | none => rfl
  | some x =>
    dsimp only
    rw [if_pos (by rw [decide_eq_true h0]; rfl)]

end

end Sys2Proof.Machine

open Sys2Proof Sys2Proof.Machine

/-- Settles O58: each request by what the responder's session, its certificates and its entropy give; the readings by their slot. -/
theorem requestsOfOwnersAndPeers : Obligations.RequestsOfOwnersAndPeers := by
  intro s
  refine ⟨fun ha hy => ?_, fun fn hf hi => ?_, fun hd => ?_, fun hy => ?_, fun n hn r x hx hro h0 => ?_, fun n hn r h0 => ?_⟩
  · have hr : s.responder = true := State.responder_iff.mpr ⟨ha, hy⟩
    refine ⟨fun digest hlock hs => ?_, fun smbus digest h => ?_, fun n hn ho hfl hv => ?_, fun n h => ?_, fun chain ho hc => ?_, ?_, fun hc => ?_,
      fun slot hc => ⟨?_, fun nonce => ?_⟩, ?_, ?_, ?_, fun slot nonce hd hc => ?_, fun hd slot nonce => ?_, fun i m hm => ?_, fun i hm => ?_,
      fun path share chain hc => ⟨fun z hz hd hn => ?_, fun h => ?_⟩, fun path share chain h0 hc => ?_, fun k hk => ?_, ?_,
      fun hl hp hfl hs fn hf => ⟨?_, fun key => ?_, fun hk => ?_, fun hk => ?_, ?_⟩, fun hl hp h fn hf => ?_⟩
    · exact exec_ownerProvision hr digest hlock hs
    · exact exec_ownerProvision_refused hr digest h
    · exact ⟨s.raiseFloor n, exec_floorAdvance hr ho hfl hn hv, s.raiseFloor_fuses_only n, s.raiseFloor_grown n, s.le_raiseFloor_floor hn⟩
    · exact exec_floorAdvance_refused hr h
    · exact ⟨s.putChain chain, exec_setCertificate hr ho hc, s.putChain_sec chain, s.putChain_fuses chain,
        fun hwf p hp => s.putChain_port chain hwf hp⟩
    · exact State.next_of_responder hr rfl
    · refine State.next_of_responder hr ?_
      dsimp only
      rw [State.chainOf_one hc]
    · refine State.next_of_responder hr ?_
      dsimp only
      rw [hc]
    · refine State.next_of_responder hr ?_
      dsimp only
      rw [hc]
      exact if_neg (by rw [Option.isSome_none, Bool.and_false]; exact Bool.false_ne_true)
    · exact State.next_of_responder hr rfl
    · exact State.next_of_responder hr rfl
    · exact State.next_of_responder hr rfl
    · exact State.next_of_responder hr (if_pos (Bool.and_eq_true_iff.mpr ⟨hd, Option.isSome_iff_ne_none.mpr hc⟩))
    · exact State.next_of_responder hr (if_neg (by rw [hd]; exact Bool.false_ne_true))
    · refine State.next_of_responder hr ?_
      dsimp only
      rw [hm]
    · refine State.next_of_responder hr ?_
      dsimp only
      rw [hm]
    · exact exec_keyExchange_opens hr hc hz hd hn
    · exact exec_keyExchange_noSession hr hc h
    · exact exec_keyExchange_badChain hr h0 hc
    · exact State.next_of_responder hr (if_pos hk)
    · exact State.next_of_responder hr rfl
    · exact (exec_query fn s).trans (State.ideKm_accepts hf hr hl hp hs hfl rfl _)
    · exact (exec_keyProg fn key s).trans (State.ideKm_accepts hf hr hl hp hs hfl rfl _)
    · exact (exec_kSetGo fn s).trans (State.ideKm_accepts hf hr hl hp hs hfl (Option.isSome_iff_ne_none.mpr hk) _)
    · exact (exec_kSetGo fn s).trans (State.ideKm_refuses hf hr hl hp (by rw [hk]; rfl) _)
    · exact (exec_kSetStop fn s).trans (State.ideKm_accepts hf hr hl hp hs hfl rfl _)
    · have hno : ∀ ok, (ok && s.sessionBy .doe && s.hif.flit) = false := fun ok => by
        rcases h with h | h
        · rw [h, Bool.and_false]
        · rw [h, Bool.and_false, Bool.false_and]
      exact ⟨(exec_query fn s).trans (State.ideKm_refuses hf hr hl hp (hno _) _),
        fun key => (exec_keyProg fn key s).trans (State.ideKm_refuses hf hr hl hp (hno _) _),
        (exec_kSetGo fn s).trans (State.ideKm_refuses hf hr hl hp (hno _) _),
        (exec_kSetStop fn s).trans (State.ideKm_refuses hf hr hl hp (hno _) _)⟩
  · show execIdeLeaveSecure fn s = _
    unfold execIdeLeaveSecure
    rw [onUnit_of_ok _ hf, State.leaveSecure_of_secure hi]
  · exact congrArg Host.Outcome.next (if_pos hd)
  · exact congrArg Host.Outcome.next (if_pos hy)
  · exact exec_readingsWrite hn r hx hro h0
  · exact exec_readingsWrite_noSlot hn r h0
end

section
/-! PROOFS. The ladder and the self-test (O59): what the write-back of near copies leaves, every core and port in turn, units that fail, supplies. -/

namespace Sys2Proof.Machine

/-! ### What writing near copies back leaves of the links and the cores -/

/-- The links are as they were, and the table of cores stays canonical. -/
structure State.SpanPart (s t : State) : Prop where
  lnk : t.lnk = s.lnk
  cores : SMap.wf Core.blank s.cores = true → SMap.wf Core.blank t.cores = true

theorem State.SpanPart.of_eq {s t : State} (hl : t.lnk = s.lnk) (hc : t.cores = s.cores) : s.SpanPart t := ⟨hl, fun h => hc ▸ h⟩

theorem State.SpanPart.refl (s : State) : s.SpanPart s := .of_eq rfl rfl

theorem State.SpanPart.trans {s t u : State} (h : s.SpanPart t) (h' : t.SpanPart u) : s.SpanPart u :=
  ⟨h'.lnk.trans h.lnk, fun hw => h'.cores (h.cores hw)⟩

theorem State.SpanPart.of_behind {s t : State} (h : t.behindRings = s.behindRings) : s.SpanPart t :=
  .of_eq (congrArg State.lnk h :) (congrArg State.cores h :)

theorem State.SpanPart.foldl {α : Type} {f : State → α → State} (h : ∀ (t : State) a, t.SpanPart (f t a)) (l : List α) (s : State) :
    s.SpanPart (l.foldl f s) := by
  induction l generalizing s with
  | nil => exact .refl s
  | cons a l ih => exact (h s a).trans (ih _)

section
variable (s : State) (n slot : Nat)

theorem State.spanPart_setTile (t : Tile) : s.SpanPart (s.setTile n slot t) := .of_eq rfl rfl

theorem State.spanPart_makeRoom (need except fuel : Nat) : s.SpanPart (s.makeRoom n need except fuel).1 := by
  induction fuel generalizing s with
  | zero => exact .refl s
  | succ fuel ih =>
    unfold State.makeRoom
    split
    · exact .refl s
    · split
      · exact .refl s
      · split
        · exact .refl s
        · exact (s.spanPart_setTile n _ _).trans (ih _)

theorem State.spanPart_restTile (t : Tile) : s.SpanPart (s.restTile n slot t) :=
  ((s.spanPart_setTile n slot _).trans (State.spanPart_makeRoom _ n _ _ _)).trans (State.spanPart_setTile _ n slot _)

theorem State.spanPart_countTier (t : Tile) : s.SpanPart (s.countTier n t) := by
  unfold State.countTier
  split
  · exact .refl s
  · exact .of_eq rfl rfl

theorem State.spanPart_raise (e : Ev) (on : Bool) : s.SpanPart (s.raise e on) := .of_behind (s.raise_behind e on)

theorem State.spanPart_spnEvent (i : Nat) (e : Ev) : s.SpanPart (s.spnEvent i e) := by
  have h0 : s.SpanPart { s with spn := { s.spn with event := setBit s.spn.event i } } := .of_eq rfl rfl
  exact h0.trans (State.spanPart_raise _ _ _)

theorem State.spanPart_poisonTile : s.SpanPart (s.poisonTile n slot) := by
  unfold State.poisonTile State.spnStuck
  dsimp only
  split
  · exact .refl s
  · refine (s.spanPart_setTile n slot { s.tile n slot with poisoned := true, fresh := false }).trans ?_
    have h0 : ∀ (u : State) (v : W32), u.SpanPart { u with spn := { u.spn with ue := v } } := fun _ _ => .of_eq rfl rfl
    split
    · exact (h0 _ _).trans (State.spanPart_spnEvent _ _ _)
    · exact h0 _ _

theorem State.spanPart_modPart (f : Part → Part) : s.SpanPart (s.modPart n f) := .of_eq rfl rfl

theorem State.spanPart_poisonRead : s.SpanPart (s.poisonRead n slot) :=
  (s.spanPart_modPart n _).trans (State.spanPart_spnEvent _ _ _)

theorem State.spanPart_settleJobs : s.SpanPart s.settleJobs :=
  .of_eq (congrArg State.lnk s.settleJobs_behind :) s.settleJobs_cores

theorem State.spanPart_writeNear (t : Tile) : s.SpanPart (s.writeNear t) := by
  unfold State.writeNear
  split
  · exact .refl s
  · exact ⟨rfl, State.setCore_wf _ _ _⟩

theorem State.spanPart_putBack : s.SpanPart (s.putBack n slot) := by
  unfold State.putBack
  dsimp only
  split
  · exact .refl s
  · exact s.spanPart_setTile n slot _
  · split
    · exact s.spanPart_setTile n slot _
    · refine .trans ?_ (State.spanPart_settleJobs _)
      have h := fun x => (s.spanPart_restTile n slot x).trans (State.spanPart_countTier _ n ((s.restTile n slot x).tile n slot))
      split
      · exact (h _).trans (State.spanPart_poisonTile _ n slot)
      · exact h _

theorem State.spanPart_takeNear (core : Nat) : s.SpanPart (s.takeNear n slot core) := by
  unfold State.takeNear
  split
  · exact s.spanPart_poisonRead n slot
  · split
    · exact .refl s
    · exact ((s.spanPart_countTier n _).trans (State.spanPart_setTile _ n slot _)).trans (State.spanPart_writeNear _ _)

theorem State.spanPart_promoteWarm : s.SpanPart (s.promoteWarm n slot) := by
  unfold State.promoteWarm
  dsimp only
  split
  · exact (s.spanPart_makeRoom n _ _ _).trans (State.spanPart_setTile _ n slot _)
  · exact .refl s

theorem State.spanPart_hintNow (hint core : Nat) : s.SpanPart (s.hintNow n hint core slot) := by
  have h0 := s.spanPart_setTile n slot { s.tile n slot with hint := some (BitVec.ofNat 8 hint), nextHint := none }
  unfold State.hintNow
  dsimp only
  split
  · split
    · exact h0
    · exact (h0.trans (State.spanPart_putBack _ n slot)).trans (State.spanPart_takeNear _ n slot core)
  · exact (h0.trans (State.spanPart_putBack _ n slot)).trans (State.spanPart_promoteWarm _ n slot)

theorem State.spanPart_applyHint : s.SpanPart (s.applyHint n slot) := by
  unfold State.applyHint
  dsimp only
  split
  · exact .refl s
  · split
    · exact .refl s
    · exact s.spanPart_hintNow n slot _ _

end

theorem State.spanPart_writeBack (s : State) (p : Nat → Nat → Bool) : s.SpanPart (s.writeBack p) :=
  .foldl (fun t _ => (t.spanPart_putBack _ _).trans (State.spanPart_applyHint _ _ _)) _ _

/-! ### Every core and every port in turn -/

/-- What each core becomes in a pass over cores that names none of them twice. -/
theorem State.core_modCores (f : Nat → Core → Core) {l : List Nat} (hl : l.Nodup) {s : State} (hwf : SMap.wf Core.blank s.cores = true) (j : Nat) :
    (s.modCores l f).core j = if j ∈ l then f j (s.core j) else s.core j := by
  induction l generalizing s with
  | nil => rfl
  | cons k rest ih =>
    obtain ⟨hk, hrest⟩ := List.nodup_cons.mp hl
    have hstep : s.modCores (k :: rest) f = (s.modCore k (f k)).modCores rest f := rfl
    have hwf' : SMap.wf Core.blank (s.modCore k (f k)).cores = true := State.setCore_wf _ _ _ hwf
    rw [hstep, ih hrest hwf']
    by_cases hj : j = k
    · subst hj
      rw [if_neg hk, if_pos (List.mem_cons_self ..)]
      exact State.core_setCore _ _ _ hwf
    · have hcore : (s.modCore k (f k)).core j = s.core j := State.core_setCore_ne _ _ _ _ hwf hj
      simp only [hcore, List.mem_cons, hj, false_or]

theorem State.modCores_wf (f : Nat → Core → Core) (l : List Nat) {s : State} (hwf : SMap.wf Core.blank s.cores = true) :
    SMap.wf Core.blank (s.modCores l f).cores = true := by
  induction l generalizing s with
  | nil => exact hwf
  | cons k rest ih => exact ih (s := s.modCore k (f k)) (State.setCore_wf _ _ _ hwf)

theorem State.modCores_lnk (s : State) (l : List Nat) (f : Nat → Core → Core) : (s.modCores l f).lnk = s.lnk :=
  foldl_view State.lnk (f := fun s k => State.modCore s k (f k)) (fun _ _ => rfl) l s

theorem State.modCores_parts (s : State) (l : List Nat) (f : Nat → Core → Core) : (s.modCores l f).parts = s.parts :=
  foldl_view State.parts (f := fun s k => State.modCore s k (f k)) (fun _ _ => rfl) l s

theorem State.groundPort_cores (s : State) (p : Nat) : (s.groundPort p).cores = s.cores := by
  unfold State.groundPort
  split
  · rfl
  · exact (congrArg State.cores (State.raise_behind _ _ _) :)

theorem State.groundPort_ports (s : State) (p : Nat) : (s.groundPort p).lnk.ports = (s.modPort p Port.ladderDown).lnk.ports := by
  unfold State.groundPort
  split
  · rfl
  · exact (congrArg (fun t => t.lnk.ports) (State.raise_behind _ _ _) :)

/-- The ladder holds the ports that it holds as a pass over them does, events aside. -/
theorem State.foldl_groundPort_ports (l : List Nat) (s : State) :
    (l.foldl State.groundPort s).lnk.ports = (l.foldl (fun t p => t.modPort p Port.ladderDown) s).lnk.ports := by
  have h (f : State → Nat → State) (hf : ∀ t p, (f t p).lnk.ports = (t.modPort p Port.ladderDown).lnk.ports) :
      (l.foldl f s).lnk.ports
        = l.foldl (fun m p => SMap.set Port.blank m p (Port.ladderDown (SMap.get Port.blank m p))) s.lnk.ports :=
    (List.foldl_hom (fun t : State => t.lnk.ports) fun t p => (hf t p).symm).symm
  rw [h _ State.groundPort_ports, h _ fun _ _ => rfl]

theorem State.port_of_ports {s t : State} (h : t.lnk.ports = s.lnk.ports) (p : Nat) : t.port p = s.port p := by
  unfold State.port
  rw [h]

/-! ### Entry to and exit from Grounded -/

section
variable {s : State}

theorem Core.powerOff_powerOff (c : Core) : c.powerOff.powerOff = c.powerOff := rfl

/-- A pass over partitions that forgets what their spools were leaves cores and links. -/
theorem State.dropGens_cores (s : State) (l : List Nat) :
    (l.foldl (fun t n => if t.hasPart n then t.modPart n fun p => { p with gens := [] } else t) s).cores = s.cores :=
  foldl_view State.cores (f := fun t n => if State.hasPart t n then t.modPart n fun p => { p with gens := [] } else t)
    (fun _ _ => by split <;> rfl) l s

theorem State.dropGens_lnk (s : State) (l : List Nat) :
    (l.foldl (fun t n => if t.hasPart n then t.modPart n fun p => { p with gens := [] } else t) s).lnk = s.lnk :=
  foldl_view State.lnk (f := fun t n => if State.hasPart t n then t.modPart n fun p => { p with gens := [] } else t)
    (fun _ _ => by split <;> rfl) l s

theorem State.enterGrounded_core (hwf : SMap.wf Core.blank s.cores = true) {k : Nat} (hk : k < 256) :
    s.enterGrounded.core k = (s.enterGrounded.core k).powerOff := by
  have hw : SMap.wf Core.blank ((List.range 18).foldl State.groundPort (s.writeBack fun _ _ => true)).cores = true := by
    rw [foldl_view State.cores State.groundPort_cores]
    exact (s.spanPart_writeBack _).cores hwf
  have h : s.enterGrounded.core k = (((List.range 18).foldl State.groundPort (s.writeBack fun _ _ => true)).core k).powerOff := by
    unfold State.enterGrounded
    rw [State.core_of_cores (State.dropGens_cores _ _), State.core_modCores _ List.nodup_range hw, if_pos (List.mem_range.mpr hk)]
  rw [h, Core.powerOff_powerOff]

theorem State.enterGrounded_port (hwf : SMap.wf Port.blank s.lnk.ports = true) {p : Nat} (hp : p < 18) :
    s.enterGrounded.port p = (s.port p).ladderDown := by
  have hl := (s.spanPart_writeBack fun _ _ => true).lnk
  have hports : s.enterGrounded.lnk.ports
      = ((List.range 18).foldl (fun t p => t.modPort p Port.ladderDown) (s.writeBack fun _ _ => true)).lnk.ports := by
    unfold State.enterGrounded
    rw [State.dropGens_lnk, State.modCores_lnk, State.foldl_groundPort_ports]
  rw [State.port_of_ports hports, State.port_foldl_modPort (fun _ => Port.ladderDown) List.nodup_range (by rw [hl]; exact hwf),
    if_pos (List.mem_range.mpr hp), State.port_of_ports (congrArg Lnk.ports hl)]

theorem State.floorOf_le_ceilingOf (s : State) (k : Nat) : s.floorOf k ≤ s.ceilingOf k := Nat.le_max_left _ _

theorem State.ceilingOf_le (s : State) (k : Nat) : s.ceilingOf k ≤ 35 := by
  unfold State.ceilingOf State.floorOf
  dsimp only
  split <;> split <;> omega

/-- A fitted supply lies in its range. -/
theorem State.fitted_supply (s : State) (k : Nat) (c : Core) :
    (s.fitted k c).supply.toNat = max (s.floorOf k) (min (s.ceilingOf k) c.supply.toNat) := by
  have h1 := s.floorOf_le_ceilingOf k
  have h2 := s.ceilingOf_le k
  exact (BitVec.toNat_ofNat _ _).trans (Nat.mod_eq_of_lt (by omega))

theorem State.foldl_fitSupply_parts (l : List Nat) (s : State) : (l.foldl State.fitSupply s).parts = s.parts :=
  foldl_view State.parts (f := State.fitSupply) (fun _ _ => rfl) l s

theorem State.foldl_fitSupply_pwr (l : List Nat) (s : State) : (l.foldl State.fitSupply s).pwr = s.pwr :=
  foldl_view State.pwr (f := State.fitSupply) (fun _ _ => rfl) l s

theorem State.foldl_fitSupply_lnk (l : List Nat) (s : State) : (l.foldl State.fitSupply s).lnk = s.lnk :=
  foldl_view State.lnk (f := State.fitSupply) (fun _ _ => rfl) l s

theorem State.modCores_pwr (s : State) (l : List Nat) (f : Nat → Core → Core) : (s.modCores l f).pwr = s.pwr :=
  foldl_view State.pwr (f := fun s k => State.modCore s k (f k)) (fun _ _ => rfl) l s

theorem State.foldl_modPort_parts (f : Nat → Port → Port) (l : List Nat) (s : State) :
    (l.foldl (fun t p => t.modPort p (f p)) s).parts = s.parts :=
  foldl_view State.parts (f := fun t p => State.modPort t p (f p)) (fun _ _ => rfl) l s

theorem State.foldl_modPort_pwr (f : Nat → Port → Port) (l : List Nat) (s : State) :
    (l.foldl (fun t p => t.modPort p (f p)) s).pwr = s.pwr :=
  foldl_view State.pwr (f := fun t p => State.modPort t p (f p)) (fun _ _ => rfl) l s

theorem State.foldl_modPort_cores (f : Nat → Port → Port) (l : List Nat) (s : State) :
    (l.foldl (fun t p => t.modPort p (f p)) s).cores = s.cores :=
  foldl_view State.cores (f := fun t p => State.modPort t p (f p)) (fun _ _ => rfl) l s

theorem State.leaveGrounded_cores (s : State) :
    s.leaveGrounded.cores = ((List.range 256).foldl State.fitSupply (s.modCores (List.range 256) fun _ c => { c with off := false })).cores := by
  unfold State.leaveGrounded
  rw [State.foldl_modPort_cores fun p => Port.ladderUp (decide (14 ≤ p) && s.siteConfig.isNone)]

theorem State.leaveGrounded_parts (s : State) : s.leaveGrounded.parts = s.parts := by
  unfold State.leaveGrounded
  rw [State.foldl_modPort_parts fun p => Port.ladderUp (decide (14 ≤ p) && s.siteConfig.isNone), State.foldl_fitSupply_parts, State.modCores_parts]

theorem State.leaveGrounded_pwr (s : State) : s.leaveGrounded.pwr = s.pwr := by
  unfold State.leaveGrounded
  rw [State.foldl_modPort_pwr fun p => Port.ladderUp (decide (14 ≤ p) && s.siteConfig.isNone), State.foldl_fitSupply_pwr, State.modCores_pwr]

/-- Leaving Grounded a core has power again, its supply in its range. -/
theorem State.leaveGrounded_core (hwf : SMap.wf Core.blank s.cores = true) {k : Nat} (hk : k < 256) :
    s.leaveGrounded.core k = { s.core k with off := false, supply := (s.leaveGrounded.core k).supply }
      ∧ s.leaveGrounded.floorOf k ≤ (s.leaveGrounded.core k).supply.toNat
      ∧ (s.leaveGrounded.core k).supply.toNat ≤ s.leaveGrounded.ceilingOf k := by
  have hm := List.mem_range.mpr hk
  have hon : (s.modCores (List.range 256) fun _ c => { c with off := false }).core k = { s.core k with off := false } :=
    (State.core_modCores _ List.nodup_range hwf k).trans (if_pos hm)
  have hc : s.leaveGrounded.core k
      = (s.modCores (List.range 256) fun _ c => { c with off := false }).fitted k { s.core k with off := false } := by
    rw [State.core_of_cores s.leaveGrounded_cores, State.core_foldl_fitSupply List.nodup_range (State.modCores_wf _ _ hwf) hm, hon]
  have hparts : s.leaveGrounded.parts = (s.modCores (List.range 256) fun _ c => { c with off := false }).parts :=
    s.leaveGrounded_parts.trans (s.modCores_parts _ _).symm
  have hpwr : s.leaveGrounded.pwr = (s.modCores (List.range 256) fun _ c => { c with off := false }).pwr :=
    s.leaveGrounded_pwr.trans (s.modCores_pwr _ _).symm
  have hfloor := (State.range_congr hparts (k := k) (by rw [hc, hon]; rfl)).2
  have hceil := State.ceilingOf_congr hparts hpwr (k := k) (by rw [hc, hon]; rfl) (by rw [hc, hon]; rfl)
  rw [hfloor, hceil, hc]
  have h1 := (s.modCores (List.range 256) fun _ c => { c with off := false }).floorOf_le_ceilingOf k
  rw [State.fitted_supply]
  exact ⟨rfl, Nat.le_max_left _ _, by omega⟩

theorem State.leaveGrounded_port (hwf : SMap.wf Port.blank s.lnk.ports = true) {p : Nat} (hp : p < 18) :
    s.leaveGrounded.port p = (s.port p).ladderUp (decide (14 ≤ p) && s.siteConfig.isNone) := by
  have hl : ((List.range 256).foldl State.fitSupply (s.modCores (List.range 256) fun _ c => { c with off := false })).lnk = s.lnk := by
    rw [State.foldl_fitSupply_lnk, State.modCores_lnk]
  unfold State.leaveGrounded
  rw [State.port_foldl_modPort (fun p => Port.ladderUp (decide (14 ≤ p) && s.siteConfig.isNone)) List.nodup_range (by rw [hl]; exact hwf),
    if_pos (List.mem_range.mpr hp), State.port_of_ports (congrArg Lnk.ports hl)]

/-! ### A move along the ladder -/

theorem State.enterPacked_su (t : State) : t.enterPacked.su.stage = 0x01 ∧ t.enterPacked.su.packed = true ∧ t.enterPacked.su.rails = false
    ∧ t.enterPacked.su.switchClosed = t.su.switchClosed := ⟨rfl, rfl, rfl, rfl⟩

/-- A move to Packed ends with the switch as it was and no rails. -/
theorem State.moveRung_packed (s : State) : (s.moveRung .packed).su.stage = 0x01 ∧ (s.moveRung .packed).su.packed = true
    ∧ (s.moveRung .packed).su.rails = false ∧ (s.moveRung .packed).su.switchClosed = s.su.switchClosed := by
  unfold State.moveRung
  extract_lets low t1 t2 t3 t4 pwr t5
  have h1 : t1.su.power = s.su.power := by simp only [t1]; split <;> simp
  have h2 : t2.su.power = s.su.power := by simp only [t2]; split <;> simp [h1]
  have h3 : t3.su.power = s.su.power := by simp only [t3]; split <;> simp [h2]
  have h4 : t4.su.power = s.su.power := by simp only [t4]; split <;> simp [h3]
  have hs : t5.su.switchClosed = s.su.switchClosed := (congrArg Startup.switchClosed h4 :)
  rw [if_pos rfl, ← hs]
  exact t5.enterPacked_su

section
variable {target : Rung} (hp : target ≠ .packed)
include hp

theorem State.moveRung_low : (s.moveRung target).pwr.low = target ∧ (s.moveRung target).pwr.move = none := by
  unfold State.moveRung
  extract_lets
  rw [if_neg hp]
  exact ⟨rfl, rfl⟩

/-- A move down to Grounded or below leaves cores and links as the entry to Grounded does. -/
theorem State.moveRung_down (hl : s.pwr.low.depth < 2) (ht : 2 ≤ target.depth) :
    (s.moveRung target).cores = s.enterGrounded.cores ∧ (s.moveRung target).lnk = s.enterGrounded.lnk := by
  unfold State.moveRung
  extract_lets low t1 t2 t3 t4 pwr t5
  have h1 : t1 = s.enterGrounded := if_pos ⟨hl, ht⟩
  have h2 : t2.cores = t1.cores ∧ t2.lnk = t1.lnk := by
    simp only [t2]
    split
    · exact ⟨State.settleJobs_cores _, (State.spanPart_settleJobs _).lnk⟩
    · exact ⟨rfl, rfl⟩
  have h3 : t3 = t2 := if_neg (by omega)
  have h4 : t4 = t3 := if_neg (by omega)
  have h5 : t5.cores = t4.cores ∧ t5.lnk = t4.lnk := ⟨rfl, rfl⟩
  rw [if_neg hp, h5.1, h5.2, h4, h3, h2.1, h2.2, h1]
  exact ⟨rfl, rfl⟩

/-- A move up from Grounded or below leaves cores, partitions, supplies and links as leaving Grounded does, the span aside. -/
theorem State.moveRung_up (hl : 2 ≤ s.pwr.low.depth) (ht : target.depth < 2) : ∃ spn : Spn,
    (s.moveRung target).cores = ({ s with spn := spn } : State).leaveGrounded.cores
      ∧ (s.moveRung target).parts = ({ s with spn := spn } : State).leaveGrounded.parts
      ∧ (s.moveRung target).lnk = ({ s with spn := spn } : State).leaveGrounded.lnk
      ∧ (s.moveRung target).pwr.vmax = ({ s with spn := spn } : State).leaveGrounded.pwr.vmax := by
  unfold State.moveRung
  extract_lets low t1 t2 t3 t4 pwr t5
  have h1 : t1 = s := if_neg (by omega)
  have h2 : t2 = t1 := if_neg (by omega)
  have h3 : t3 = { s with spn := t3.spn } := by
    simp only [t3, h2, h1]
    split <;> rfl
  have h4 : t4 = t3.leaveGrounded := if_pos ⟨hl, ht⟩
  refine ⟨t3.spn, ?_⟩
  rw [if_neg hp, ← h3, ← h4]
  exact ⟨rfl, rfl, rfl, rfl⟩

end
end

end Sys2Proof.Machine
end

section
namespace Sys2Proof.Machine

/-! ### Bits that are set -/

theorem bit_setBit_same {w : Nat} (x : BitVec w) {i : Nat} (h : i < w) : bit (setBit x i) i = true := by
  unfold bit setBit
  rw [BitVec.getLsbD_or, BitVec.getLsbD_shiftLeft]
  simp [h, Nat.zero_lt_of_lt h]

theorem bit_setBit_of_bit {w : Nat} {x : BitVec w} {i : Nat} (h : bit x i = true) (j : Nat) : bit (setBit x j) i = true := by
  unfold bit at h
  unfold bit setBit
  rw [BitVec.getLsbD_or, h, Bool.true_or]

/-! ### Units that fail a test outside start-up -/

section
variable (s : State)

theorem State.takeOut_pwr (u : TestUnit) : (s.takeOut u).pwr = s.pwr := by
  cases u <;> rfl

theorem State.failUnit_pwr (u : TestUnit) : (s.failUnit u).pwr = s.pwr := by
  cases u with
  | link p =>
    unfold State.failUnit
    dsimp only
    split
    · exact s.takeOut_pwr _
    · exact (congrArg State.pwr (State.raise_behind _ _ _) :)
  | _ => exact s.takeOut_pwr _

theorem State.failUnit_su (u : TestUnit) : (s.failUnit u).su = (s.takeOut u).su := by
  cases u with
  | link p =>
    unfold State.failUnit
    dsimp only
    split
    · rfl
    · exact (congrArg State.su (State.raise_behind _ _ _) :)
  | _ => rfl

/-- What failing takes out of use stays out of use. -/
theorem State.takeOut_keepsTestedOff (u : TestUnit) {i : Nat} (h : bit s.su.testedOff i = true) : bit (s.takeOut u).su.testedOff i = true := by
  cases u with
  | array k j =>
    rw [State.takeOut_array_su]
    exact bit_setBit_of_bit h _
  | _ => exact h

/-- An array that is among the failing units is out of use after them. -/
theorem State.foldl_failUnit_testedOff {i : Nat} (l : List TestUnit)
    (h : bit s.su.testedOff i = true ∨ i < 512 ∧ ∃ k j, i = 2 * k + j ∧ .array k j ∈ l) : bit (l.foldl State.failUnit s).su.testedOff i = true := by
  induction l generalizing s with
  | nil => exact h.resolve_right fun ⟨_, _, _, _, hm⟩ => nomatch hm
  | cons u l ih =>
    refine ih (s.failUnit u) ?_
    rw [State.failUnit_su]
    rcases h with h | ⟨hi, k, j, rfl, hm⟩
    · exact .inl (s.takeOut_keepsTestedOff u h)
    · rcases List.mem_cons.mp hm with rfl | hm
      · rw [State.takeOut_array_su]
        exact .inl (bit_setBit_same _ hi)
      · exact .inr ⟨hi, k, j, rfl, hm⟩

theorem State.gradeCheck_pwr : s.gradeCheck.pwr = s.pwr := by
  unfold State.gradeCheck
  dsimp only
  split <;> simp [State.note]

theorem State.halt_pwr (st : Nat) : (s.halt st).pwr = s.pwr := by simp [State.halt]

theorem State.halt_testedOff (st : Nat) : (s.halt st).su.testedOff = s.su.testedOff := by simp [State.halt]

theorem State.halt_shows (st : Nat) : (s.halt st).su.stage = 0x0e ∧ (s.halt st).su.status = BitVec.ofNat 16 st := by simp [State.halt]

theorem State.testFailed_pwr (l : List TestUnit) : (s.testFailed l).pwr = s.pwr := by
  have h := foldl_view State.pwr State.failUnit_pwr l s
  unfold State.testFailed
  dsimp only
  split
  · rw [State.halt_pwr, h]
  · split
    · rw [State.gradeCheck_pwr, h]
    · exact h

theorem State.testFailed_testedOff (l : List TestUnit) : (s.testFailed l).su.testedOff = (l.foldl State.failUnit s).su.testedOff := by
  unfold State.testFailed
  dsimp only
  split
  · exact State.halt_testedOff _ _
  · split
    · rw [State.gradeCheck_su]
    · rfl

theorem State.testFailed_halts {l : List TestUnit} (h : l.any TestUnit.halting = true) :
    (s.testFailed l).su.stage = 0x0e ∧ (s.testFailed l).su.status = 0x0701 := by
  unfold State.testFailed
  dsimp only
  rw [if_pos h]
  exact State.halt_shows _ _

theorem State.logFails_behind (l : List TestUnit) : (s.logFails l).behindRings = s.behindRings :=
  foldl_view State.behindRings (fun t _ => State.log_behind t _ _) l s

end

/-! ### The end of a test -/

/-- The state in which a test has ended, before it is answered. -/
def State.testEnded (s : State) (x : SelfTest) (sig expd : W64) (fails : List TestUnit) : State :=
  let t := { s with pwr := { s.pwr with test := none, stSig := sig, stExp := expd } }
  let t := if x.kind = 3 then t.logFails fails else t
  if !fails.isEmpty then t.testFailed fails else if x.kind = 1 && x.atDrain then t.modPort x.unit Port.testUp else t

section
variable {s : State} {sig expd : W64} {fails : List TestUnit} {x : SelfTest}

theorem exec_selftestComplete (hx : s.pwr.test = some x) (hr : s.su.rails = true) (hd : s.testDue x = true)
    (hv : fails.all TestUnit.valid = true) (hc : fails.all x.covers = true) (ht : fails.all s.testable = true)
    (hs : x.kind = 3 ∨ (fails = [] ↔ sig = expd)) : exec (.selftestComplete sig expd fails) s =
      .next ((s.testEnded x sig expd fails).answer x.ref 0x05 (if fails = [] then 0 else 0x0702)
        (if x.kind = 3 then fails.length else sig.toNat) 8) := by
  have hsig : (decide (x.kind = 3) || fails.isEmpty == (sig == expd)) = true := by
    rcases hs with hs | hs
    · rw [decide_eq_true hs, Bool.true_or]
    · have he : fails.isEmpty = (sig == expd) := by
        rw [Bool.eq_iff_iff, List.isEmpty_iff, beq_iff_eq]
        exact hs
      rw [he, beq_self_eq_true, Bool.or_true]
  have hst : (if fails.isEmpty then 0 else 0x0702) = if fails = [] then 0 else 0x0702 := by
    cases fails <;> rfl
  show execSelftestComplete sig expd fails s = _
  unfold execSelftestComplete
  rw [onUnit_of_ok _ hv, hx]
  dsimp only
  rw [if_pos (by rw [hr, hd, hc, ht, hsig]; rfl), hst]
  rfl

theorem State.testEnded_pwr : (s.testEnded x sig expd fails).pwr = { s.pwr with test := none, stSig := sig, stExp := expd } := by
  unfold State.testEnded
  extract_lets pwr t u
  have hu : u.pwr = t.pwr := by
    simp only [u]
    split
    · exact (congrArg State.pwr (t.logFails_behind fails) :)
    · rfl
  split
  · rw [State.testFailed_pwr, hu]
  · split
    · exact hu
    · exact hu

theorem State.testEnded_testedOff {k j : Nat} (hv : fails.all TestUnit.valid = true) (h : .array k j ∈ fails) :
    bit (s.testEnded x sig expd fails).su.testedOff (2 * k + j) = true := by
  have hkj : k < 256 ∧ j < 2 := by simpa [TestUnit.valid] using List.all_eq_true.mp hv _ h
  have hi : 2 * k + j < 512 := by omega
  unfold State.testEnded
  extract_lets pwr t u
  rw [if_pos (by rw [List.isEmpty_eq_false_iff.mpr (List.ne_nil_of_mem h)]; rfl), State.testFailed_testedOff]
  exact State.foldl_failUnit_testedOff _ _ (.inr ⟨hi, k, j, rfl, h⟩)

theorem State.testEnded_halts (h : fails.any TestUnit.halting = true) :
    (s.testEnded x sig expd fails).su.stage = 0x0e ∧ (s.testEnded x sig expd fails).su.status = 0x0701 := by
  have hne : fails ≠ [] := by
    rintro rfl
    exact Bool.false_ne_true h
  unfold State.testEnded
  extract_lets pwr t u
  rw [if_pos (by rw [List.isEmpty_eq_false_iff.mpr hne]; rfl)]
  exact State.testFailed_halts _ h

theorem State.testEnded_passed : (s.testEnded x sig expd []).cores = s.cores ∧ (s.testEnded x sig expd []).spn = s.spn
    ∧ (s.testEnded x sig expd []).parts = s.parts ∧ (s.testEnded x sig expd []).su = s.su := by
  unfold State.testEnded
  extract_lets pwr t u
  have hu : u = t := by
    simp only [u]
    split <;> rfl
  rw [if_neg (by exact Bool.false_ne_true), hu]
  split <;> exact ⟨rfl, rfl, rfl, rfl⟩

end

/-! ### Supplies -/

section
variable {s : State} {k : Nat}

/-- A core whose supply has been set, and that is then brought into its range. -/
theorem State.fitSupply_modCore (hwf : SMap.wf Core.blank s.cores = true) (v : BitVec 6) :
    (((s.modCore k fun c => { c with supply := v }).fitSupply k).core k)
        = { s.core k with supply := BitVec.ofNat 6 (max (s.floorOf k) (min (s.ceilingOf k) v.toNat)) }
      ∧ (s.modCore k fun c => { c with supply := v }).fitSupply k
        = { s with cores := ((s.modCore k fun c => { c with supply := v }).fitSupply k).cores }
      ∧ ∀ j, j ≠ k → ((s.modCore k fun c => { c with supply := v }).fitSupply k).core j = s.core j := by
  have hc : (s.modCore k fun c => { c with supply := v }).core k = { s.core k with supply := v } := State.core_modCore hwf k _
  have hwf' : SMap.wf Core.blank (s.modCore k fun c => { c with supply := v }).cores = true := State.setCore_wf _ _ _ hwf
  have hfloor := (State.range_congr (t := s.modCore k fun c => { c with supply := v }) (u := s) (k := k) rfl (by rw [hc]; rfl)).2
  have hceil := State.ceilingOf_congr (t := s.modCore k fun c => { c with supply := v }) (u := s) (k := k) rfl rfl (by rw [hc]; rfl) (by rw [hc])
  refine ⟨?_, rfl, fun j hj => ?_⟩
  · rw [State.fitSupply_eq, State.core_setCore _ _ _ hwf', hc]
    unfold State.fitted
    rw [hfloor, hceil]
  · rw [State.fitSupply_eq, State.core_setCore_ne _ _ _ _ hwf' hj]
    exact State.core_setCore_ne _ _ _ _ hwf hj

end

end Sys2Proof.Machine
end

section
namespace Sys2Proof.Machine

/-! ### Commands of the host -/

/-- A guarded command of the host is one with these checks. -/
theorem State.guarded_host (s : State) (ref : CmdRef) (cmd : Nat) (L : List (Bool × Nat)) (f : State → State) :
    s.guarded (some ref) cmd L f = s.checked ref L f := by
  unfold State.guarded State.checked
  cases firstFail L <;> rfl

/-- A move in progress ends, once its rails are up. -/
theorem exec_ladderComplete {s : State} {m : LadderMove} (hm : s.pwr.move = some m) (hr : s.su.rails = true) :
    exec .ladderComplete s = .next ((s.moveRung m.target).answer m.ref 0x04 0 0 0) := by
  show execLadderComplete s = _
  unfold execLadderComplete
  rw [hm]
  exact congrArg Host.Outcome.next (if_pos hr)

/-! ### A core's supply and temperature -/

section
variable {s : State} {k : Nat} (hk : k < 256)

theorem State.ceilingOf_of_vmax {t u : State} (hparts : t.parts = u.parts) (hv : t.pwr.vmax = u.pwr.vmax)
    (haloft : (t.core k).aloft = (u.core k).aloft) (hcut : (t.core k).ceilingCut = (u.core k).ceilingCut) : t.ceilingOf k = u.ceilingOf k := by
  obtain ⟨hpolicy, hfloor⟩ := State.range_congr hparts haloft
  simp only [State.ceilingOf, hpolicy, hfloor, hv, hcut]

theorem State.heat_core (hwf : SMap.wf Core.blank s.cores = true) (temp : Byte) : (s.heat k temp).core k = { s.core k with temp := temp } :=
  State.core_modCore hwf k fun c => { c with temp := temp }

theorem State.heat_wf (hwf : SMap.wf Core.blank s.cores = true) (temp : Byte) : SMap.wf Core.blank (s.heat k temp).cores = true :=
  State.setCore_wf _ _ _ hwf

/-- A core that stays warm has lowered its ceiling, as far as its floor lets it. -/
def State.cutCeiling (s : State) (k : Nat) (temp : Byte) : State :=
  if s.floorOf k < s.ceilingOf k then (s.heat k temp).modCore k fun c => { c with ceilingCut := c.ceilingCut + 1 } else s.heat k temp

/-- A core that holds at its floor: the hold is counted and an event. -/
def State.holdCore (s : State) (k : Nat) (temp : Byte) : State :=
  let t := (s.heat k temp).modCore k fun c => { c with held := true }
  let t := ({ t with pwr := { t.pwr with holds := stick s.pwr.holds } }).pwrEvent 0 { status := 0x0713, words := [k] }
  if stick s.pwr.holds = BitVec.allOnes 32 ∧ s.pwr.holds ≠ BitVec.allOnes 32 then t.pwrEvent 2 { status := 0x0718 } else t

theorem State.pwrEvent_cores (s : State) (i : Nat) (e : Ev) : (s.pwrEvent i e).cores = s.cores := (congrArg State.cores (State.raise_behind _ e _) :)

theorem State.pwrEvent_pwr (s : State) (i : Nat) (e : Ev) : (s.pwrEvent i e).pwr = { s.pwr with event := setBit s.pwr.event i } :=
  (congrArg State.pwr (State.raise_behind _ e _) :)

theorem State.holdCore_core (hwf : SMap.wf Core.blank s.cores = true) (temp : Byte) :
    (s.holdCore k temp).core k = { s.core k with temp := temp, held := true } := by
  have hc : (s.holdCore k temp).cores = ((s.heat k temp).modCore k fun c => { c with held := true }).cores := by
    unfold State.holdCore
    dsimp only
    split
    · rw [State.pwrEvent_cores, State.pwrEvent_cores]
    · rw [State.pwrEvent_cores]
  rw [State.core_of_cores hc, State.core_modCore (State.heat_wf hwf temp), State.heat_core hwf]

theorem State.holdCore_pwr (temp : Byte) : (s.holdCore k temp).pwr.holds = stick s.pwr.holds ∧ bit (s.holdCore k temp).pwr.event 0 = true := by
  have hset {w : Nat} (x : BitVec w) (h : 0 < w) : bit (setBit x 0) 0 = true := bit_setBit_same x h
  unfold State.holdCore
  dsimp only
  split
  · rw [State.pwrEvent_pwr, State.pwrEvent_pwr]
    exact ⟨rfl, bit_setBit_of_bit (hset _ (by decide)) _⟩
  · rw [State.pwrEvent_pwr]
    exact ⟨rfl, hset _ (by decide)⟩

section
variable (hwf : SMap.wf Core.blank s.cores = true) (temp : Byte)
include hwf

theorem State.cutCeiling_wf : SMap.wf Core.blank (s.cutCeiling k temp).cores = true := by
  unfold State.cutCeiling
  split
  · exact State.setCore_wf _ _ _ (State.heat_wf hwf temp)
  · exact State.heat_wf hwf temp

theorem State.cutCeiling_core : (s.cutCeiling k temp).core k
    = { s.core k with temp := temp, ceilingCut := (s.core k).ceilingCut + (if s.floorOf k < s.ceilingOf k then 1 else 0) } := by
  unfold State.cutCeiling
  split
  · rw [State.core_modCore (State.heat_wf hwf temp), State.heat_core hwf]
  · rw [State.heat_core hwf]
    exact congrArg (fun x => { s.core k with temp := temp, ceilingCut := x }) (BitVec.add_zero _).symm

end

/-- A cooler core that was hot, or whose ceiling is still lowered, raises it again. -/
def State.raiseCeiling (s : State) (k : Nat) (temp : Byte) : State :=
  (s.heat k temp).modCore k fun c => { c with hot := false, ceilingCut := if c.ceilingCut = 0 then 0 else c.ceilingCut - 1 }

/-- A core's supply brought below its ceiling. -/
def State.capSupply (s : State) (k : Nat) : State :=
  s.modCore k fun c => { c with supply := if s.ceilingOf k < c.supply.toNat then BitVec.ofNat 6 (s.ceilingOf k) else c.supply }

theorem State.capSupply_core (hwf : SMap.wf Core.blank s.cores = true) : (s.capSupply k).core k
    = { s.core k with supply := if s.ceilingOf k < (s.core k).supply.toNat then BitVec.ofNat 6 (s.ceilingOf k) else (s.core k).supply } :=
  State.core_modCore hwf k fun c => { c with supply := if s.ceilingOf k < c.supply.toNat then BitVec.ofNat 6 (s.ceilingOf k) else c.supply }

theorem State.capSupply_supply (hwf : SMap.wf Core.blank s.cores = true) :
    ((s.capSupply k).core k).supply.toNat = min (s.core k).supply.toNat ((s.capSupply k).ceilingOf k) := by
  have hc := State.capSupply_core (k := k) hwf
  have hceil : (s.capSupply k).ceilingOf k = s.ceilingOf k := State.ceilingOf_of_vmax rfl rfl (by rw [hc]; rfl) (by rw [hc])
  have hle := s.ceilingOf_le k
  rw [hceil, hc]
  dsimp only
  split
  · rw [BitVec.toNat_ofNat]
    omega
  · omega

section
variable (hr : s.su.rails = true) (ho : (s.core k).off = false)
include hr ho

theorem State.measures_of_on : s.measures k = true := by
  unfold State.measures
  rw [hr, ho]
  rfl

include hk

theorem exec_supplyStep_up (h : (s.core k).supply.toNat < s.ceilingOf k) :
    exec (.supplyStep k true) s = .next ((s.modCore k fun c => { c with supply := (s.core k).supply + 1 }).fitSupply k) := by
  show execSupplyStep k true s = _
  unfold execSupplyStep
  rw [onUnit_of_ok _ (coreOk_of_lt hk)]
  dsimp only
  rw [if_neg (by rw [hr, ho]; exact Bool.false_ne_true), if_pos rfl, if_pos h]
  rfl

theorem exec_supplyStep_down (h : s.floorOf k < (s.core k).supply.toNat) :
    exec (.supplyStep k false) s = .next ((s.modCore k fun c => { c with supply := (s.core k).supply - 1 }).fitSupply k) := by
  show execSupplyStep k false s = _
  unfold execSupplyStep
  rw [onUnit_of_ok _ (coreOk_of_lt hk)]
  dsimp only
  rw [if_neg (by rw [hr, ho]; exact Bool.false_ne_true), if_neg Bool.false_ne_true, if_pos h]
  rfl

theorem exec_coreHot {temp : Byte} (ht : 95 ≤ temp.toNat) : exec (.coreHot k temp) s = .next (if (s.core k).hot then s.heat k temp
    else ((s.heat k temp).modCore k fun c => { c with hot := true }).pwrEvent 1 { status := unlistedCode 4, words := [k] }) := by
  show execCoreHot k temp s = _
  unfold execCoreHot
  rw [onUnit_of_ok _ (coreOk_of_lt hk), if_pos (by rw [State.measures_of_on hr ho, decide_eq_true ht]; rfl)]

/-- A hot core that stays warm lowers its ceiling, and its supply with it. -/
theorem exec_ceilingStep_down {temp : Byte} (hh : (s.core k).hot = true) (ht : 93 ≤ temp.toNat) :
    exec (.ceilingStep k temp) s = .next ((s.cutCeiling k temp).capSupply k) := by
  show execCeilingStep k temp s = _
  unfold execCeilingStep
  rw [onUnit_of_ok _ (coreOk_of_lt hk)]
  dsimp only
  rw [if_pos (by rw [State.measures_of_on hr ho, hh]; rfl), if_pos (by rw [hh, decide_eq_true ht]; rfl)]
  rfl

theorem exec_ceilingStep_up {temp : Byte} (h : ((s.core k).hot = true ∧ temp.toNat < 93) ∨ ((s.core k).hot = false ∧ (s.core k).ceilingCut ≠ 0)) :
    exec (.ceilingStep k temp) s = .next (s.raiseCeiling k temp) := by
  have hdue : ((s.core k).hot || (s.core k).ceilingCut != 0) = true := by
    rcases h with h | h
    · rw [h.1, Bool.true_or]
    · rw [bne_iff_ne.mpr h.2, Bool.or_true]
  have hcool : ((s.core k).hot && decide (93 ≤ temp.toNat)) = false := by
    rcases h with h | h
    · rw [decide_eq_false (Nat.not_le.mpr h.2), Bool.and_false]
    · rw [h.1, Bool.false_and]
  show execCeilingStep k temp s = _
  unfold execCeilingStep
  rw [onUnit_of_ok _ (coreOk_of_lt hk)]
  dsimp only
  rw [if_pos (by rw [State.measures_of_on hr ho, hdue]; rfl), if_neg (by rw [hcool]; exact Bool.false_ne_true)]
  rfl

theorem exec_coreHold {temp : Byte} (ht : 105 ≤ temp.toNat) (hs : (s.core k).supply.toNat ≤ s.floorOf k) (hh : (s.core k).held = false) :
    exec (.coreHold k temp) s = .next (s.holdCore k temp) := by
  show execCoreHold k temp s = _
  unfold execCoreHold
  rw [onUnit_of_ok _ (coreOk_of_lt hk)]
  dsimp only
  rw [if_pos (by rw [State.measures_of_on hr ho, decide_eq_true ht, decide_eq_true hs, hh]; rfl)]
  rfl

end

include hk

theorem exec_coreHoldRelease {temp : Byte} (hh : (s.core k).held = true) (ht : temp.toNat < 100) :
    exec (.coreHoldRelease k temp) s = .next ((s.heat k temp).modCore k fun c => { c with held := false }) := by
  show execCoreHoldRelease k temp s = _
  unfold execCoreHoldRelease
  rw [onUnit_of_ok _ (coreOk_of_lt hk), if_pos (by rw [hh, decide_eq_true ht]; rfl)]

section
variable (ha : (s.core k).aloft = true)
include ha

theorem exec_engineGate_arrA (h : (s.core k).arrA.quiet = true) :
    exec (.engineGate k 0) s = .next (s.modCore k fun c => { c with gatedA := true }) := by
  show execEngineGate k 0 s = _
  unfold execEngineGate
  rw [onUnit_of_ok _ (by rw [coreOk_of_lt hk]; rfl)]
  dsimp only
  rw [if_neg (by rw [ha]; exact Bool.false_ne_true), if_pos rfl, if_pos h]

theorem exec_engineGate_arrB (h : (s.core k).arrB.quiet = true) :
    exec (.engineGate k 1) s = .next (s.modCore k fun c => { c with gatedB := true }) := by
  show execEngineGate k 1 s = _
  unfold execEngineGate
  rw [onUnit_of_ok _ (by rw [coreOk_of_lt hk]; rfl)]
  dsimp only
  rw [if_neg (by rw [ha]; exact Bool.false_ne_true), if_neg Nat.one_ne_zero, if_pos rfl, if_pos h]

theorem exec_engineGate_vector (h : (s.core k).flagsSettled = true) :
    exec (.engineGate k 2) s = .next (s.modCore k fun c => { c with gatedV := true }) := by
  show execEngineGate k 2 s = _
  unfold execEngineGate
  rw [onUnit_of_ok _ (by rw [coreOk_of_lt hk]; rfl)]
  dsimp only
  rw [if_neg (by rw [ha]; exact Bool.false_ne_true), if_neg (by decide), if_neg (by decide), if_pos h]

end
end

theorem State.core_raiseCeiling {s : State} {k : Nat} (hwf : SMap.wf Core.blank s.cores = true) (temp : Byte) :
    (s.raiseCeiling k temp).core k = { s.core k with temp := temp, hot := false
                                                     ceilingCut := if (s.core k).ceilingCut = 0 then 0 else (s.core k).ceilingCut - 1 } := by
  unfold State.raiseCeiling
  rw [State.core_modCore (State.heat_wf hwf temp), State.heat_core hwf]

end Sys2Proof.Machine

open Sys2Proof Sys2Proof.Machine

/-- Settles O59: a move by what entering and leaving Grounded leave, a test by its failing units, a supply by its range. -/
theorem ladderAndTests : Obligations.LadderAndTests := by
  intro s
  refine ⟨fun o ref c h => ?_, fun m hm hr => ?_, fun o ref c h => ?_, fun sig expd fails x hx hr hd hv hc ht hs => ?_, fun k hk hr ho => ?_,
    fun k hk temp hh ht => exec_coreHoldRelease hk hh ht,
    fun k hk ha => ⟨exec_engineGate_arrA hk ha, exec_engineGate_arrB hk ha, exec_engineGate_vector hk ha⟩,
    fun k => ⟨s.floorOf_le_ceilingOf k, s.ceilingOf_le k⟩, fun stack hs => onUnit_of_ok _ (decide_eq_true hs)⟩
  · exact carriesOut_of_checked h (Eq.refl (execLadder o s)) (State.guarded_host _ _ _ _ _)
  · refine ⟨s.moveRung m.target, exec_ladderComplete hm hr, fun hp => ?_, fun hp => State.moveRung_low hp,
      fun hcores hports hp => ⟨fun hl ht => ?_, fun hl ht => ?_⟩⟩
    · rw [hp]
      exact s.moveRung_packed
    · obtain ⟨hc, hk⟩ := State.moveRung_down hp hl ht
      refine ⟨fun k hk => ?_, fun p hp => ?_⟩
      · rw [State.core_of_cores hc]
        exact State.enterGrounded_core hcores hk
      · rw [State.port_of_ports (congrArg Lnk.ports hk)]
        exact State.enterGrounded_port hports hp
    · obtain ⟨spn, hc, hparts, hlnk, hv⟩ := State.moveRung_up hp hl ht
      refine ⟨fun k hk => ?_, fun p hp => ?_⟩
      · have hk' := State.leaveGrounded_core (s := { s with spn := spn }) hcores hk
        have hck := State.core_of_cores hc k
        rw [(State.range_congr hparts (by rw [hck])).2, State.ceilingOf_of_vmax hparts hv (by rw [hck]) (by rw [hck]), hck]
        exact hk'
      · rw [State.port_of_ports (congrArg Lnk.ports hlnk)]
        exact State.leaveGrounded_port (s := { s with spn := spn }) hports hp
  · exact carriesOut_of_checked h (Eq.refl (execSelftest o s)) (State.guarded_host _ _ _ _ _)
  · refine ⟨s.testEnded x sig expd fails, exec_selftestComplete hx hr hd hv hc ht hs, State.testEnded_pwr,
      fun k j hm => State.testEnded_testedOff hv hm, State.testEnded_halts, fun he => ?_⟩
    rw [he]
    exact State.testEnded_passed
  · refine ⟨fun hwf => ⟨fun h => ?_, fun h => ?_⟩, fun temp ht => ⟨fun hh => ?_, fun hh => ?_⟩, fun hwf => ⟨fun temp hh ht => ?_, fun temp h => ?_,
      fun temp ht hs hh => ?_⟩⟩
    · obtain ⟨hc, hs, hj⟩ := State.fitSupply_modCore (k := k) hwf ((s.core k).supply + 1)
      refine ⟨_, exec_supplyStep_up hk hr ho h, hc.trans ?_, hs, hj⟩
      have hle := s.ceilingOf_le k
      have h1 : ((s.core k).supply + 1).toNat = (s.core k).supply.toNat + 1 := by bv_omega
      rw [h1, Nat.min_eq_right h]
    · obtain ⟨hc, hs, hj⟩ := State.fitSupply_modCore (k := k) hwf ((s.core k).supply - 1)
      refine ⟨_, exec_supplyStep_down hk hr ho h, hc.trans ?_, hs, hj⟩
      have hle := s.floorOf_le_ceilingOf k
      have h1 : ((s.core k).supply - 1).toNat = (s.core k).supply.toNat - 1 := by bv_omega
      rw [h1, Nat.max_eq_right (by omega)]
    · rw [exec_coreHot hk hr ho ht, if_pos hh]
    · rw [exec_coreHot hk hr ho ht, if_neg (by rw [hh]; exact Bool.false_ne_true)]
    · have hc := State.cutCeiling_core (k := k) hwf temp
      have hw := State.cutCeiling_wf (k := k) hwf temp
      have hcap := State.capSupply_core (k := k) hw
      refine ⟨(s.cutCeiling k temp).capSupply k, exec_ceilingStep_down hk hr ho hh ht, ?_, ?_, ?_⟩
      · rw [hcap, hc]
      · rw [State.capSupply_supply hw, hc]
      · rw [hcap, hc]
    · exact ⟨s.raiseCeiling k temp, exec_ceilingStep_up hk hr ho h, State.core_raiseCeiling hwf temp⟩
    · obtain ⟨hholds, hev⟩ := State.holdCore_pwr (s := s) (k := k) temp
      exact ⟨s.holdCore k temp, exec_coreHold hk hr ho ht hs hh, State.holdCore_core hwf temp, hholds, hev⟩
end

section
/-! PROOFS. Management (O60): a table of cores that lists a core twice, on which clearing the counters leaves one counting. -/

namespace Sys2Proof.Machine

/-! ### Counters cleared over a table of cores that lists a core twice -/

/-- Core 0 is listed twice, each time with the first line of its near place poisoned, so that the table of cores is not in its canonical form. The
place holds the header of an open reel that has dropped a record; the header's tile has a hint that waits. Clearing the reel's counter writes the
header: the write leaves the first entry of core 0 as an unlisted core reads and so removes it, the second entry shows, and the tile, as its hint
brings it back from the near place, is poisoned by it and counted after the counter was cleared. -/
def twiceListed : State := {
  su := { awake := true }
  cores := [(0, { poison := [65344] }), (0, { poison := [65344] })]
  parts := [(0, { st := .running, kites := 1, nearEff := 1 })]
  spn := {
    extents := [(extKey 0 0, some { owner := 0, isSealed := true })]
    tiles := [(tileKey 0 0, { nearCore := some (0, 0), nextHint := some (1, 0) })] }
  gon := { reels := [(0, { isOpen := true, dropCount := 1 })] } }

theorem twiceListed_clearErrors_ue : twiceListed.clearErrors.spn.ue = 1 := by decide +kernel

theorem exec_counterClear {s : State} (h : s.su.awake = true) :
    exec .counterClear s = .next ((s.clearErrors.log { status := 0x0818 } 0).vendor 0x07 0 []) := congrArg Host.Outcome.next (if_pos h)

theorem State.vendor_spn (s : State) (cmd st : Nat) (l : List Byte) : (s.vendor cmd st l).spn = s.spn := rfl

end Sys2Proof.Machine

open Sys2Proof Sys2Proof.Machine

/-- Refutes O60: where the table of cores is not in its canonical form, COUNTER_CLEAR ends with SPN_UE at 1, since the header of a reel is
written after the counters have been cleared. -/
theorem not_managementAnswers : ¬ Obligations.ManagementAnswers := by
  intro h
  obtain ⟨-, -, -, -, -, -, -, -, -, -, -, -, hclear, -⟩ := h twiceListed
  obtain ⟨t, ht, -, -, -, hue, -⟩ := hclear rfl
  have hsame := congrArg State.spn (Host.Outcome.next.inj ((exec_counterClear rfl).symm.trans ht))
  rw [State.vendor_spn, State.vendor_spn, State.log_spn] at hsame
  have hone := twiceListed_clearErrors_ue
  rw [hsame, hue] at hone
  exact absurd hone (by decide)
end
